-- ==== Sys2Proof/Word.lean ====
section
/-! DEFINITION. The word types of the GL9 and the plainest arithmetic over them. -/

namespace Sys2Proof

/-- A register of device control space (spec 00: "Every register is 64 bits wide"). -/
abbrev Word := BitVec 64

/-- One byte of memory, of a frame or of an image. -/
abbrev Byte := BitVec 8

/-- A byte string in the order of its addresses. -/
abbrev Bytes := List Byte

/-- A 16-bit status (R20): class in the high byte, code in the low byte. -/
abbrev Status := BitVec 16

end Sys2Proof
end

