-- ==== Sys2Proof/Syntax.lean ====
section
/-! DEFINITION. The commands the GL9 takes: one constructor per row of spec/opcode_table.json.
The table gives the rows no operands; the operands here are what the rule of the row says comes
from outside the device (a value written, a frame received, a physical outcome). -/

namespace Sys2Proof

/-- A function number, 0 to 15 (spec 01, Functions). -/
abbrev FnId := Fin 16
/-- A fabric lane or the port that starts there, 0 to 255 (R345); also a barrier number (R452). -/
abbrev PortId := Fin 256

/-! ## GTC operand formats (R319, R320) -/

/-- PRED and NEG, bits 31:27 of a GTC word (R319). -/
structure Guard where
  pred : BitVec 4
  neg  : Bool
  deriving DecidableEq, Repr

/-- Format R. -/
structure FmtR where
  d : BitVec 6
  a : BitVec 6
  b : BitVec 6
  fn : BitVec 3
  deriving DecidableEq, Repr

/-- Format I. -/
structure FmtI where
  d : BitVec 6
  a : BitVec 6
  imm : BitVec 9
  deriving DecidableEq, Repr

/-- Format U. -/
structure FmtU where
  d : BitVec 6
  imm : BitVec 15
  deriving DecidableEq, Repr

/-- Format B. -/
structure FmtB where
  imm : BitVec 21
  deriving DecidableEq, Repr

/-- Format A. -/
structure FmtA where
  d : BitVec 6
  a : BitVec 6
  aop : BitVec 3
  ord : BitVec 2
  scope : BitVec 2
  sz : BitVec 2
  deriving DecidableEq, Repr

/-- Format X. -/
structure FmtX where
  d : BitVec 6
  a : BitVec 6
  fmt : BitVec 4
  ord : BitVec 2
  scope : BitVec 2
  deriving DecidableEq, Repr

/-- Format V. -/
structure FmtV where
  vd : BitVec 5
  va : BitVec 5
  vb : BitVec 5
  ty : BitVec 3
  fn : BitVec 3
  deriving DecidableEq, Repr

/-- Format C. -/
structure FmtC where
  d : BitVec 6
  a : BitVec 6
  src : BitVec 4
  dst : BitVec 4
  sr : Bool
  deriving DecidableEq, Repr

/-- Format T. -/
structure FmtT where
  td : BitVec 3
  a : BitVec 6
  b : BitVec 6
  fn : BitVec 6
  deriving DecidableEq, Repr

/-- Format S. -/
structure FmtS where
  stats : Bool
  scope : BitVec 2
  kind : BitVec 2
  deriving DecidableEq, Repr

/-! ## Outcomes that only the physical world decides -/

/-- What one correction step of R150 (steps 1 to 3) makes of a codeword: LDPC decoding fails, or
it answers the payload as stored, or it answers another payload (a miscorrection, step 4). -/
inductive Sense where
  | fails
  | stored
  | wrong (payload : Bytes)
  deriving DecidableEq, Repr

/-- The outcome of reading one codeword: steps 1, 2 and 3 on the page itself, how many of the RETRY
entries step 2 used, and the senses of the other members that step 5 would meet (index = member). -/
structure CwOutcome where
  hard  : Sense
  retry : Sense
  tries : Nat
  soft  : Sense
  badMembers : List Nat
  deriving DecidableEq, Repr

/-- What a peer answers to a remote read that this device makes outside a queued request: the bytes,
or the status of the failure. -/
inductive Remote where
  | none
  | data (b : Bytes)
  | failed (st : Status)
  deriving DecidableEq, Repr

/-- Which write re-arms the ticks (R83). -/
inductive Rearm where
  | launch (count : Word)
  | ctrl (src : Bool) (barrier : BitVec 8)
  deriving DecidableEq, Repr

/-- What the ONFI identification of start-up found (R178 step 2): geometry of every die, whether every
channel trained, whether the metadata area passed its checks, and the dies found FAILED. -/
structure MediaFound where
  dies : Nat
  planes : Nat
  blocks : Nat
  pages : Nat
  trained : Bool
  metaOk : Bool
  failedDies : List (Nat × Nat)
  deriving DecidableEq, Repr

/-- The host transaction header of R499 (fields a request carries) with its payload. -/
structure Txn where
  kind : Byte
  index : Byte
  tag : BitVec 16
  status : Status
  rsv : Bool
  addr : Word
  len : BitVec 32
  arg : Word
  payload : Bytes
  deriving DecidableEq, Repr

/-- Where a host transaction comes from: the device's own host link, or the oldest relay frame that
a fabric port has accepted on VL7 (R372, R502). -/
inductive HostSrc where
  | link (t : Txn)
  | relay
  deriving DecidableEq, Repr

/-- The sender of a management-network datagram (R510): port of receipt, address and UDP port. -/
structure Sender where
  net : Fin 2
  addr : BitVec 128
  udp : BitVec 16
  deriving DecidableEq, Repr

/-- Where an uncorrectable memory error is met (R473). -/
inductive ErrLoc where
  | pond (addr : Nat)
  | channelBuf (f : FnId) (addr : Nat)
  | stateArea (f : FnId) (addr : Nat)
  | planTables (f : FnId) (addr : Nat)
  | gtcCode (f : FnId) (addr : Nat)
  | packetBuffer (p : PortId) (addr : Nat)
  | qpState (qp : Nat) (addr : Nat)
  | core (c : Nat) (addr : Nat)
  | fixedRegion (addr : Nat)
  | mgtSram (addr : Nat)
  | ledger (addr : Nat)
  | sec (addr : Nat)
  deriving DecidableEq, Repr

/-- What the 24-hour scrub finds at an address (R473). -/
inductive Scrub where
  | clean
  | correctable
  | uncorrectable
  deriving DecidableEq, Repr

/-- One part of a transport request (R396): window handle and offset, or an address (ADDR_FORM), a
local buffer and a length in bytes. -/
structure Part where
  addrForm : Bool
  handle : BitVec 32
  addr : Word
  buf : Word
  len : Word
  deriving DecidableEq, Repr

/-- The kind of a transport request (R396). -/
inductive ReqKind where
  | write
  | read
  | atomic (ctl : BitVec 32) (op1 op2 : Word)
  deriving DecidableEq, Repr

/-- A received RoCEv2 packet as R400 sees it after R373 and R399 (the fields of Annex A17 that the
rule names). -/
inductive RoceOp where
  | write (rkey : BitVec 32) (va : Word) (dmaLen : Nat) (first last : Bool) (imm : Option (BitVec 32)) (data : Bytes)
  | send (first last : Bool) (imm : Option (BitVec 32)) (data : Bytes)
  | read (rkey : BitVec 32) (va : Word) (dmaLen : Nat)
  | readResp (data : Bytes) (last : Bool)
  | ack
  | nakSeq
  | nakRnr
  | nakErr (synd : BitVec 8)
  deriving DecidableEq, Repr

/-- A received RoCEv2 packet. -/
structure RocePkt where
  qp : BitVec 24
  psn : BitVec 24
  ecnCe : Bool
  op : RoceOp
  deriving DecidableEq, Repr

/-- A received Ethernet frame with the facts that the subset of R373 and the checks of R399 judge. -/
structure EthFrame where
  bytes : Nat
  fcsOk : Bool
  pause : Bool
  pfc : Option (BitVec 8 × BitVec 8)
  tagPcp : Option (Fin 8)
  inSubset : Bool
  dstMac : BitVec 48
  dstIp : BitVec 128
  srcIp : BitVec 128
  cnp : Bool
  pkt : RocePkt
  deriving DecidableEq, Repr

/-- The commands, one constructor per row of the table, in the table's order. -/
inductive Instr where
  -- 00, 03: registers, ticks and steeps
  | registerWrite (off size : Nat) (v : Word)
  | deviceTick
  | steepBoundary (f : FnId)
  | overrun (f : FnId)
  | scheduleLost (f : FnId)
  -- 02: the image loader
  | loadDevice
  | loadFunction (f : FnId)
  | changeFunction (f : FnId)
  | unloadFunction (f : FnId)
  | loaderOpInvalid (op : Fin 8) (f : FnId)
  | loadAbort
  | loaderChecksDone (src : Remote)
  -- 03: ticks and function requests
  | tickArm (src : Bool) (barrier : BitVec 8)
  | tickRearmWrite (w : Rearm)
  | start (f : FnId)
  | stop (f : FnId)
  | fnCmdInvalid (f : FnId) (three : Bool)
  | kill (f : FnId)
  | stage (f : FnId) (consumers : BitVec 16)
  -- 01, 04: blend flow and batches
  | channelGranuleWrite (ch : Nat)
  | channelCreditReturn (ch : Nat)
  | spliceGranule (i : Nat)
  | assemblerGranule (f : FnId) (port : Nat)
  | shardDelivery (f : FnId) (consumer : Nat)
  | manifestSign
  -- 05: media
  | mediaCodewordRead (f : FnId) (pos : Nat) (o : CwOutcome) (replica : Remote)
  | mediaWindowRead (o : CwOutcome)
  | nandCommandTimeout (ch die : Nat) (resetFails : Bool)
  | parityProgram (sb page : Nat) (ok : Bool)
  | blockRefresh (newBlock : Nat) (ok : Bool)
  | blockRepair (newBlock : Nat) (ok : Bool)
  | relocationCommit
  | mapFloorWrite (v : Word)
  | mapFloorFreeDone
  | readCountSave
  | gcRun
  | gcMapUpdate (ok : Bool)
  | mediaStartup (found : MediaFound)
  | healthLogSave
  | tempHistoryRecord (nandMax nandMin : BitVec 8)
  -- 06: storage commands
  | read (t : Fin 8)
  | write (t : Fin 8)
  | flush (t : Fin 8)
  | deallocate (t : Fin 8)
  | nsCreate (t : Fin 8)
  | nsDelete (t : Fin 8)
  | nsList (t : Fin 8)
  | identify (t : Fin 8)
  | health (t : Fin 8)
  | mapExport (t : Fin 8)
  | seal (t : Fin 8)
  | stcOpcodeInvalid (t : Fin 8)
  | stcGoRejected (t : Fin 8)
  | stcCommandComplete (t : Fin 8) (fails : List (Nat × Status))
  -- 06: power states
  | powerRequestP0
  | powerRequestP1
  | powerRequestP2
  | powerRequestP3
  | powerEntryCommit
  | hbmSelfRefreshEntry
  -- 07: residue codec
  | rcxFrameHeader (i : Nat)
  | rcxBlockDecode (i : Nat)
  | rcxFrameTrailer (i : Nat)
  | rcxCompressSample (i : Nat)
  -- 08: video, JPEG and image engines
  | vdeSampleStart (i : Nat)
  | vdePictureDecode (i : Nat)
  | vdeContextSave (i : Nat)
  | jpgScanDecode (i : Nat)
  | imgPicture (i : Nat)
  | regionTableArrival (i : Nat)
  -- 09: token engine
  | bpeRun (i : Nat)
  | maskChunkHeader (i : Nat)
  | maskToken (i : Nat)
  | detokToken (i : Nat)
  -- 11: thread array
  | queueItemAdmit (q : Fin 256)
  | attemptStart (q : Fin 256) (core : Nat)
  | itemSteal (q : Fin 256) (core : Nat)
  | coreWithdraw (c : Nat)
  | coreRestore (c : Nat)
  | coreFailure (c : Nat) (addr : Nat)
  -- 12: GTC
  | alu0 (t : Nat) (g : Guard) (o : FmtR)
  | alu1 (t : Nat) (g : Guard) (o : FmtR)
  | alu2 (t : Nat) (g : Guard) (o : FmtR)
  | addi (t : Nat) (g : Guard) (o : FmtI)
  | andi (t : Nat) (g : Guard) (o : FmtI)
  | ori (t : Nat) (g : Guard) (o : FmtI)
  | xori (t : Nat) (g : Guard) (o : FmtI)
  | shifti (t : Nat) (g : Guard) (o : FmtI)
  | movi (t : Nat) (g : Guard) (o : FmtU)
  | lit (t : Nat) (g : Guard) (o : FmtU)
  | cmp (t : Nat) (g : Guard) (o : FmtR)
  | plog (t : Nat) (g : Guard) (o : FmtR)
  | srd (t : Nat) (g : Guard) (o : FmtI)
  | swr (t : Nat) (g : Guard) (o : FmtI)
  | draw (t : Nat) (g : Guard) (o : FmtR)
  | fp32 (t : Nat) (g : Guard) (o : FmtR)
  | fp64 (t : Nat) (g : Guard) (o : FmtR)
  | fcmp (t : Nat) (g : Guard) (o : FmtR)
  | fcvt (t : Nat) (g : Guard) (o : FmtC)
  | ldu8 (t : Nat) (g : Guard) (o : FmtI)
  | lds8 (t : Nat) (g : Guard) (o : FmtI)
  | ldu16 (t : Nat) (g : Guard) (o : FmtI)
  | lds16 (t : Nat) (g : Guard) (o : FmtI)
  | ldu32 (t : Nat) (g : Guard) (o : FmtI)
  | lds32 (t : Nat) (g : Guard) (o : FmtI)
  | ld64 (t : Nat) (g : Guard) (o : FmtI)
  | st8 (t : Nat) (g : Guard) (o : FmtI)
  | st16 (t : Nat) (g : Guard) (o : FmtI)
  | st32 (t : Nat) (g : Guard) (o : FmtI)
  | st64 (t : Nat) (g : Guard) (o : FmtI)
  | vld (t : Nat) (g : Guard) (o : FmtI)
  | vst (t : Nat) (g : Guard) (o : FmtI)
  | atom (t : Nat) (g : Guard) (o : FmtA)
  | fatom (t : Nat) (g : Guard) (o : FmtA)
  | xadd (t : Nat) (g : Guard) (o : FmtX)
  | fence (t : Nat) (g : Guard) (o : FmtS)
  | wait (t : Nat) (g : Guard) (o : FmtR)
  | waitConditionMet (t : Nat)
  | waitTimeout (t : Nat)
  | bar (t : Nat) (g : Guard)
  | varith (t : Nat) (g : Guard) (o : FmtV)
  | vlogic (t : Nat) (g : Guard) (o : FmtV)
  | vcmp (t : Nat) (g : Guard) (o : FmtV)
  | vred (t : Nat) (g : Guard) (o : FmtV)
  | vcvt (t : Nat) (g : Guard) (o : FmtC)
  | vmove (t : Nat) (g : Guard) (o : FmtR)
  | tzero (t : Nat) (g : Guard) (o : FmtT)
  | tload (t : Nat) (g : Guard) (o : FmtT)
  | tstore (t : Nat) (g : Guard) (o : FmtT)
  | tmma (t : Nat) (g : Guard) (o : FmtT)
  | br (t : Nat) (g : Guard) (o : FmtB)
  | call (t : Nat) (g : Guard) (o : FmtB)
  | jr (t : Nat) (g : Guard) (o : FmtR)
  | done (t : Nat) (g : Guard) (o : FmtR)
  | halt (t : Nat) (g : Guard)
  | nop (t : Nat) (g : Guard)
  -- 13: fabric ports and links
  | portLaneLock (p : PortId)
  | dataFrame (p : PortId) (frame : Bytes) (uncorrectable : Bool) (corrected : Nat)
  | controlFrame (p : PortId) (frame : Bytes) (corrected : Nat)
  | replayTimeout (p : PortId)
  | controlFrameSend (p : PortId)
  | linkRxTimeout (p : PortId)
  | retrainTimeout (p : PortId)
  | downRetrain (p : PortId)
  | frameTransmitStart (p : PortId)
  | ethFrame (p : PortId) (f : EthFrame)
  | portEnable (p : PortId) (v : Word)
  | nodeIdWrite (v : Word)
  | fenceWrite (d : BitVec 12) (v : Word)
  | routeCommitGo
  -- 14: transport
  | create (qp : BitVec 20)
  | destroy (qp : BitVec 20)
  | destroyComplete
  | query (qp : BitVec 20)
  | qpCmdInvalid (qp : BitVec 20)
  | open (index : BitVec 16) (pd : BitVec 12) (access : BitVec 3)
  | revoke (index : BitVec 16)
  | windowClosed (index : BitVec 16)
  | pdWrite (pd : BitVec 12) (v : Word)
  | peerEntryWrite (f : Fin 17) (d : BitVec 12) (v : Word)
  | tcConfigWrite (t : Fin 32) (v : Word)
  | transportRequestIssue (owner : Fin 17) (node : BitVec 12) (token : Word) (k : ReqKind) (parts : List Part)
  | transportWrite
  | readReq
  | atomic
  | readResp
  | atomicResp
  | ack
  | nak
  | grant
  | transportRetransmitTimeout (qp : BitVec 20)
  | rnrWaitExpiry (qp : BitVec 20)
  | qpStateFetched (qp : BitVec 20)
  | rocePacket
  | roceAckTimeout (qp : BitVec 20)
  | cnp
  -- 15: traffic scheduling
  | gateListGo (p : PortId) (entries : BitVec 9)
  | gateListCommit (p : PortId)
  | gateEntryChange (p : PortId)
  -- 16: in-network compute
  | contrib
  | result
  | fail
  | localContributionReady (grp : Fin 4096) (input : Nat)
  | install (grp : Fin 4096)
  | remove (grp : Fin 4096)
  | colCmdInvalid (grp : Fin 4096) (three : Bool)
  | colInstanceTimeout (grp : Fin 4096)
  -- 17: time and barriers
  | timeExchangeSend (p : PortId)
  | sync
  | delayReq
  | delayResp
  | syncLossTimeout
  | accurateClear
  | ftSet (ns : Word)
  | ftNsRead
  | timCtrlWrite (v : Word)
  | ppsEdge
  | arrive (b : PortId)
  | barArrive
  | barRelease
  | barrierRelease (b : PortId)
  | cancel (b : PortId)
  -- 18: faults and recovery
  | uncorrectableError (loc : ErrLoc)
  | hbmScrub (addr : Nat) (found : Scrub)
  | firmwareAssert
  | dumpComplete (headerOk : Bool) (bad : List (Fin 6))
  | dumpRelease
  | leaseExpiry
  | heartbeatSend (p : PortId)
  | heartbeat
  | neighbourSilent (p : PortId)
  | recoveryRecord (rec : Bytes) (sender : Sender)
  | recoveryFence
  | admitNode
  | lease
  | recoveryKill
  | recoveryStart
  | membership
  -- 19: management and host interface
  | watchdogExpiry (c : Fin 16)
  | interruptDelivery
  | intEoi (t : Fin 16) (src : BitVec 10)
  | intPendWrite (src : BitVec 10)
  | hostEoi (src : BitVec 10)
  | hostLinkUp (adapterPort : Fin 8)
  | hostLinkDown
  | regRead (h : HostSrc)
  | regWrite (h : HostSrc)
  | memRead (h : HostSrc)
  | memWrite (h : HostSrc)
  | dumpRead (h : HostSrc)
  | record (h : HostSrc)
  | hostOpInvalid (h : HostSrc)
  | relayOpen
  | relayTableWrite (v : Word)
  | mgtNetLink (port : Fin 2) (up : Bool)
  | writeSlot (len : BitVec 32)
  | writeSlotComplete (ok : Bool)
  | update
  | handoverComplete (recordValid : Bool)
  | select
  | fwOpInvalid
  -- 20: security
  | recordWrite (len : BitVec 32)
  | recordWriteComplete (ok : Bool)
  | quoteRequest
  | quoteComplete
  -- 21, 22: power, clocks, reset and boot
  | powerOnReset
  | warmResetPin
  | glbResetWrite (key : BitVec 16)
  | resetRelease (straps : BitVec 7) (pufSeed : Option Bytes) (eeprom : Option Bytes)
  | clockFault
  | clockFaultEnd
  | serdesRefclkLoss (g : Fin 8)
  | thermalSample (sensors : List (BitVec 16))
  | railFault
  | throttleUpdate (amps : Nat)
  | voltageDroop (mv : BitVec 16)
  | smbusBlockRead (c : Byte)
  -- 05, 19, 21: the rows at the table's end
  | pageProgram (sb page member : Nat) (ok : Bool)
  | blockErase (block : Nat) (ok : Bool)
  | updatePreparingEnd
  | voltageDroopEnd (mv : BitVec 16)
  deriving DecidableEq, Repr

end Sys2Proof
end

