-- ==== Sys2Proof/Decode.lean ====
section
/-! DEFINITION. The encoding of commands. The command table gives its rows no bits, so that no table word spells a
command. The GTC instructions among the commands have 32-bit words (R319 to R324, R328 to R336): their encoder, their
decoder and the valid encodings of R321. -/

namespace Sys2Proof

/-- The command that a table word spells: none, as the table gives no row any bits. -/
def decodeTableWord (_nbits _w : Nat) : Option Instr := none

/-! ## GTC operand fields (R320) -/

/-- Bits [hi:lo] of a word as a bit vector of the field's width. -/
def gtcField (w lo n : Nat) : BitVec n := BitVec.ofNat n (w / 2 ^ lo)

def FmtR.bits (o : FmtR) : Nat := o.d.toNat * 2 ^ 15 + o.a.toNat * 2 ^ 9 + o.b.toNat * 2 ^ 3 + o.fn.toNat
def FmtI.bits (o : FmtI) : Nat := o.d.toNat * 2 ^ 15 + o.a.toNat * 2 ^ 9 + o.imm.toNat
def FmtU.bits (o : FmtU) : Nat := o.d.toNat * 2 ^ 15 + o.imm.toNat
def FmtB.bits (o : FmtB) : Nat := o.imm.toNat
def FmtA.bits (o : FmtA) : Nat :=
  o.d.toNat * 2 ^ 15 + o.a.toNat * 2 ^ 9 + o.aop.toNat * 2 ^ 6 + o.ord.toNat * 2 ^ 4 + o.scope.toNat * 2 ^ 2 + o.sz.toNat
def FmtX.bits (o : FmtX) : Nat :=
  o.d.toNat * 2 ^ 15 + o.a.toNat * 2 ^ 9 + o.fmt.toNat * 2 ^ 5 + o.ord.toNat * 2 ^ 3 + o.scope.toNat * 2
def FmtV.bits (o : FmtV) : Nat :=
  o.vd.toNat * 2 ^ 16 + o.va.toNat * 2 ^ 11 + o.vb.toNat * 2 ^ 6 + o.ty.toNat * 2 ^ 3 + o.fn.toNat
def FmtC.bits (o : FmtC) : Nat :=
  o.d.toNat * 2 ^ 15 + o.a.toNat * 2 ^ 9 + o.src.toNat * 2 ^ 5 + o.dst.toNat * 2 + o.sr.toNat
def FmtT.bits (o : FmtT) : Nat := o.td.toNat * 2 ^ 18 + o.a.toNat * 2 ^ 12 + o.b.toNat * 2 ^ 6 + o.fn.toNat
def FmtS.bits (o : FmtS) : Nat := o.stats.toNat * 2 ^ 4 + o.scope.toNat * 2 ^ 2 + o.kind.toNat

def fmtR (w : Nat) : FmtR := ⟨gtcField w 15 6, gtcField w 9 6, gtcField w 3 6, gtcField w 0 3⟩
def fmtI (w : Nat) : FmtI := ⟨gtcField w 15 6, gtcField w 9 6, gtcField w 0 9⟩
def fmtU (w : Nat) : FmtU := ⟨gtcField w 15 6, gtcField w 0 15⟩
def fmtB (w : Nat) : FmtB := ⟨gtcField w 0 21⟩
def fmtA (w : Nat) : FmtA := ⟨gtcField w 15 6, gtcField w 9 6, gtcField w 6 3, gtcField w 4 2, gtcField w 2 2, gtcField w 0 2⟩
def fmtX (w : Nat) : FmtX := ⟨gtcField w 15 6, gtcField w 9 6, gtcField w 5 4, gtcField w 3 2, gtcField w 1 2⟩
def fmtV (w : Nat) : FmtV := ⟨gtcField w 16 5, gtcField w 11 5, gtcField w 6 5, gtcField w 3 3, gtcField w 0 3⟩
def fmtC (w : Nat) : FmtC := ⟨gtcField w 15 6, gtcField w 9 6, gtcField w 5 4, gtcField w 1 4, w.testBit 0⟩
def fmtT (w : Nat) : FmtT := ⟨gtcField w 18 3, gtcField w 12 6, gtcField w 6 6, gtcField w 0 6⟩
def fmtS (w : Nat) : FmtS := ⟨w.testBit 4, gtcField w 2 2, gtcField w 0 2⟩

/-! ## Words (R319, R324) -/

/-- A GTC word from its guard, opcode and operand bits. -/
def gtcWord (g : Guard) (op operand : Nat) : Nat :=
  g.pred.toNat * 2 ^ 28 + g.neg.toNat * 2 ^ 27 + op * 2 ^ 21 + operand

/-- The guard of a word. -/
def gtcGuard (w : Nat) : Guard := ⟨gtcField w 28 4, w.testBit 27⟩

/-- The word of a GTC command; none for the commands that are no GTC instruction. -/
def gtcEncode (i : Instr) : Option Nat :=
  match i with
  | .alu0 _ g o => some (gtcWord g 0x01 o.bits)
  | .alu1 _ g o => some (gtcWord g 0x02 o.bits)
  | .alu2 _ g o => some (gtcWord g 0x03 o.bits)
  | .addi _ g o => some (gtcWord g 0x04 o.bits)
  | .andi _ g o => some (gtcWord g 0x05 o.bits)
  | .ori _ g o => some (gtcWord g 0x06 o.bits)
  | .xori _ g o => some (gtcWord g 0x07 o.bits)
  | .shifti _ g o => some (gtcWord g 0x08 o.bits)
  | .movi _ g o => some (gtcWord g 0x09 o.bits)
  | .lit _ g o => some (gtcWord g 0x0A o.bits)
  | .cmp _ g o => some (gtcWord g 0x0B o.bits)
  | .plog _ g o => some (gtcWord g 0x0C o.bits)
  | .srd _ g o => some (gtcWord g 0x0D o.bits)
  | .swr _ g o => some (gtcWord g 0x0E o.bits)
  | .draw _ g o => some (gtcWord g 0x0F o.bits)
  | .fp32 _ g o => some (gtcWord g 0x10 o.bits)
  | .fp64 _ g o => some (gtcWord g 0x11 o.bits)
  | .fcmp _ g o => some (gtcWord g 0x12 o.bits)
  | .fcvt _ g o => some (gtcWord g 0x13 o.bits)
  | .ldu8 _ g o => some (gtcWord g 0x14 o.bits)
  | .lds8 _ g o => some (gtcWord g 0x15 o.bits)
  | .ldu16 _ g o => some (gtcWord g 0x16 o.bits)
  | .lds16 _ g o => some (gtcWord g 0x17 o.bits)
  | .ldu32 _ g o => some (gtcWord g 0x18 o.bits)
  | .lds32 _ g o => some (gtcWord g 0x19 o.bits)
  | .ld64 _ g o => some (gtcWord g 0x1A o.bits)
  | .st8 _ g o => some (gtcWord g 0x1B o.bits)
  | .st16 _ g o => some (gtcWord g 0x1C o.bits)
  | .st32 _ g o => some (gtcWord g 0x1D o.bits)
  | .st64 _ g o => some (gtcWord g 0x1E o.bits)
  | .vld _ g o => some (gtcWord g 0x1F o.bits)
  | .vst _ g o => some (gtcWord g 0x20 o.bits)
  | .atom _ g o => some (gtcWord g 0x21 o.bits)
  | .fatom _ g o => some (gtcWord g 0x22 o.bits)
  | .xadd _ g o => some (gtcWord g 0x23 o.bits)
  | .fence _ g o => some (gtcWord g 0x24 o.bits)
  | .wait _ g o => some (gtcWord g 0x25 o.bits)
  | .bar _ g => some (gtcWord g 0x26 0)
  | .varith _ g o => some (gtcWord g 0x28 o.bits)
  | .vlogic _ g o => some (gtcWord g 0x29 o.bits)
  | .vcmp _ g o => some (gtcWord g 0x2A o.bits)
  | .vred _ g o => some (gtcWord g 0x2B o.bits)
  | .vcvt _ g o => some (gtcWord g 0x2C o.bits)
  | .vmove _ g o => some (gtcWord g 0x2D o.bits)
  | .tzero _ g o => some (gtcWord g 0x30 o.bits)
  | .tload _ g o => some (gtcWord g 0x31 o.bits)
  | .tstore _ g o => some (gtcWord g 0x32 o.bits)
  | .tmma _ g o => some (gtcWord g 0x33 o.bits)
  | .br _ g o => some (gtcWord g 0x38 o.bits)
  | .call _ g o => some (gtcWord g 0x39 o.bits)
  | .jr _ g o => some (gtcWord g 0x3A o.bits)
  | .done _ g o => some (gtcWord g 0x3B o.bits)
  | .halt _ g => some (gtcWord g 0x3C 0)
  | .nop _ g => some (gtcWord g 0x3F 0)
  | _ => none

/-! ## Valid encodings (R321) -/

/-- ORD and SCOPE of an atomic (R328). -/
def ordOk (ord scope : Nat) : Bool := scope != 3 && (ord != 0 || scope == 0)

/-- SRC, DST and SR of a conversion (R325). -/
def cvtOk (o : FmtC) : Bool :=
  let s := o.src.toNat
  let d := o.dst.toNat
  1 ≤ s && s ≤ 0xE && 1 ≤ d && d ≤ 0xE && (!o.sr || d == 4 || (7 ≤ d && d ≤ 0xA))

/-- Whether the operands of a GTC command are ones that R321 allows, the guard aside. -/
def gtcOperandsOk (i : Instr) : Bool :=
  match i with
  | .alu0 .. => true
  | .alu1 _ _ o => o.fn.toNat ≤ 6
  | .alu2 _ _ o => o.fn.toNat ≤ 3 || (o.fn.toNat ≤ 6 && o.b == 0)
  | .addi .. => true
  | .andi .. => true
  | .ori .. => true
  | .xori .. => true
  | .shifti _ _ o => !o.imm.getLsbD 6 && o.imm.toNat / 128 ≤ 2
  | .movi .. => true
  | .lit .. => true
  | .cmp _ _ o => o.d.toNat < 16 && o.fn.toNat ≤ 5
  | .plog _ _ o => o.d.toNat < 16 && o.a.toNat < 16 && o.b.toNat < 16 && (o.fn.toNat ≤ 3 || (o.fn.toNat ≤ 5 && o.b == 0))
  | .srd _ _ o => o.a == 0 && (o.imm.toNat ≤ 2 || (0x100 ≤ o.imm.toNat && o.imm.toNat ≤ 0x104))
  | .swr _ _ o => o.d == 0 && o.imm.toNat ≤ 1
  | .draw _ _ o => o.b == 0 && o.fn == 0
  | .fp32 _ _ o => o.fn.toNat != 7 || o.b == 0
  | .fp64 _ _ o => o.fn.toNat != 7 || o.b == 0
  | .fcmp _ _ o => o.d.toNat < 16
  | .fcvt _ _ o => cvtOk o
  | .ldu8 .. => true
  | .lds8 .. => true
  | .ldu16 .. => true
  | .lds16 .. => true
  | .ldu32 .. => true
  | .lds32 .. => true
  | .ld64 .. => true
  | .st8 .. => true
  | .st16 .. => true
  | .st32 .. => true
  | .st64 .. => true
  | .vld _ _ o => o.d.toNat < 32
  | .vst _ _ o => o.d.toNat < 32
  | .atom _ _ o => o.sz.toNat ≤ 1 && ordOk o.ord.toNat o.scope.toNat && (o.aop.toNat != 7 || o.d.toNat % 2 == 0)
  | .fatom _ _ o => o.sz.toNat ≤ 2 && o.aop.toNat ≤ 2 && ordOk o.ord.toNat o.scope.toNat
  | .xadd _ _ o => 1 ≤ o.fmt.toNat && o.fmt.toNat ≤ 0xE && ordOk o.ord.toNat o.scope.toNat
  | .fence _ _ o => o.scope.toNat != 3 && (o.kind != 0 || o.stats)
  | .wait _ _ o => o.fn.toNat ≤ 3
  | .bar .. => true
  | .varith _ _ o => (o.ty.toNat < 4 || o.fn.toNat ≤ 5) && (o.fn.toNat != 7 || o.vb == 0)
  | .vlogic _ _ o => o.fn.toNat ≤ 6
  | .vcmp _ _ o => o.fn.toNat ≤ 3 || (o.fn.toNat ≤ 5 && 4 ≤ o.ty.toNat) || (o.fn.toNat == 6 && o.ty.toNat < 4)
  | .vred _ _ o => o.fn.toNat ≤ 2 && o.vb == 0
  | .vcvt _ _ o => cvtOk o && o.d.toNat < 32 && o.a.toNat < 32
  | .vmove _ _ o =>
    match o.fn.toNat with
    | 4 => o.a.toNat < 32
    | 5 => o.d.toNat < 32
    | 6 => o.d.toNat < 32 && o.a.toNat < 32
    | 7 => o.d.toNat < 32 && o.a.toNat < 32 && o.b == 0
    | _ => o.d.toNat < 32 && o.b == 0
  | .tzero _ _ o => o.a == 0 && o.b == 0 && o.fn.toNat ≤ 1
  | .tload _ _ o => o.b == 0 && o.fn == 0
  | .tstore _ _ o => o.b == 0 && o.fn.toNat ≤ 1
  | .tmma _ _ o => o.fn == 0
  | .br .. => true
  | .call .. => true
  | .jr _ _ o => o.d == 0 && o.b == 0 && o.fn == 0
  | .done _ _ o => o.d == 0 && o.fn == 0
  | .halt .. => true
  | .nop .. => true
  | _ => false

/-- The guard of a GTC command. -/
def gtcGuardOf (i : Instr) : Option Guard := (gtcEncode i).map gtcGuard

/-- Whether a guard is a valid encoding (R319): not PRED 0 with NEG. -/
def guardOk (g : Guard) : Bool := !(g.pred == 0 && g.neg)

/-- The command of thread `t` that the opcode and operands of a word spell, whether or not R321 allows it. -/
def gtcRaw (t w : Nat) : Option Instr :=
  let g := gtcGuard w
  match (w / 2 ^ 21) % 64 with
  | 0x01 => some (.alu0 t g (fmtR w))
  | 0x02 => some (.alu1 t g (fmtR w))
  | 0x03 => some (.alu2 t g (fmtR w))
  | 0x04 => some (.addi t g (fmtI w))
  | 0x05 => some (.andi t g (fmtI w))
  | 0x06 => some (.ori t g (fmtI w))
  | 0x07 => some (.xori t g (fmtI w))
  | 0x08 => some (.shifti t g (fmtI w))
  | 0x09 => some (.movi t g (fmtU w))
  | 0x0A => some (.lit t g (fmtU w))
  | 0x0B => some (.cmp t g (fmtR w))
  | 0x0C => some (.plog t g (fmtR w))
  | 0x0D => some (.srd t g (fmtI w))
  | 0x0E => some (.swr t g (fmtI w))
  | 0x0F => some (.draw t g (fmtR w))
  | 0x10 => some (.fp32 t g (fmtR w))
  | 0x11 => some (.fp64 t g (fmtR w))
  | 0x12 => some (.fcmp t g (fmtR w))
  | 0x13 => some (.fcvt t g (fmtC w))
  | 0x14 => some (.ldu8 t g (fmtI w))
  | 0x15 => some (.lds8 t g (fmtI w))
  | 0x16 => some (.ldu16 t g (fmtI w))
  | 0x17 => some (.lds16 t g (fmtI w))
  | 0x18 => some (.ldu32 t g (fmtI w))
  | 0x19 => some (.lds32 t g (fmtI w))
  | 0x1A => some (.ld64 t g (fmtI w))
  | 0x1B => some (.st8 t g (fmtI w))
  | 0x1C => some (.st16 t g (fmtI w))
  | 0x1D => some (.st32 t g (fmtI w))
  | 0x1E => some (.st64 t g (fmtI w))
  | 0x1F => some (.vld t g (fmtI w))
  | 0x20 => some (.vst t g (fmtI w))
  | 0x21 => some (.atom t g (fmtA w))
  | 0x22 => some (.fatom t g (fmtA w))
  | 0x23 => some (.xadd t g (fmtX w))
  | 0x24 => some (.fence t g (fmtS w))
  | 0x25 => some (.wait t g (fmtR w))
  | 0x26 => some (.bar t g)
  | 0x28 => some (.varith t g (fmtV w))
  | 0x29 => some (.vlogic t g (fmtV w))
  | 0x2A => some (.vcmp t g (fmtV w))
  | 0x2B => some (.vred t g (fmtV w))
  | 0x2C => some (.vcvt t g (fmtC w))
  | 0x2D => some (.vmove t g (fmtR w))
  | 0x30 => some (.tzero t g (fmtT w))
  | 0x31 => some (.tload t g (fmtT w))
  | 0x32 => some (.tstore t g (fmtT w))
  | 0x33 => some (.tmma t g (fmtT w))
  | 0x38 => some (.br t g (fmtB w))
  | 0x39 => some (.call t g (fmtB w))
  | 0x3A => some (.jr t g (fmtR w))
  | 0x3B => some (.done t g (fmtR w))
  | 0x3C => some (.halt t g)
  | 0x3F => some (.nop t g)
  | _ => none

/-- The GTC command of thread `t` that a word spells: none where the word is no valid encoding (R321). Reserved bits that
are set make the word differ from the one its fields spell. -/
def gtcDecode (t w : Nat) : Option Instr :=
  match gtcRaw t w with
  | some i => if w < 2 ^ 32 ∧ gtcEncode i = some w ∧ gtcOperandsOk i ∧ guardOk (gtcGuard w) then some i else none
  | none => none

/-- Whether a word is a valid encoding (R321). -/
def gtcValid (w : Nat) : Bool := (gtcDecode 0 w).isSome

end Sys2Proof
end

