-- ==== Sys2Proof/Machine/Bits.lean ====
section
/-! DEFINITION. Bit ranges, byte order and small list helpers. -/

namespace Sys2Proof.Machine

/-- Bits [hi:lo] of a number (spec 00: x[h:l]). -/
def bits (x hi lo : Nat) : Nat := (x >>> lo) % 2 ^ (hi + 1 - lo)

/-- Bit `i` of a number. -/
def bit (x i : Nat) : Bool := x.testBit i

/-- A Bool as the bit it is. -/
def b2n (b : Bool) : Nat := if b then 1 else 0

/-- Bits [hi:lo] of a register. -/
def getBits (w : Word) (hi lo : Nat) : Nat := bits w.toNat hi lo

/-- A register with bits [hi:lo] set to the low bits of `v`. -/
def setBits (w : Word) (hi lo v : Nat) : Word :=
  let m := 2 ^ (hi + 1 - lo)
  BitVec.ofNat 64 (w.toNat - (bits w.toNat hi lo) * 2 ^ lo + (v % m) * 2 ^ lo)

/-- `n` little-endian bytes of `v` (R10). -/
def le : Nat → Nat → Bytes
  | 0, _ => []
  | n + 1, v => BitVec.ofNat 8 v :: le n (v / 256)

/-- The number that little-endian bytes hold (R10). -/
def unle : Bytes → Nat
  | [] => 0
  | b :: r => b.toNat + 256 * unle r

/-- `n` big-endian bytes of `v`. -/
def be (n v : Nat) : Bytes := (le n v).reverse

/-- The number that big-endian bytes hold. -/
def unbe (b : Bytes) : Nat := unle b.reverse

/-- `n` bytes of `b` from offset `o`, zeros past its end. -/
def slice (b : Bytes) (o n : Nat) : Bytes :=
  let r := (b.drop o).take n
  r ++ List.replicate (n - r.length) 0

/-- The little-endian field of `n` bytes at offset `o`. -/
def fld (b : Bytes) (o n : Nat) : Nat := unle (slice b o n)

/-- Zeros appended up to a multiple of `m` bytes. -/
def padTo (m : Nat) (b : Bytes) : Bytes :=
  if m = 0 then b else b ++ List.replicate ((m - b.length % m) % m) 0

/-- Whether every byte is 0. -/
def allZero (b : Bytes) : Bool := b.all (· == 0)

/-- `a` rounded up to a multiple of `m`. -/
def alignUp (m a : Nat) : Nat := if m = 0 then a else (a + m - 1) / m * m

/-- Ceiling division. -/
def cdiv (a b : Nat) : Nat := if b = 0 then 0 else (a + b - 1) / b

/-- The two's-complement reading of the low `w` bits. -/
def sext (w v : Nat) : Int :=
  let x := v % 2 ^ w
  if x < 2 ^ (w - 1) then (x : Int) else (x : Int) - (2 ^ w : Nat)

/-- The low `w` bits of an integer in two's complement. -/
def wrap (w : Nat) (v : Int) : Nat := (v % ((2 ^ w : Nat) : Int)).toNat

/-- The position of the highest 1 bit plus one; 0 for 0. -/
def bitLen (n : Nat) : Nat := if n = 0 then 0 else Nat.log2 n + 1

/-- The number of 1 bits among the low `w`. -/
def popCount : Nat → Nat → Nat
  | 0, _ => 0
  | w + 1, v => v % 2 + popCount w (v / 2)

/-- `l` with its element `i`, where there is one, replaced by `f` of it. -/
def modNth {α : Type} : List α → Nat → (α → α) → List α
  | [], _, _ => []
  | a :: r, 0, f => f a :: r
  | a :: r, i + 1, f => a :: modNth r i f

/-- `l` with its element `i`, where there is one, set to `v`. -/
def setNth {α : Type} (l : List α) (i : Nat) (v : α) : List α := modNth l i (fun _ => v)

/-- The least number below `n` from `i` that `p` accepts. -/
def findNat (p : Nat → Bool) : Nat → Nat → Option Nat
  | 0, _ => none
  | n + 1, i => if p i then some i else findNat p n (i + 1)

/-- A list cut into pieces of `m` elements, the last one perhaps shorter; `fuel` bounds the pieces. -/
def chunksAux {α : Type} (m : Nat) : Nat → List α → List (List α)
  | 0, _ => []
  | fuel + 1, l => if l.isEmpty then [] else l.take m :: chunksAux m fuel (l.drop m)

/-- A list cut into pieces of `m` elements. -/
def chunks {α : Type} (m : Nat) (l : List α) : List (List α) :=
  if m = 0 then [] else chunksAux m (l.length / m + 1) l

/-- The bit of a bitmap held as bytes: bit i is bit i mod 8 of byte i div 8. -/
def bmBit (b : Bytes) (i : Nat) : Bool := (b.getD (i / 8) 0).toNat.testBit (i % 8)

end Sys2Proof.Machine
end

