-- ==== Sys2Proof/Machine/Crypto.lean ====
section
/-! DEFINITION. The published functions the manual names: CRC-32C (R145), SHA-512 (FIPS 180-4),
Ed25519 (RFC 8032, R512) and the ChaCha20 block function (RFC 8439, R117). The manual gives their
names and uses; their steps are taken from the published standards (PRESUMED, log entry 4). -/

namespace Sys2Proof.Machine

/-! ## CRC-32C -/

/-- One bit of the reflected CRC with polynomial 0x1EDC6F41 (reflected 0x82F63B78). -/
def crcBits : Nat → Nat → Nat
  | 0, c => c
  | n + 1, c => crcBits n (if c % 2 = 1 then (c / 2) ^^^ 0x82F63B78 else c / 2)

/-- CRC-32C over bytes from register `c`. -/
def crcFeed (c : Nat) (b : Bytes) : Nat :=
  b.foldl (fun c x => crcBits 8 (c ^^^ x.toNat)) c

/-- CRC-32C of a byte string: initial value and final inversion 0xFFFF_FFFF (R145). -/
def crc32c (b : Bytes) : Nat := crcFeed 0xFFFFFFFF b ^^^ 0xFFFFFFFF

/-! ## SHA-512 -/

def sha512K : List (BitVec 64) := [
  0x428a2f98d728ae22, 0x7137449123ef65cd, 0xb5c0fbcfec4d3b2f, 0xe9b5dba58189dbbc, 0x3956c25bf348b538,
  0x59f111f1b605d019, 0x923f82a4af194f9b, 0xab1c5ed5da6d8118, 0xd807aa98a3030242, 0x12835b0145706fbe,
  0x243185be4ee4b28c, 0x550c7dc3d5ffb4e2, 0x72be5d74f27b896f, 0x80deb1fe3b1696b1, 0x9bdc06a725c71235,
  0xc19bf174cf692694, 0xe49b69c19ef14ad2, 0xefbe4786384f25e3, 0x0fc19dc68b8cd5b5, 0x240ca1cc77ac9c65] ++ [
  0x2de92c6f592b0275, 0x4a7484aa6ea6e483, 0x5cb0a9dcbd41fbd4, 0x76f988da831153b5, 0x983e5152ee66dfab,
  0xa831c66d2db43210, 0xb00327c898fb213f, 0xbf597fc7beef0ee4, 0xc6e00bf33da88fc2, 0xd5a79147930aa725,
  0x06ca6351e003826f, 0x142929670a0e6e70, 0x27b70a8546d22ffc, 0x2e1b21385c26c926, 0x4d2c6dfc5ac42aed,
  0x53380d139d95b3df, 0x650a73548baf63de, 0x766a0abb3c77b2a8, 0x81c2c92e47edaee6, 0x92722c851482353b] ++ [
  0xa2bfe8a14cf10364, 0xa81a664bbc423001, 0xc24b8b70d0f89791, 0xc76c51a30654be30, 0xd192e819d6ef5218,
  0xd69906245565a910, 0xf40e35855771202a, 0x106aa07032bbd1b8, 0x19a4c116b8d2d0c8, 0x1e376c085141ab53,
  0x2748774cdf8eeb99, 0x34b0bcb5e19b48a8, 0x391c0cb3c5c95a63, 0x4ed8aa4ae3418acb, 0x5b9cca4f7763e373,
  0x682e6ff3d6b2b8a3, 0x748f82ee5defb2fc, 0x78a5636f43172f60, 0x84c87814a1f0ab72, 0x8cc702081a6439ec] ++ [
  0x90befffa23631e28, 0xa4506cebde82bde9, 0xbef9a3f7b2c67915, 0xc67178f2e372532b, 0xca273eceea26619c,
  0xd186b8c721c0c207, 0xeada7dd6cde0eb1e, 0xf57d4f7fee6ed178, 0x06f067aa72176fba, 0x0a637dc5a2c898a6,
  0x113f9804bef90dae, 0x1b710b35131c471b, 0x28db77f523047d84, 0x32caab7b40c72493, 0x3c9ebe0a15c9bebc,
  0x431d67c49c100d4c, 0x4cc5d4becb3e42b6, 0x597f299cfc657e2a, 0x5fcb6fab3ad6faec, 0x6c44198c4a475817]

def sha512H0 : List (BitVec 64) :=
  [0x6a09e667f3bcc908, 0xbb67ae8584caa73b, 0x3c6ef372fe94f82b, 0xa54ff53a5f1d36f1,
   0x510e527fade682d1, 0x9b05688c2b3e6c1f, 0x1f83d9abfb41bd6b, 0x5be0cd19137e2179]

/-- Message schedule: `l` holds the last 16 words, newest first; `n` more are made, all collected newest first. -/
def shaSched : Nat → List (BitVec 64) → List (BitVec 64)
  | 0, l => l
  | n + 1, l =>
    let w2 := l.getD 1 0; let w7 := l.getD 6 0; let w15 := l.getD 14 0; let w16 := l.getD 15 0
    let s0 := w15.rotateRight 1 ^^^ w15.rotateRight 8 ^^^ (w15 >>> 7)
    let s1 := w2.rotateRight 19 ^^^ w2.rotateRight 61 ^^^ (w2 >>> 6)
    shaSched n ((w16 + s0 + w7 + s1) :: l)

structure ShaV where
  a : BitVec 64
  b : BitVec 64
  c : BitVec 64
  d : BitVec 64
  e : BitVec 64
  f : BitVec 64
  g : BitVec 64
  h : BitVec 64

def shaRound (v : ShaV) (kw : BitVec 64 × BitVec 64) : ShaV :=
  let s1 := v.e.rotateRight 14 ^^^ v.e.rotateRight 18 ^^^ v.e.rotateRight 41
  let ch := (v.e &&& v.f) ^^^ (~~~v.e &&& v.g)
  let t1 := v.h + s1 + ch + kw.1 + kw.2
  let s0 := v.a.rotateRight 28 ^^^ v.a.rotateRight 34 ^^^ v.a.rotateRight 39
  let mj := (v.a &&& v.b) ^^^ (v.a &&& v.c) ^^^ (v.b &&& v.c)
  ⟨t1 + s0 + mj, v.a, v.b, v.c, v.d + t1, v.e, v.f, v.g⟩

def shaBlock (h : List (BitVec 64)) (blk : Bytes) : List (BitVec 64) :=
  let ws := (chunks 8 blk).map (fun c => BitVec.ofNat 64 (unbe c))
  let w := (shaSched 64 ws.reverse).reverse
  let g := fun i => h.getD i 0
  let v := (sha512K.zip w).foldl shaRound ⟨g 0, g 1, g 2, g 3, g 4, g 5, g 6, g 7⟩
  [g 0 + v.a, g 1 + v.b, g 2 + v.c, g 3 + v.d, g 4 + v.e, g 5 + v.f, g 6 + v.g, g 7 + v.h]

/-- SHA-512 (FIPS 180-4) of a byte string. -/
def sha512 (m : Bytes) : Bytes :=
  let z := (112 + 128 - (m.length + 1) % 128) % 128
  let p := m ++ [0x80] ++ List.replicate z 0 ++ be 16 (8 * m.length)
  ((chunks 128 p).foldl shaBlock sha512H0).flatMap (fun w => be 8 w.toNat)

/-! ## Ed25519 -/

def edP : Nat := 2 ^ 255 - 19
def edL : Nat := 2 ^ 252 + 27742317777372353535851937790883648493
def edD : Nat := 37095705934669439343138083508754565189542113879843219016388785533085940283555

/-- b ^ e mod p by squaring, over the low `n` bits of e. -/
def powModAux (p : Nat) : Nat → Nat → Nat → Nat → Nat
  | 0, _, _, r => r
  | n + 1, b, e, r => powModAux p n (b * b % p) (e / 2) (if e % 2 = 1 then r * b % p else r)
def powMod (p b e : Nat) : Nat := powModAux p (bitLen e) (b % p) e (1 % p)

/-- A point in extended coordinates (X, Y, Z, T). -/
structure EdPt where
  x : Nat
  y : Nat
  z : Nat
  t : Nat

def edAdd (p q : EdPt) : EdPt :=
  let a := (p.y + edP - p.x) * (q.y + edP - q.x) % edP
  let b := (p.y + p.x) * (q.y + q.x) % edP
  let c := 2 * p.t * q.t * edD % edP
  let d := 2 * p.z * q.z % edP
  let e := (b + edP - a) % edP
  let f := (d + edP - c) % edP
  let g := (d + c) % edP
  let h := (b + a) % edP
  ⟨e * f % edP, g * h % edP, f * g % edP, e * h % edP⟩

def edZero : EdPt := ⟨0, 1, 1, 0⟩

def edMulAux : Nat → Nat → EdPt → EdPt → EdPt
  | 0, _, _, r => r
  | n + 1, s, p, r => edMulAux n (s / 2) (edAdd p p) (if s % 2 = 1 then edAdd r p else r)
def edMul (s : Nat) (p : EdPt) : EdPt := edMulAux (bitLen s) s p edZero

def edBase : EdPt :=
  let x := 15112221349535400772501151409588531511454012693041857206046113283949847762202
  let y := 46316835694926478169428394003475163141307993866256225615783033603165251855960
  ⟨x, y, 1, x * y % edP⟩

def edEnc (p : EdPt) : Bytes :=
  let zi := powMod edP p.z (edP - 2)
  let x := p.x * zi % edP
  let y := p.y * zi % edP
  le 32 (y + (x % 2) * 2 ^ 255)

/-- Decoding of a point (RFC 8032 section 5.1.3): none where no point has the encoding. -/
def edDec (b : Bytes) : Option EdPt :=
  if b.length ≠ 32 then none else
  let v := unle b
  let y := v % 2 ^ 255
  let sg := v / 2 ^ 255
  if y ≥ edP then none else
  let y2 := y * y % edP
  let u := (y2 + edP - 1) % edP
  let w := (edD * y2 + 1) % edP
  let w3 := w * w % edP * w % edP
  let w7 := w3 * w3 % edP * w % edP
  let x := u * w3 % edP * powMod edP (u * w7 % edP) ((edP - 5) / 8) % edP
  let vx := w * x % edP * x % edP
  let root : Option Nat :=
    if vx = u then some x
    else if vx = (edP - u) % edP then some (x * powMod edP 2 ((edP - 1) / 4) % edP)
    else none
  match root with
  | none => none
  | some x =>
    if x = 0 ∧ sg = 1 then none else
    let x := if x % 2 = sg then x else edP - x
    some ⟨x, y, 1, x * y % edP⟩

def edEq (p q : EdPt) : Bool :=
  (p.x * q.z % edP == q.x * p.z % edP) && (p.y * q.z % edP == q.y * p.z % edP)

def edScalar (seed : Bytes) : Nat :=
  let h := unle ((sha512 seed).take 32)
  h % 2 ^ 254 / 8 * 8 + 2 ^ 254

/-- The public key of a 32-byte seed (RFC 8032 section 5.1.5). -/
def edPublic (seed : Bytes) : Bytes := edEnc (edMul (edScalar seed) edBase)

/-- Ed25519 signature (RFC 8032 section 5.1.6; R512). -/
def edSign (seed msg : Bytes) : Bytes :=
  let a := edScalar seed
  let pk := edEnc (edMul a edBase)
  let r := unle (sha512 ((sha512 seed).drop 32 ++ msg)) % edL
  let rb := edEnc (edMul r edBase)
  let k := unle (sha512 (rb ++ pk ++ msg)) % edL
  rb ++ le 32 ((r + k * a) % edL)

/-- Ed25519 verification (RFC 8032 section 5.1.7; R512): fails if R or the key does not decode or S is
not below the group order. -/
def edVerify (pk msg sig : Bytes) : Bool :=
  if sig.length ≠ 64 then false else
  let s := unle (sig.drop 32)
  if s ≥ edL then false else
  match edDec pk, edDec (sig.take 32) with
  | some a, some r =>
    let k := unle (sha512 (sig.take 32 ++ pk ++ msg)) % edL
    let dbl3 := fun p => edAdd (edAdd (edAdd p p) (edAdd p p)) (edAdd (edAdd p p) (edAdd p p))
    edEq (dbl3 (edMul s edBase)) (dbl3 (edAdd r (edMul k a)))
  | _, _ => false

/-- The key ID of a public key (R512): the first 8 bytes of its SHA-512, little-endian. -/
def keyId (pk : Bytes) : Nat := unle ((sha512 pk).take 8)

/-! ## ChaCha20 -/

def chaQ (s : List (BitVec 32)) (i : Nat × Nat × Nat × Nat) : List (BitVec 32) :=
  let (ia, ib, ic, id) := i
  let a := s.getD ia 0; let b := s.getD ib 0; let c := s.getD ic 0; let d := s.getD id 0
  let a := a + b; let d := (d ^^^ a).rotateLeft 16
  let c := c + d; let b := (b ^^^ c).rotateLeft 12
  let a := a + b; let d := (d ^^^ a).rotateLeft 8
  let c := c + d; let b := (b ^^^ c).rotateLeft 7
  setNth (setNth (setNth (setNth s ia a) ib b) ic c) id d

def chaRounds : Nat → List (BitVec 32) → List (BitVec 32)
  | 0, s => s
  | n + 1, s => chaRounds n ([(0, 4, 8, 12), (1, 5, 9, 13), (2, 6, 10, 14), (3, 7, 11, 15),
      (0, 5, 10, 15), (1, 6, 11, 12), (2, 7, 8, 13), (3, 4, 9, 14)].foldl chaQ s)

/-- The ChaCha20 block function (RFC 8439 section 2.3): sixteen words out of sixteen words in. -/
def chachaBlock (s : List (BitVec 32)) : List (BitVec 32) :=
  (s.zip (chaRounds 10 s)).map (fun p => p.1 + p.2)

/-- The four constant words of ChaCha20. -/
def chachaConst : List (BitVec 32) := [0x61707865, 0x3320646e, 0x79622d32, 0x6b206574]

end Sys2Proof.Machine
end

