-- ==== Sys2Proof/Config.lean ====
section
/-! DEFINITION. What an implementation fixes and the manual leaves open: opaque constants, so that a
statement about one of them holds whatever its value is. -/

namespace Sys2Proof.Config

/-- The time servo's filtered delay after a new exchange (R446 says "filters", and not how). -/
opaque filterDelay : Int → Int → Int
/-- The filtered offset of TIM_STATUS.OFFSET after a new offset (R446, R466). -/
opaque filterOffset : Int → Int → Int
/-- The servo's correction of the rate, in 2^-48 ns per cycle, after a new offset (R441, R448). -/
opaque servoRate : Int → Int → Int
/-- The servo's correction of the root's rate at a 1PPS edge (R451). -/
opaque ppsRate : Int → Int → Int
/-- A value the manual leaves open, the n-th one drawn. -/
opaque freeWord : Nat → Word
/-- A byte string the manual leaves open, the n-th one drawn, of the asked length. -/
opaque freeBytes : Nat → Nat → Bytes

/-! ## Video bitstreams

R228 to R230 name the codecs by the standards that define them (ITU-T H.264 and H.265, the AV1 specification) and do
not describe how a bitstream decodes. What a bitstream holds is therefore left open here; what the GL9 makes of it
(limits, cropping, colour fields, selection, units, contexts) is modelled. -/

/-- An output picture of a bitstream after cropping: its size, its depth of 10 bits or 8, whether it is luma only, its
matrix coefficients and range flag where the bitstream gives them, its chroma location, and the values of its planes. -/
structure VidPic where
  width : Nat
  height : Nat
  ten : Bool
  mono : Bool
  matrix : Option Nat
  full : Option Bool
  loc : Nat
  planes : List (List Nat)
  deriving DecidableEq, Repr, Inhabited

/-- What a bitstream gives for its next picture in decode order. -/
inductive VidStep where
  /-- Outside the subset of R228. -/
  | outside
  /-- A picture: its coded luma size, the bytes of state after it, whether it decodes without an error, and the
  pictures that become due for output with it, in display order. -/
  | picture (codedW codedH state : Nat) (sound : Bool) (out : List VidPic)
  /-- The end of the bitstream, reached without an error or not. -/
  | ended (sound : Bool)
  deriving DecidableEq, Repr, Inhabited

/-- Whether a bitstream of a codec begins with a random access point (R227). -/
opaque vidStart : Nat → Bytes → Bool
/-- Codec, grain synthesis, restored state, bitstream and number of pictures decoded before. -/
opaque vidStep : Nat → Bool → Bytes → Bytes → Nat → VidStep
/-- The decoder state at the end of a bitstream, as a context keeps it (R231). -/
opaque vidContext : Nat → Bool → Bytes → Bytes → Bytes

end Sys2Proof.Config
end

