-- ==== Sys2Proof/Machine/Map.lean ====
section
/-! DEFINITION. Sparse maps as plain data: lists of (key, value) pairs with strictly rising keys and no
entry equal to the value an unlisted key reads as, so that equal maps are equal lists. -/

namespace Sys2Proof.Machine

/-- The entry at `k`, or none. -/
def Map.find {α : Type} : List (Nat × α) → Nat → Option α
  | [], _ => none
  | (j, v) :: r, k => if j = k then some v else Map.find r k

/-- The value at `k`, an unlisted key reading `d`. -/
def Map.get {α : Type} (d : α) (m : List (Nat × α)) (k : Nat) : α :=
  (Map.find m k).getD d

/-- `m` without an entry at `k`. -/
def Map.erase {α : Type} : List (Nat × α) → Nat → List (Nat × α)
  | [], _ => []
  | (j, v) :: r, k => if j = k then Map.erase r k else (j, v) :: Map.erase r k

/-- `m` with the entry (k, v), in the place its key has. -/
def Map.insert {α : Type} : List (Nat × α) → Nat → α → List (Nat × α)
  | [], k, v => [(k, v)]
  | (j, w) :: r, k, v =>
    if k < j then (k, v) :: (j, w) :: r
    else if k = j then (k, v) :: r
    else (j, w) :: Map.insert r k v

/-- `m` with the value at `k` set to `v`; writing the value an unlisted key reads as removes the entry. -/
def Map.put {α : Type} [DecidableEq α] (d : α) (m : List (Nat × α)) (k : Nat) (v : α) : List (Nat × α) :=
  if v = d then Map.erase m k else Map.insert m k v

/-- `m` with the value at `k` replaced by `f` of it. -/
def Map.upd {α : Type} [DecidableEq α] (d : α) (m : List (Nat × α)) (k : Nat) (f : α → α) : List (Nat × α) :=
  Map.put d m k (f (Map.get d m k))

/-- `m` with the entry at `k`, where there is one, replaced by `f` of it. -/
def Map.mod {α : Type} : List (Nat × α) → Nat → (α → α) → List (Nat × α)
  | [], _, _ => []
  | (j, v) :: r, k, f => if j = k then (j, f v) :: r else (j, v) :: Map.mod r k f

/-- The first of `n` keys from `i` that `m` does not list. -/
def Map.fresh {α : Type} (m : List (Nat × α)) : Nat → Nat → Nat
  | 0, i => i
  | n + 1, i => if (Map.find m i).isSome then Map.fresh m n (i + 1) else i

/-- Keys rise strictly and no value is the default. -/
def Map.wf {α : Type} [DecidableEq α] (d : α) : List (Nat × α) → Bool
  | [] => true
  | [(_, v)] => decide (v ≠ d)
  | (j, v) :: (k, w) :: r => decide (j < k) && decide (v ≠ d) && Map.wf d ((k, w) :: r)

end Sys2Proof.Machine
end

