-- ==== Sys2Proof/Machine/RegTypes.lean ====
section
/-! DEFINITION. How the register tables are written down. -/

namespace Sys2Proof.Machine

/-! ## Register descriptions (R11) -/

/-- Register access types (R11); a reserved field is simply not listed. -/
inductive Acc where
  | ro | rw | wo | w1c | w1s
  deriving DecidableEq, Repr

/-- One field of a register table. -/
structure FSpec where
  hi : Nat
  lo : Nat
  acc : Acc
  rst : Nat
  deriving DecidableEq, Repr

/-- When the registers of a table row are implemented (R224, R251, R270, R318, R375). -/
inductive Cond where
  | always | rcx | vde | jpg | bpe | mask | detok | thrCore | port | gfPort
  deriving DecidableEq, Repr

/-- One row of a block's register table: offset in the block, two counts and strides, condition, fields. -/
structure RegSpec where
  base : Nat
  n1 : Nat
  s1 : Nat
  n2 : Nat
  s2 : Nat
  cond : Cond
  fields : List FSpec
  deriving DecidableEq, Repr

/-- A field of a register: the register's offset and the bit range. -/
structure FRef where
  off : Nat
  hi : Nat
  lo : Nat
  deriving DecidableEq, Repr

end Sys2Proof.Machine
end

