-- ==== Sys2Proof/Machine/Regs.lean ====
section
/-! DEFINITION. The registers of device control space: the offset of every register, the place of every
field, and per block the table of access types and reset values (R11; the tables of every chapter).
Offsets count from local address 0x0_8000_0000_0000 (R23). Names are the spec's. A field whose reset
value the spec gives as "boot" stands at 0 here; State.reset holds what boot firmware loaded. -/

namespace Sys2Proof.Machine

namespace R

/-- GLB_ID (R9). -/
def GLB_ID : Nat := 0x0
def GLB_ID_PART_CODE : FRef := ⟨GLB_ID, 47, 32⟩
def GLB_ID_STEP_MAJOR : FRef := ⟨GLB_ID, 31, 24⟩
def GLB_ID_STEP_MINOR : FRef := ⟨GLB_ID, 23, 16⟩
def GLB_ID_GRADE : FRef := ⟨GLB_ID, 3, 0⟩
/-- GLB_UNITS (R9). -/
def GLB_UNITS : Nat := 0x8
def GLB_UNITS_THR_CORES : FRef := ⟨GLB_UNITS, 52, 42⟩
def GLB_UNITS_VDE : FRef := ⟨GLB_UNITS, 41, 36⟩
def GLB_UNITS_JPG : FRef := ⟨GLB_UNITS, 35, 29⟩
def GLB_UNITS_RCX : FRef := ⟨GLB_UNITS, 28, 24⟩
def GLB_UNITS_BPE_LANES : FRef := ⟨GLB_UNITS, 23, 17⟩
def GLB_UNITS_MASK_UNITS : FRef := ⟨GLB_UNITS, 16, 11⟩
def GLB_UNITS_DETOK : FRef := ⟨GLB_UNITS, 10, 4⟩
/-- SEQ_IMG_SRC (R73). -/
def SEQ_IMG_SRC : Nat := 0x1001000
def SEQ_IMG_SRC_SRC : FRef := ⟨SEQ_IMG_SRC, 63, 12⟩
/-- SEQ_IMG_LEN (R73). -/
def SEQ_IMG_LEN : Nat := 0x1001008
/-- SEQ_IMG_CTRL (R73). -/
def SEQ_IMG_CTRL : Nat := 0x1001010
def SEQ_IMG_CTRL_ABORT : FRef := ⟨SEQ_IMG_CTRL, 9, 9⟩
def SEQ_IMG_CTRL_GO : FRef := ⟨SEQ_IMG_CTRL, 8, 8⟩
def SEQ_IMG_CTRL_FUNCTION : FRef := ⟨SEQ_IMG_CTRL, 7, 4⟩
def SEQ_IMG_CTRL_OP : FRef := ⟨SEQ_IMG_CTRL, 2, 0⟩
/-- SEQ_IMG_STATUS (R73). -/
def SEQ_IMG_STATUS : Nat := 0x1001018
def SEQ_IMG_STATUS_STATUS : FRef := ⟨SEQ_IMG_STATUS, 63, 48⟩
def SEQ_IMG_STATUS_STAGE : FRef := ⟨SEQ_IMG_STATUS, 47, 40⟩
def SEQ_IMG_STATUS_SECTION : FRef := ⟨SEQ_IMG_STATUS, 39, 32⟩
def SEQ_IMG_STATUS_REJECT_STATUS : FRef := ⟨SEQ_IMG_STATUS, 31, 16⟩
def SEQ_IMG_STATUS_GO_REJECTED : FRef := ⟨SEQ_IMG_STATUS, 4, 4⟩
def SEQ_IMG_STATUS_DEVICE_LOADED : FRef := ⟨SEQ_IMG_STATUS, 3, 3⟩
def SEQ_IMG_STATUS_PENDING : FRef := ⟨SEQ_IMG_STATUS, 2, 2⟩
def SEQ_IMG_STATUS_BUSY : FRef := ⟨SEQ_IMG_STATUS, 1, 1⟩
def SEQ_IMG_STATUS_DONE : FRef := ⟨SEQ_IMG_STATUS, 0, 0⟩
/-- SEQ_IMG_PROGRESS (R73). -/
def SEQ_IMG_PROGRESS : Nat := 0x1001020
/-- SEQ_FN_IMAGE (R73). -/
def SEQ_FN_IMAGE (i : Nat) : Nat := 0x1001100 + 0x8 * i
/-- SEQ_STEEP_LEN (R82). -/
def SEQ_STEEP_LEN : Nat := 0x1000000
def SEQ_STEEP_LEN_STEEP_NS : FRef := ⟨SEQ_STEEP_LEN, 23, 0⟩
/-- SEQ_LAUNCH_FT (R82). -/
def SEQ_LAUNCH_FT : Nat := 0x1000008
/-- SEQ_TICK_CTRL (R82). -/
def SEQ_TICK_CTRL : Nat := 0x1000010
def SEQ_TICK_CTRL_BARRIER : FRef := ⟨SEQ_TICK_CTRL, 15, 8⟩
def SEQ_TICK_CTRL_SRC : FRef := ⟨SEQ_TICK_CTRL, 2, 2⟩
def SEQ_TICK_CTRL_RUNNING : FRef := ⟨SEQ_TICK_CTRL, 1, 1⟩
def SEQ_TICK_CTRL_ARM : FRef := ⟨SEQ_TICK_CTRL, 0, 0⟩
/-- SEQ_TICK (R82). -/
def SEQ_TICK : Nat := 0x1000018
/-- SEQ_FN_CTRL (R101). -/
def SEQ_FN_CTRL (i : Nat) : Nat := 0x1002000 + 0x100 * i
def SEQ_FN_CTRL_KILL (i : Nat) : FRef := ⟨SEQ_FN_CTRL i, 9, 9⟩
def SEQ_FN_CTRL_GO (i : Nat) : FRef := ⟨SEQ_FN_CTRL i, 8, 8⟩
def SEQ_FN_CTRL_CMD (i : Nat) : FRef := ⟨SEQ_FN_CTRL i, 1, 0⟩
/-- SEQ_FN_START_AT (R101). -/
def SEQ_FN_START_AT (i : Nat) : Nat := 0x1002008 + 0x100 * i
/-- SEQ_FN_FROM (R101). -/
def SEQ_FN_FROM (i : Nat) : Nat := 0x1002010 + 0x100 * i
def SEQ_FN_FROM_USE (i : Nat) : FRef := ⟨SEQ_FN_FROM i, 63, 63⟩
def SEQ_FN_FROM_RECORD (i : Nat) : FRef := ⟨SEQ_FN_FROM i, 47, 0⟩
/-- SEQ_FN_STATUS (R101). -/
def SEQ_FN_STATUS (i : Nat) : Nat := 0x1002018 + 0x100 * i
def SEQ_FN_STATUS_STATUS (i : Nat) : FRef := ⟨SEQ_FN_STATUS i, 63, 48⟩
def SEQ_FN_STATUS_STATE (i : Nat) : FRef := ⟨SEQ_FN_STATUS i, 42, 40⟩
def SEQ_FN_STATUS_PLAN_END (i : Nat) : FRef := ⟨SEQ_FN_STATUS i, 6, 6⟩
def SEQ_FN_STATUS_MEMB_STAGED (i : Nat) : FRef := ⟨SEQ_FN_STATUS i, 5, 5⟩
def SEQ_FN_STATUS_STALLED (i : Nat) : FRef := ⟨SEQ_FN_STATUS i, 4, 4⟩
def SEQ_FN_STATUS_SCHED_LOST (i : Nat) : FRef := ⟨SEQ_FN_STATUS i, 3, 3⟩
def SEQ_FN_STATUS_CATCHUP (i : Nat) : FRef := ⟨SEQ_FN_STATUS i, 2, 2⟩
def SEQ_FN_STATUS_DONE (i : Nat) : FRef := ⟨SEQ_FN_STATUS i, 0, 0⟩
/-- SEQ_FN_STEEP (R101). -/
def SEQ_FN_STEEP (i : Nat) : Nat := 0x1002020 + 0x100 * i
/-- SEQ_FN_RECORD (R101). -/
def SEQ_FN_RECORD (i : Nat) : Nat := 0x1002028 + 0x100 * i
def SEQ_FN_RECORD_RECORD (i : Nat) : FRef := ⟨SEQ_FN_RECORD i, 47, 0⟩
/-- SEQ_FN_LAG (R101). -/
def SEQ_FN_LAG (i : Nat) : Nat := 0x1002030 + 0x100 * i
/-- SEQ_FN_LAG_MAX (R101). -/
def SEQ_FN_LAG_MAX (i : Nat) : Nat := 0x1002038 + 0x100 * i
/-- SEQ_FN_ANCHOR_TICK (R101). -/
def SEQ_FN_ANCHOR_TICK (i : Nat) : Nat := 0x1002040 + 0x100 * i
/-- SEQ_FN_ANCHOR_STEEP (R101). -/
def SEQ_FN_ANCHOR_STEEP (i : Nat) : Nat := 0x1002048 + 0x100 * i
/-- SEQ_FN_COUNTS (R101). -/
def SEQ_FN_COUNTS (i : Nat) : Nat := 0x1002050 + 0x100 * i
def SEQ_FN_COUNTS_OVERRUNS (i : Nat) : FRef := ⟨SEQ_FN_COUNTS i, 63, 32⟩
def SEQ_FN_COUNTS_SCHED_LOST (i : Nat) : FRef := ⟨SEQ_FN_COUNTS i, 31, 16⟩
def SEQ_FN_COUNTS_QUIESCE_MISS (i : Nat) : FRef := ⟨SEQ_FN_COUNTS i, 15, 0⟩
/-- SEQ_FN_MEMB_EPOCH (R108). -/
def SEQ_FN_MEMB_EPOCH (i : Nat) : Nat := 0x1002060 + 0x100 * i
def SEQ_FN_MEMB_EPOCH_EPOCH (i : Nat) : FRef := ⟨SEQ_FN_MEMB_EPOCH i, 31, 0⟩
/-- SEQ_FN_MEMB_STEEP (R108). -/
def SEQ_FN_MEMB_STEEP (i : Nat) : Nat := 0x1002068 + 0x100 * i
/-- SEQ_FN_MEMB_TABLE (R108). -/
def SEQ_FN_MEMB_TABLE (i : Nat) : Nat := 0x1002070 + 0x100 * i
def SEQ_FN_MEMB_TABLE_ADDR (i : Nat) : FRef := ⟨SEQ_FN_MEMB_TABLE i, 63, 12⟩
/-- SEQ_FN_MEMB_CTRL (R108). -/
def SEQ_FN_MEMB_CTRL (i : Nat) : Nat := 0x1002078 + 0x100 * i
def SEQ_FN_MEMB_CTRL_STAGE (i : Nat) : FRef := ⟨SEQ_FN_MEMB_CTRL i, 32, 32⟩
def SEQ_FN_MEMB_CTRL_CONSUMERS (i : Nat) : FRef := ⟨SEQ_FN_MEMB_CTRL i, 15, 0⟩
/-- SEQ_FN_MEMB_CUR (R108). -/
def SEQ_FN_MEMB_CUR (i : Nat) : Nat := 0x1002080 + 0x100 * i
def SEQ_FN_MEMB_CUR_STATUS (i : Nat) : FRef := ⟨SEQ_FN_MEMB_CUR i, 63, 48⟩
def SEQ_FN_MEMB_CUR_CONSUMERS (i : Nat) : FRef := ⟨SEQ_FN_MEMB_CUR i, 47, 32⟩
def SEQ_FN_MEMB_CUR_EPOCH (i : Nat) : FRef := ⟨SEQ_FN_MEMB_CUR i, 31, 0⟩
/-- SEQ_FN_SUBST (R140). -/
def SEQ_FN_SUBST (i : Nat) : Nat := 0x1002090 + 0x100 * i
/-- SEQ_FN_POOL (R140). -/
def SEQ_FN_POOL (i : Nat) : Nat := 0x1002098 + 0x100 * i
def SEQ_FN_POOL_EXHAUSTED (i : Nat) : FRef := ⟨SEQ_FN_POOL i, 63, 63⟩
def SEQ_FN_POOL_NEXT (i : Nat) : FRef := ⟨SEQ_FN_POOL i, 31, 0⟩
/-- SEQ_FN_POND_HITS (R140). -/
def SEQ_FN_POND_HITS (i : Nat) : Nat := 0x10020a0 + 0x100 * i
/-- SEQ_FN_POND_MISS (R140). -/
def SEQ_FN_POND_MISS (i : Nat) : Nat := 0x10020a8 + 0x100 * i
def SEQ_FN_POND_MISS_MISSES (i : Nat) : FRef := ⟨SEQ_FN_POND_MISS i, 63, 32⟩
def SEQ_FN_POND_MISS_SKIPS (i : Nat) : FRef := ⟨SEQ_FN_POND_MISS i, 31, 0⟩
/-- SEQ_FN_DELIVERY (R140). -/
def SEQ_FN_DELIVERY (i : Nat) : Nat := 0x10020b0 + 0x100 * i
def SEQ_FN_DELIVERY_STATUS (i : Nat) : FRef := ⟨SEQ_FN_DELIVERY i, 63, 48⟩
def SEQ_FN_DELIVERY_CONSUMER (i : Nat) : FRef := ⟨SEQ_FN_DELIVERY i, 47, 32⟩
def SEQ_FN_DELIVERY_HELD (i : Nat) : FRef := ⟨SEQ_FN_DELIVERY i, 0, 0⟩
/-- MED_STATUS (R180). -/
def MED_STATUS : Nat := 0x2000000
def MED_STATUS_STATUS : FRef := ⟨MED_STATUS, 63, 48⟩
def MED_STATUS_DIES_FAILED : FRef := ⟨MED_STATUS, 15, 8⟩
def MED_STATUS_RELOC_FULL : FRef := ⟨MED_STATUS, 3, 3⟩
def MED_STATUS_RELOC_STALE : FRef := ⟨MED_STATUS, 2, 2⟩
def MED_STATUS_STATE : FRef := ⟨MED_STATUS, 1, 0⟩
/-- MED_GEOM (R180). -/
def MED_GEOM : Nat := 0x2000008
def MED_GEOM_DIES : FRef := ⟨MED_GEOM, 39, 32⟩
def MED_GEOM_PLANES : FRef := ⟨MED_GEOM, 28, 26⟩
def MED_GEOM_BLOCKS : FRef := ⟨MED_GEOM, 25, 13⟩
def MED_GEOM_PAGES : FRef := ⟨MED_GEOM, 12, 0⟩
/-- MED_MAP_EPOCH (R180). -/
def MED_MAP_EPOCH : Nat := 0x2000010
def MED_MAP_EPOCH_EPOCH : FRef := ⟨MED_MAP_EPOCH, 31, 0⟩
/-- MED_MAP_FLOOR (R180). -/
def MED_MAP_FLOOR : Nat := 0x2000018
def MED_MAP_FLOOR_STATUS : FRef := ⟨MED_MAP_FLOOR, 63, 48⟩
def MED_MAP_FLOOR_FLOOR : FRef := ⟨MED_MAP_FLOOR, 31, 0⟩
/-- MED_RELOC (R180). -/
def MED_RELOC : Nat := 0x2000020
def MED_RELOC_OVERLIMIT : FRef := ⟨MED_RELOC, 51, 32⟩
def MED_RELOC_LIVE : FRef := ⟨MED_RELOC, 20, 0⟩
/-- MED_READ_LIMIT (R180). -/
def MED_READ_LIMIT : Nat := 0x2000028
def MED_READ_LIMIT_LIMIT : FRef := ⟨MED_READ_LIMIT, 31, 0⟩
/-- MED_DIE_FAIL (R180). -/
def MED_DIE_FAIL (i : Nat) : Nat := 0x2000100 + 0x8 * i
def MED_DIE_FAIL_HIGH (i : Nat) : FRef := ⟨MED_DIE_FAIL i, 63, 32⟩
def MED_DIE_FAIL_LOW (i : Nat) : FRef := ⟨MED_DIE_FAIL i, 31, 0⟩
/-- STC_TASK_CMD (R181). -/
def STC_TASK_CMD (i : Nat) : Nat := 0x12000000 + 0x1000 * i
def STC_TASK_CMD_NSID (i : Nat) : FRef := ⟨STC_TASK_CMD i, 15, 8⟩
def STC_TASK_CMD_OPCODE (i : Nat) : FRef := ⟨STC_TASK_CMD i, 7, 0⟩
/-- STC_TASK_SECTOR (R181). -/
def STC_TASK_SECTOR (i : Nat) : Nat := 0x12000008 + 0x1000 * i
/-- STC_TASK_COUNT (R181). -/
def STC_TASK_COUNT (i : Nat) : Nat := 0x12000010 + 0x1000 * i
def STC_TASK_COUNT_COUNT (i : Nat) : FRef := ⟨STC_TASK_COUNT i, 31, 0⟩
/-- STC_TASK_BUF (R181). -/
def STC_TASK_BUF (i : Nat) : Nat := 0x12000018 + 0x1000 * i
def STC_TASK_BUF_BUF (i : Nat) : FRef := ⟨STC_TASK_BUF i, 63, 8⟩
/-- STC_TASK_BUF_LEN (R181). -/
def STC_TASK_BUF_LEN (i : Nat) : Nat := 0x12000020 + 0x1000 * i
/-- STC_TASK_ARG (R181). -/
def STC_TASK_ARG (i : Nat) : Nat := 0x12000028 + 0x1000 * i
def STC_TASK_ARG_KIND (i : Nat) : FRef := ⟨STC_TASK_ARG i, 63, 63⟩
def STC_TASK_ARG_CAPACITY (i : Nat) : FRef := ⟨STC_TASK_ARG i, 47, 0⟩
/-- STC_TASK_GO (R181). -/
def STC_TASK_GO (i : Nat) : Nat := 0x12000030 + 0x1000 * i
def STC_TASK_GO_GO (i : Nat) : FRef := ⟨STC_TASK_GO i, 0, 0⟩
/-- STC_TASK_STATUS (R181). -/
def STC_TASK_STATUS (i : Nat) : Nat := 0x12000038 + 0x1000 * i
def STC_TASK_STATUS_STATUS (i : Nat) : FRef := ⟨STC_TASK_STATUS i, 63, 48⟩
def STC_TASK_STATUS_OPCODE (i : Nat) : FRef := ⟨STC_TASK_STATUS i, 47, 40⟩
def STC_TASK_STATUS_GO_REJECTED (i : Nat) : FRef := ⟨STC_TASK_STATUS i, 2, 2⟩
def STC_TASK_STATUS_BUSY (i : Nat) : FRef := ⟨STC_TASK_STATUS i, 1, 1⟩
def STC_TASK_STATUS_DONE (i : Nat) : FRef := ⟨STC_TASK_STATUS i, 0, 0⟩
/-- STC_TASK_RESULT (R181). -/
def STC_TASK_RESULT (i : Nat) : Nat := 0x12000040 + 0x1000 * i
/-- STC_TASK_PART_MASK (R181). -/
def STC_TASK_PART_MASK (i : Nat) : Nat := 0x12000048 + 0x1000 * i
def STC_TASK_PART_MASK_MASK (i : Nat) : FRef := ⟨STC_TASK_PART_MASK i, 31, 0⟩
/-- STC_TASK_PART (R181). -/
def STC_TASK_PART (i : Nat) (j : Nat) : Nat := 0x12000050 + 0x1000 * i + 0x8 * j
def STC_TASK_PART_PART_3 (i : Nat) (j : Nat) : FRef := ⟨STC_TASK_PART i j, 63, 48⟩
def STC_TASK_PART_PART_2 (i : Nat) (j : Nat) : FRef := ⟨STC_TASK_PART i j, 47, 32⟩
def STC_TASK_PART_PART_1 (i : Nat) (j : Nat) : FRef := ⟨STC_TASK_PART i j, 31, 16⟩
def STC_TASK_PART_PART_0 (i : Nat) (j : Nat) : FRef := ⟨STC_TASK_PART i j, 15, 0⟩
/-- STC_POWER_CTRL (R198). -/
def STC_POWER_CTRL : Nat := 0x12008000
def STC_POWER_CTRL_GO : FRef := ⟨STC_POWER_CTRL, 8, 8⟩
def STC_POWER_CTRL_TARGET : FRef := ⟨STC_POWER_CTRL, 1, 0⟩
/-- STC_POWER_STATUS (R198). -/
def STC_POWER_STATUS : Nat := 0x12008008
def STC_POWER_STATUS_STATUS : FRef := ⟨STC_POWER_STATUS, 63, 48⟩
def STC_POWER_STATUS_ENTERING : FRef := ⟨STC_POWER_STATUS, 5, 5⟩
def STC_POWER_STATUS_DONE : FRef := ⟨STC_POWER_STATUS, 4, 4⟩
def STC_POWER_STATUS_TARGET : FRef := ⟨STC_POWER_STATUS, 3, 2⟩
def STC_POWER_STATUS_CURRENT : FRef := ⟨STC_POWER_STATUS, 1, 0⟩
/-- RCX_ENG_STATE (R224). -/
def RCX_ENG_STATE (i : Nat) : Nat := 0x3001000 + 0x40 * i
def RCX_ENG_STATE_LAST_DEFECT (i : Nat) : FRef := ⟨RCX_ENG_STATE i, 63, 48⟩
def RCX_ENG_STATE_FUNCTION (i : Nat) : FRef := ⟨RCX_ENG_STATE i, 35, 32⟩
def RCX_ENG_STATE_BOUND (i : Nat) : FRef := ⟨RCX_ENG_STATE i, 2, 2⟩
def RCX_ENG_STATE_MODE (i : Nat) : FRef := ⟨RCX_ENG_STATE i, 1, 1⟩
def RCX_ENG_STATE_BUSY (i : Nat) : FRef := ⟨RCX_ENG_STATE i, 0, 0⟩
/-- RCX_ENG_OUT (R224). -/
def RCX_ENG_OUT (i : Nat) : Nat := 0x3001008 + 0x40 * i
/-- RCX_ENG_IN (R224). -/
def RCX_ENG_IN (i : Nat) : Nat := 0x3001010 + 0x40 * i
/-- RCX_ENG_DEFECTS (R224). -/
def RCX_ENG_DEFECTS (i : Nat) : Nat := 0x3001018 + 0x40 * i
def RCX_ENG_DEFECTS_DECODE (i : Nat) : FRef := ⟨RCX_ENG_DEFECTS i, 63, 48⟩
def RCX_ENG_DEFECTS_CHECK (i : Nat) : FRef := ⟨RCX_ENG_DEFECTS i, 47, 32⟩
def RCX_ENG_DEFECTS_LIMIT (i : Nat) : FRef := ⟨RCX_ENG_DEFECTS i, 31, 16⟩
def RCX_ENG_DEFECTS_CAP (i : Nat) : FRef := ⟨RCX_ENG_DEFECTS i, 15, 0⟩
/-- RCX_ENG_HIST (R224). -/
def RCX_ENG_HIST (i : Nat) : Nat := 0x3001020 + 0x40 * i
def RCX_ENG_HIST_RESTORES (i : Nat) : FRef := ⟨RCX_ENG_HIST i, 63, 32⟩
def RCX_ENG_HIST_SAVES (i : Nat) : FRef := ⟨RCX_ENG_HIST i, 31, 0⟩
/-- VDE_STATE (R251). -/
def VDE_STATE (i : Nat) : Nat := 0x4001000 + 0x40 * i
def VDE_STATE_LAST_DEFECT (i : Nat) : FRef := ⟨VDE_STATE i, 63, 48⟩
def VDE_STATE_FUNCTION (i : Nat) : FRef := ⟨VDE_STATE i, 35, 32⟩
def VDE_STATE_BOUND (i : Nat) : FRef := ⟨VDE_STATE i, 1, 1⟩
def VDE_STATE_BUSY (i : Nat) : FRef := ⟨VDE_STATE i, 0, 0⟩
/-- JPG_STATE (R251). -/
def JPG_STATE (i : Nat) : Nat := 0x4002000 + 0x40 * i
def JPG_STATE_LAST_DEFECT (i : Nat) : FRef := ⟨JPG_STATE i, 63, 48⟩
def JPG_STATE_FUNCTION (i : Nat) : FRef := ⟨JPG_STATE i, 35, 32⟩
def JPG_STATE_BOUND (i : Nat) : FRef := ⟨JPG_STATE i, 1, 1⟩
def JPG_STATE_BUSY (i : Nat) : FRef := ⟨JPG_STATE i, 0, 0⟩
/-- IMG_STATE (R251). -/
def IMG_STATE (i : Nat) : Nat := 0x5001000 + 0x40 * i
def IMG_STATE_LAST_DEFECT (i : Nat) : FRef := ⟨IMG_STATE i, 63, 48⟩
def IMG_STATE_FUNCTION (i : Nat) : FRef := ⟨IMG_STATE i, 35, 32⟩
def IMG_STATE_BOUND (i : Nat) : FRef := ⟨IMG_STATE i, 1, 1⟩
def IMG_STATE_BUSY (i : Nat) : FRef := ⟨IMG_STATE i, 0, 0⟩
/-- VDE_DEFECTS (R251). -/
def VDE_DEFECTS (i : Nat) : Nat := 0x4001008 + 0x40 * i
def VDE_DEFECTS_DECODE (i : Nat) : FRef := ⟨VDE_DEFECTS i, 63, 48⟩
def VDE_DEFECTS_LIMIT (i : Nat) : FRef := ⟨VDE_DEFECTS i, 31, 16⟩
def VDE_DEFECTS_CAP (i : Nat) : FRef := ⟨VDE_DEFECTS i, 15, 0⟩
/-- JPG_DEFECTS (R251). -/
def JPG_DEFECTS (i : Nat) : Nat := 0x4002008 + 0x40 * i
def JPG_DEFECTS_DECODE (i : Nat) : FRef := ⟨JPG_DEFECTS i, 63, 48⟩
def JPG_DEFECTS_LIMIT (i : Nat) : FRef := ⟨JPG_DEFECTS i, 31, 16⟩
def JPG_DEFECTS_CAP (i : Nat) : FRef := ⟨JPG_DEFECTS i, 15, 0⟩
/-- IMG_DEFECTS (R251). -/
def IMG_DEFECTS (i : Nat) : Nat := 0x5001008 + 0x40 * i
def IMG_DEFECTS_DECODE (i : Nat) : FRef := ⟨IMG_DEFECTS i, 63, 48⟩
def IMG_DEFECTS_LIMIT (i : Nat) : FRef := ⟨IMG_DEFECTS i, 31, 16⟩
def IMG_DEFECTS_CAP (i : Nat) : FRef := ⟨IMG_DEFECTS i, 15, 0⟩
/-- VDE_PICTURES (R251). -/
def VDE_PICTURES (i : Nat) : Nat := 0x4001010 + 0x40 * i
/-- JPG_PICTURES (R251). -/
def JPG_PICTURES (i : Nat) : Nat := 0x4002010 + 0x40 * i
/-- IMG_PICTURES (R251). -/
def IMG_PICTURES (i : Nat) : Nat := 0x5001010 + 0x40 * i
/-- VDE_CTX (R251). -/
def VDE_CTX (i : Nat) : Nat := 0x4001018 + 0x40 * i
def VDE_CTX_RESTORES (i : Nat) : FRef := ⟨VDE_CTX i, 63, 32⟩
def VDE_CTX_SAVES (i : Nat) : FRef := ⟨VDE_CTX i, 31, 0⟩
/-- IMG_ROI (R251). -/
def IMG_ROI (i : Nat) : Nat := 0x5001018 + 0x40 * i
def IMG_ROI_LATE (i : Nat) : FRef := ⟨IMG_ROI i, 63, 32⟩
def IMG_ROI_DISCARDED (i : Nat) : FRef := ⟨IMG_ROI i, 31, 0⟩
/-- TOK_BPE_STATE (R270). -/
def TOK_BPE_STATE (i : Nat) : Nat := 0x6001000 + 0x40 * i
def TOK_BPE_STATE_LAST_DEFECT (i : Nat) : FRef := ⟨TOK_BPE_STATE i, 63, 48⟩
def TOK_BPE_STATE_FUNCTION (i : Nat) : FRef := ⟨TOK_BPE_STATE i, 35, 32⟩
def TOK_BPE_STATE_BOUND (i : Nat) : FRef := ⟨TOK_BPE_STATE i, 1, 1⟩
def TOK_BPE_STATE_BUSY (i : Nat) : FRef := ⟨TOK_BPE_STATE i, 0, 0⟩
/-- TOK_MASK_STATE (R270). -/
def TOK_MASK_STATE (i : Nat) : Nat := 0x6003000 + 0x40 * i
def TOK_MASK_STATE_LAST_DEFECT (i : Nat) : FRef := ⟨TOK_MASK_STATE i, 63, 48⟩
def TOK_MASK_STATE_FUNCTION (i : Nat) : FRef := ⟨TOK_MASK_STATE i, 35, 32⟩
def TOK_MASK_STATE_BOUND (i : Nat) : FRef := ⟨TOK_MASK_STATE i, 1, 1⟩
def TOK_MASK_STATE_BUSY (i : Nat) : FRef := ⟨TOK_MASK_STATE i, 0, 0⟩
/-- TOK_DTK_STATE (R270). -/
def TOK_DTK_STATE (i : Nat) : Nat := 0x6004000 + 0x40 * i
def TOK_DTK_STATE_LAST_DEFECT (i : Nat) : FRef := ⟨TOK_DTK_STATE i, 63, 48⟩
def TOK_DTK_STATE_FUNCTION (i : Nat) : FRef := ⟨TOK_DTK_STATE i, 35, 32⟩
def TOK_DTK_STATE_BOUND (i : Nat) : FRef := ⟨TOK_DTK_STATE i, 1, 1⟩
def TOK_DTK_STATE_BUSY (i : Nat) : FRef := ⟨TOK_DTK_STATE i, 0, 0⟩
/-- TOK_BPE_DEFECTS (R270). -/
def TOK_BPE_DEFECTS (i : Nat) : Nat := 0x6001008 + 0x40 * i
def TOK_BPE_DEFECTS_DECODE (i : Nat) : FRef := ⟨TOK_BPE_DEFECTS i, 63, 48⟩
def TOK_BPE_DEFECTS_LIMIT (i : Nat) : FRef := ⟨TOK_BPE_DEFECTS i, 31, 16⟩
def TOK_BPE_DEFECTS_CAP (i : Nat) : FRef := ⟨TOK_BPE_DEFECTS i, 15, 0⟩
/-- TOK_MASK_DEFECTS (R270). -/
def TOK_MASK_DEFECTS (i : Nat) : Nat := 0x6003008 + 0x40 * i
def TOK_MASK_DEFECTS_DECODE (i : Nat) : FRef := ⟨TOK_MASK_DEFECTS i, 63, 48⟩
def TOK_MASK_DEFECTS_LIMIT (i : Nat) : FRef := ⟨TOK_MASK_DEFECTS i, 31, 16⟩
def TOK_MASK_DEFECTS_CAP (i : Nat) : FRef := ⟨TOK_MASK_DEFECTS i, 15, 0⟩
/-- TOK_DTK_DEFECTS (R270). -/
def TOK_DTK_DEFECTS (i : Nat) : Nat := 0x6004008 + 0x40 * i
def TOK_DTK_DEFECTS_DECODE (i : Nat) : FRef := ⟨TOK_DTK_DEFECTS i, 63, 48⟩
def TOK_DTK_DEFECTS_LIMIT (i : Nat) : FRef := ⟨TOK_DTK_DEFECTS i, 31, 16⟩
def TOK_DTK_DEFECTS_CAP (i : Nat) : FRef := ⟨TOK_DTK_DEFECTS i, 15, 0⟩
/-- TOK_BPE_TOKENS (R270). -/
def TOK_BPE_TOKENS (i : Nat) : Nat := 0x6001010 + 0x40 * i
/-- TOK_MASK_TOKENS (R270). -/
def TOK_MASK_TOKENS (i : Nat) : Nat := 0x6003010 + 0x40 * i
/-- TOK_DTK_TOKENS (R270). -/
def TOK_DTK_TOKENS (i : Nat) : Nat := 0x6004010 + 0x40 * i
/-- TOK_MASK_EVENTS (R270). -/
def TOK_MASK_EVENTS (i : Nat) : Nat := 0x6003018 + 0x40 * i
def TOK_MASK_EVENTS_DEADENDS (i : Nat) : FRef := ⟨TOK_MASK_EVENTS i, 63, 32⟩
def TOK_MASK_EVENTS_VIOLATIONS (i : Nat) : FRef := ⟨TOK_MASK_EVENTS i, 31, 0⟩
/-- TOK_MASK_SEQ (R270). -/
def TOK_MASK_SEQ (i : Nat) : Nat := 0x6003020 + 0x40 * i
def TOK_MASK_SEQ_RESTORES (i : Nat) : FRef := ⟨TOK_MASK_SEQ i, 63, 32⟩
def TOK_MASK_SEQ_SAVES (i : Nat) : FRef := ⟨TOK_MASK_SEQ i, 31, 0⟩
/-- THR_Q_STATE (R318). -/
def THR_Q_STATE (i : Nat) : Nat := 0x7001000 + 0x40 * i
def THR_Q_STATE_STATUS (i : Nat) : FRef := ⟨THR_Q_STATE i, 63, 48⟩
def THR_Q_STATE_GEN (i : Nat) : FRef := ⟨THR_Q_STATE i, 47, 32⟩
def THR_Q_STATE_LIVE (i : Nat) : FRef := ⟨THR_Q_STATE i, 26, 16⟩
def THR_Q_STATE_FUNCTION (i : Nat) : FRef := ⟨THR_Q_STATE i, 7, 4⟩
def THR_Q_STATE_NO_CORES (i : Nat) : FRef := ⟨THR_Q_STATE i, 2, 2⟩
def THR_Q_STATE_BOUND (i : Nat) : FRef := ⟨THR_Q_STATE i, 1, 1⟩
def THR_Q_STATE_STALLED (i : Nat) : FRef := ⟨THR_Q_STATE i, 0, 0⟩
/-- THR_Q_ITEMS (R318). -/
def THR_Q_ITEMS (i : Nat) : Nat := 0x7001008 + 0x40 * i
/-- THR_Q_MIGR (R318). -/
def THR_Q_MIGR (i : Nat) : Nat := 0x7001010 + 0x40 * i
def THR_Q_MIGR_REISSUED (i : Nat) : FRef := ⟨THR_Q_MIGR i, 63, 32⟩
def THR_Q_MIGR_DUPLICATES (i : Nat) : FRef := ⟨THR_Q_MIGR i, 31, 16⟩
def THR_Q_MIGR_INVALID (i : Nat) : FRef := ⟨THR_Q_MIGR i, 15, 0⟩
/-- THR_Q_STEAL (R318). -/
def THR_Q_STEAL (i : Nat) : Nat := 0x7001018 + 0x40 * i
/-- THR_CORE (R318). -/
def THR_CORE (i : Nat) : Nat := 0x7010000 + 0x8 * i
def THR_CORE_ERR_STATUS (i : Nat) : FRef := ⟨THR_CORE i, 63, 48⟩
def THR_CORE_QUEUE (i : Nat) : FRef := ⟨THR_CORE i, 47, 40⟩
def THR_CORE_STATE (i : Nat) : FRef := ⟨THR_CORE i, 3, 2⟩
def THR_CORE_RESTORE (i : Nat) : FRef := ⟨THR_CORE i, 1, 1⟩
def THR_CORE_WITHDRAW (i : Nat) : FRef := ⟨THR_CORE i, 0, 0⟩
/-- THR_Q_EXC (R340). -/
def THR_Q_EXC (i : Nat) : Nat := 0x7001020 + 0x40 * i
def THR_Q_EXC_STATUS (i : Nat) : FRef := ⟨THR_Q_EXC i, 63, 48⟩
def THR_Q_EXC_THREAD (i : Nat) : FRef := ⟨THR_Q_EXC i, 47, 44⟩
def THR_Q_EXC_CLASS (i : Nat) : FRef := ⟨THR_Q_EXC i, 43, 42⟩
def THR_Q_EXC_ITEM (i : Nat) : FRef := ⟨THR_Q_EXC i, 31, 0⟩
/-- THR_Q_EXC_PC (R340). -/
def THR_Q_EXC_PC (i : Nat) : Nat := 0x7001028 + 0x40 * i
def THR_Q_EXC_PC_WORD (i : Nat) : FRef := ⟨THR_Q_EXC_PC i, 63, 32⟩
def THR_Q_EXC_PC_PC (i : Nat) : FRef := ⟨THR_Q_EXC_PC i, 31, 0⟩
/-- THR_Q_EXC_ADDR (R340). -/
def THR_Q_EXC_ADDR (i : Nat) : Nat := 0x7001030 + 0x40 * i
/-- THR_Q_EXC_COUNT (R340). -/
def THR_Q_EXC_COUNT (i : Nat) : Nat := 0x7001038 + 0x40 * i
def THR_Q_EXC_COUNT_PROGRAM (i : Nat) : FRef := ⟨THR_Q_EXC_COUNT i, 63, 32⟩
def THR_Q_EXC_COUNT_ACCESS (i : Nat) : FRef := ⟨THR_Q_EXC_COUNT i, 31, 0⟩
/-- FAB_NODE_ID (R375). -/
def FAB_NODE_ID : Nat := 0x8000000
def FAB_NODE_ID_ADMIT_EPOCH : FRef := ⟨FAB_NODE_ID, 63, 32⟩
def FAB_NODE_ID_NODE : FRef := ⟨FAB_NODE_ID, 11, 0⟩
/-- FAB_ROUTE_CTRL (R375). -/
def FAB_ROUTE_CTRL : Nat := 0x8000008
def FAB_ROUTE_CTRL_STATUS : FRef := ⟨FAB_ROUTE_CTRL, 63, 48⟩
def FAB_ROUTE_CTRL_GO : FRef := ⟨FAB_ROUTE_CTRL, 8, 8⟩
def FAB_ROUTE_CTRL_PENDING : FRef := ⟨FAB_ROUTE_CTRL, 1, 1⟩
def FAB_ROUTE_CTRL_DONE : FRef := ⟨FAB_ROUTE_CTRL, 0, 0⟩
/-- FAB_ROUTE_TICK (R375). -/
def FAB_ROUTE_TICK : Nat := 0x8000010
/-- FAB_OCTET (R375). -/
def FAB_OCTET (i : Nat) : Nat := 0x8000100 + 0x8 * i
def FAB_OCTET_MODE (i : Nat) : FRef := ⟨FAB_OCTET i, 0, 0⟩
/-- FAB_LANE (R375). -/
def FAB_LANE (i : Nat) : Nat := 0x8000800 + 0x8 * i
def FAB_LANE_RX_INV (i : Nat) : FRef := ⟨FAB_LANE i, 1, 1⟩
def FAB_LANE_TX_INV (i : Nat) : FRef := ⟨FAB_LANE i, 0, 0⟩
/-- FAB_PORT_CFG (R375). -/
def FAB_PORT_CFG (i : Nat) : Nat := 0x8010000 + 0x40 * i
def FAB_PORT_CFG_ENABLE (i : Nat) : FRef := ⟨FAB_PORT_CFG i, 8, 8⟩
def FAB_PORT_CFG_CR (i : Nat) : FRef := ⟨FAB_PORT_CFG i, 7, 7⟩
def FAB_PORT_CFG_PRECODE (i : Nat) : FRef := ⟨FAB_PORT_CFG i, 6, 6⟩
def FAB_PORT_CFG_RELAY (i : Nat) : FRef := ⟨FAB_PORT_CFG i, 5, 5⟩
def FAB_PORT_CFG_WIDTH (i : Nat) : FRef := ⟨FAB_PORT_CFG i, 3, 0⟩
/-- FAB_PORT_STATE (R375). -/
def FAB_PORT_STATE (i : Nat) : Nat := 0x8010008 + 0x40 * i
def FAB_PORT_STATE_STATUS (i : Nat) : FRef := ⟨FAB_PORT_STATE i, 63, 48⟩
def FAB_PORT_STATE_PEER_NODE (i : Nat) : FRef := ⟨FAB_PORT_STATE i, 47, 36⟩
def FAB_PORT_STATE_PEER_PORT (i : Nat) : FRef := ⟨FAB_PORT_STATE i, 35, 28⟩
def FAB_PORT_STATE_UP_COUNT (i : Nat) : FRef := ⟨FAB_PORT_STATE i, 27, 12⟩
def FAB_PORT_STATE_STATE (i : Nat) : FRef := ⟨FAB_PORT_STATE i, 2, 0⟩
/-- FAB_PORT_ERR (R375). -/
def FAB_PORT_ERR (i : Nat) : Nat := 0x8010010 + 0x40 * i
def FAB_PORT_ERR_FEC_CORRECTED (i : Nat) : FRef := ⟨FAB_PORT_ERR i, 63, 32⟩
def FAB_PORT_ERR_UNCORRECTABLE (i : Nat) : FRef := ⟨FAB_PORT_ERR i, 31, 16⟩
def FAB_PORT_ERR_REPLAYS (i : Nat) : FRef := ⟨FAB_PORT_ERR i, 15, 0⟩
/-- FAB_PORT_DISC (R375). -/
def FAB_PORT_DISC (i : Nat) : Nat := 0x8010018 + 0x40 * i
def FAB_PORT_DISC_FENCED (i : Nat) : FRef := ⟨FAB_PORT_DISC i, 63, 48⟩
def FAB_PORT_DISC_NO_ROUTE (i : Nat) : FRef := ⟨FAB_PORT_DISC i, 47, 32⟩
def FAB_PORT_DISC_LOSSY (i : Nat) : FRef := ⟨FAB_PORT_DISC i, 31, 16⟩
def FAB_PORT_DISC_DOWN (i : Nat) : FRef := ⟨FAB_PORT_DISC i, 15, 0⟩
/-- FAB_PORT_MISC (R375). -/
def FAB_PORT_MISC (i : Nat) : Nat := 0x8010020 + 0x40 * i
def FAB_PORT_MISC_HOPS (i : Nat) : FRef := ⟨FAB_PORT_MISC i, 63, 48⟩
def FAB_PORT_MISC_EXCESS_CREDIT (i : Nat) : FRef := ⟨FAB_PORT_MISC i, 47, 32⟩
def FAB_PORT_MISC_BAD_TYPE (i : Nat) : FRef := ⟨FAB_PORT_MISC i, 31, 16⟩
def FAB_PORT_MISC_CTRL_CRC (i : Nat) : FRef := ⟨FAB_PORT_MISC i, 15, 0⟩
/-- FAB_PORT_ETH (R375). -/
def FAB_PORT_ETH (i : Nat) : Nat := 0x8010028 + 0x40 * i
def FAB_PORT_ETH_UNSUPPORTED (i : Nat) : FRef := ⟨FAB_PORT_ETH i, 63, 32⟩
def FAB_PORT_ETH_PAUSE (i : Nat) : FRef := ⟨FAB_PORT_ETH i, 31, 16⟩
def FAB_PORT_ETH_FCS (i : Nat) : FRef := ⟨FAB_PORT_ETH i, 15, 0⟩
/-- FAB_ROUTE_SHADOW (R375). -/
def FAB_ROUTE_SHADOW (i : Nat) : Nat := 0x8100000 + 0x8 * i
/-- FAB_ROUTE_ACTIVE (R375). -/
def FAB_ROUTE_ACTIVE (i : Nat) : Nat := 0x8110000 + 0x8 * i
/-- FAB_FENCE (R375). -/
def FAB_FENCE (i : Nat) : Nat := 0x8120000 + 0x8 * i
def FAB_FENCE_VALID (i : Nat) : FRef := ⟨FAB_FENCE i, 63, 63⟩
def FAB_FENCE_EPOCH (i : Nat) : FRef := ⟨FAB_FENCE i, 31, 0⟩
/-- XPT_QP_CMD (R401). -/
def XPT_QP_CMD : Nat := 0x9000000
def XPT_QP_CMD_STATUS : FRef := ⟨XPT_QP_CMD, 63, 48⟩
def XPT_QP_CMD_GO_REJECTED : FRef := ⟨XPT_QP_CMD, 34, 34⟩
def XPT_QP_CMD_BUSY : FRef := ⟨XPT_QP_CMD, 33, 33⟩
def XPT_QP_CMD_DONE : FRef := ⟨XPT_QP_CMD, 32, 32⟩
def XPT_QP_CMD_OP : FRef := ⟨XPT_QP_CMD, 29, 28⟩
def XPT_QP_CMD_GO : FRef := ⟨XPT_QP_CMD, 20, 20⟩
def XPT_QP_CMD_QP : FRef := ⟨XPT_QP_CMD, 19, 0⟩
/-- XPT_QP_STATUS (R401). -/
def XPT_QP_STATUS : Nat := 0x9000008
def XPT_QP_STATUS_STATE : FRef := ⟨XPT_QP_STATUS, 63, 62⟩
def XPT_QP_STATUS_CACHED : FRef := ⟨XPT_QP_STATUS, 61, 61⟩
def XPT_QP_STATUS_MODE : FRef := ⟨XPT_QP_STATUS, 60, 60⟩
def XPT_QP_STATUS_PEER_NODE : FRef := ⟨XPT_QP_STATUS, 59, 48⟩
def XPT_QP_STATUS_PD : FRef := ⟨XPT_QP_STATUS, 47, 36⟩
def XPT_QP_STATUS_TC : FRef := ⟨XPT_QP_STATUS, 35, 31⟩
def XPT_QP_STATUS_ERR_STATUS : FRef := ⟨XPT_QP_STATUS, 15, 0⟩
/-- XPT_QP_SETUP (R401). -/
def XPT_QP_SETUP (i : Nat) : Nat := 0x9000040 + 0x8 * i
/-- XPT_WIN_BASE (R401). -/
def XPT_WIN_BASE : Nat := 0x9000100
def XPT_WIN_BASE_BASE : FRef := ⟨XPT_WIN_BASE, 51, 12⟩
/-- XPT_WIN_SIZE (R401). -/
def XPT_WIN_SIZE : Nat := 0x9000108
/-- XPT_WIN_CTRL (R401). -/
def XPT_WIN_CTRL : Nat := 0x9000110
def XPT_WIN_CTRL_GO : FRef := ⟨XPT_WIN_CTRL, 47, 47⟩
def XPT_WIN_CTRL_OP : FRef := ⟨XPT_WIN_CTRL, 46, 45⟩
def XPT_WIN_CTRL_ACCESS : FRef := ⟨XPT_WIN_CTRL, 44, 42⟩
def XPT_WIN_CTRL_PD : FRef := ⟨XPT_WIN_CTRL, 27, 16⟩
def XPT_WIN_CTRL_INDEX : FRef := ⟨XPT_WIN_CTRL, 15, 0⟩
/-- XPT_WIN_STATUS (R401). -/
def XPT_WIN_STATUS : Nat := 0x9000118
def XPT_WIN_STATUS_STATUS : FRef := ⟨XPT_WIN_STATUS, 63, 48⟩
def XPT_WIN_STATUS_GO_REJECTED : FRef := ⟨XPT_WIN_STATUS, 2, 2⟩
def XPT_WIN_STATUS_BUSY : FRef := ⟨XPT_WIN_STATUS, 1, 1⟩
def XPT_WIN_STATUS_DONE : FRef := ⟨XPT_WIN_STATUS, 0, 0⟩
/-- XPT_TC (R401). -/
def XPT_TC (i : Nat) : Nat := 0x9000200 + 0x8 * i
def XPT_TC_CWND_MAX (i : Nat) : FRef := ⟨XPT_TC i, 63, 48⟩
def XPT_TC_TARGET (i : Nat) : FRef := ⟨XPT_TC i, 47, 32⟩
def XPT_TC_RNR_WAIT (i : Nat) : FRef := ⟨XPT_TC i, 31, 24⟩
def XPT_TC_MODE (i : Nat) : FRef := ⟨XPT_TC i, 0, 0⟩
/-- XPT_MISS (R401). -/
def XPT_MISS : Nat := 0x9000400
def XPT_MISS_MISSES : FRef := ⟨XPT_MISS, 63, 32⟩
def XPT_MISS_RNR_SENT : FRef := ⟨XPT_MISS, 31, 16⟩
def XPT_MISS_SEQ_NAKS : FRef := ⟨XPT_MISS, 15, 0⟩
/-- XPT_DISC (R401). -/
def XPT_DISC : Nat := 0x9000408
def XPT_DISC_WIN_CLOSED : FRef := ⟨XPT_DISC, 63, 48⟩
def XPT_DISC_DOMAIN : FRef := ⟨XPT_DISC, 47, 32⟩
def XPT_DISC_DUPLICATES : FRef := ⟨XPT_DISC, 31, 16⟩
def XPT_DISC_BAD_QP : FRef := ⟨XPT_DISC, 15, 0⟩
/-- XPT_GRANT (R401). -/
def XPT_GRANT : Nat := 0x9000410
def XPT_GRANT_EXCESS_GRANT : FRef := ⟨XPT_GRANT, 63, 32⟩
def XPT_GRANT_CNP : FRef := ⟨XPT_GRANT, 31, 0⟩
/-- XPT_ETH_MAC (R401). -/
def XPT_ETH_MAC (i : Nat) : Nat := 0x9010000 + 0x20 * i
def XPT_ETH_MAC_TAGGED (i : Nat) : FRef := ⟨XPT_ETH_MAC i, 63, 63⟩
def XPT_ETH_MAC_VID (i : Nat) : FRef := ⟨XPT_ETH_MAC i, 59, 48⟩
def XPT_ETH_MAC_MAC (i : Nat) : FRef := ⟨XPT_ETH_MAC i, 47, 0⟩
/-- XPT_ETH_IP4 (R401). -/
def XPT_ETH_IP4 (i : Nat) : Nat := 0x9010008 + 0x20 * i
def XPT_ETH_IP4_IP4 (i : Nat) : FRef := ⟨XPT_ETH_IP4 i, 31, 0⟩
/-- XPT_ETH_IP6_HI (R401). -/
def XPT_ETH_IP6_HI (i : Nat) : Nat := 0x9010010 + 0x20 * i
/-- XPT_ETH_IP6_LO (R401). -/
def XPT_ETH_IP6_LO (i : Nat) : Nat := 0x9010018 + 0x20 * i
/-- XPT_WIN_STATE (R401). -/
def XPT_WIN_STATE (i : Nat) : Nat := 0x9100000 + 0x8 * i
def XPT_WIN_STATE_ADMITTED (i : Nat) : FRef := ⟨XPT_WIN_STATE i, 63, 32⟩
def XPT_WIN_STATE_STATE (i : Nat) : FRef := ⟨XPT_WIN_STATE i, 17, 16⟩
def XPT_WIN_STATE_GEN (i : Nat) : FRef := ⟨XPT_WIN_STATE i, 15, 0⟩
/-- XPT_PD (R401). -/
def XPT_PD (i : Nat) : Nat := 0x9200000 + 0x8 * i
def XPT_PD_VALID (i : Nat) : FRef := ⟨XPT_PD i, 63, 63⟩
def XPT_PD_OWNER (i : Nat) : FRef := ⟨XPT_PD i, 4, 0⟩
/-- XPT_PEER (R401). -/
def XPT_PEER (i : Nat) (j : Nat) : Nat := 0x9800000 + 0x8000 * i + 0x8 * j
def XPT_PEER_VALID (i : Nat) (j : Nat) : FRef := ⟨XPT_PEER i j, 63, 63⟩
def XPT_PEER_QP (i : Nat) (j : Nat) : FRef := ⟨XPT_PEER i j, 19, 0⟩
/-- TSH_Q_CFG (R417). -/
def TSH_Q_CFG (i : Nat) (j : Nat) : Nat := 0xa010000 + 0x800 * i + 0x20 * j
def TSH_Q_CFG_RATE (i : Nat) (j : Nat) : FRef := ⟨TSH_Q_CFG i j, 63, 32⟩
def TSH_Q_CFG_QUANTUM (i : Nat) (j : Nat) : FRef := ⟨TSH_Q_CFG i j, 31, 16⟩
def TSH_Q_CFG_OVERHEAD (i : Nat) (j : Nat) : FRef := ⟨TSH_Q_CFG i j, 15, 7⟩
def TSH_Q_CFG_PRIO (i : Nat) (j : Nat) : FRef := ⟨TSH_Q_CFG i j, 6, 4⟩
def TSH_Q_CFG_SHAPED (i : Nat) (j : Nat) : FRef := ⟨TSH_Q_CFG i j, 0, 0⟩
/-- TSH_Q_BURST (R417). -/
def TSH_Q_BURST (i : Nat) (j : Nat) : Nat := 0xa010008 + 0x800 * i + 0x20 * j
def TSH_Q_BURST_BURST (i : Nat) (j : Nat) : FRef := ⟨TSH_Q_BURST i j, 31, 0⟩
/-- TSH_Q_STATE (R417). -/
def TSH_Q_STATE (i : Nat) (j : Nat) : Nat := 0xa010010 + 0x800 * i + 0x20 * j
def TSH_Q_STATE_CREDIT (i : Nat) (j : Nat) : FRef := ⟨TSH_Q_STATE i j, 63, 16⟩
def TSH_Q_STATE_BACKLOG (i : Nat) (j : Nat) : FRef := ⟨TSH_Q_STATE i j, 0, 0⟩
/-- TSH_GATE_CTRL (R417). -/
def TSH_GATE_CTRL (i : Nat) : Nat := 0xa090000 + 0x20 * i
def TSH_GATE_CTRL_STATUS (i : Nat) : FRef := ⟨TSH_GATE_CTRL i, 63, 48⟩
def TSH_GATE_CTRL_GO (i : Nat) : FRef := ⟨TSH_GATE_CTRL i, 19, 19⟩
def TSH_GATE_CTRL_ACTIVE (i : Nat) : FRef := ⟨TSH_GATE_CTRL i, 18, 18⟩
def TSH_GATE_CTRL_PENDING (i : Nat) : FRef := ⟨TSH_GATE_CTRL i, 17, 17⟩
def TSH_GATE_CTRL_DONE (i : Nat) : FRef := ⟨TSH_GATE_CTRL i, 16, 16⟩
def TSH_GATE_CTRL_ENTRIES (i : Nat) : FRef := ⟨TSH_GATE_CTRL i, 8, 0⟩
/-- TSH_GATE_ADMIN (R417). -/
def TSH_GATE_ADMIN (i : Nat) : Nat := 0xa090008 + 0x20 * i
/-- TSH_GATE_BASE (R417). -/
def TSH_GATE_BASE (i : Nat) : Nat := 0xa090010 + 0x20 * i
/-- TSH_PORT_CNT (R417). -/
def TSH_PORT_CNT (i : Nat) : Nat := 0xa090018 + 0x20 * i
def TSH_PORT_CNT_POLICED (i : Nat) : FRef := ⟨TSH_PORT_CNT i, 63, 32⟩
def TSH_PORT_CNT_GATE_WAITS (i : Nat) : FRef := ⟨TSH_PORT_CNT i, 31, 0⟩
/-- TSH_GATE_SHADOW (R417). -/
def TSH_GATE_SHADOW (i : Nat) (j : Nat) : Nat := 0xa100000 + 0x800 * i + 0x8 * j
def TSH_GATE_SHADOW_INTERVAL (i : Nat) (j : Nat) : FRef := ⟨TSH_GATE_SHADOW i j, 63, 32⟩
def TSH_GATE_SHADOW_GATES (i : Nat) (j : Nat) : FRef := ⟨TSH_GATE_SHADOW i j, 31, 0⟩
/-- TSH_GATE_ACTIVE (R417). -/
def TSH_GATE_ACTIVE (i : Nat) (j : Nat) : Nat := 0xa180000 + 0x800 * i + 0x8 * j
def TSH_GATE_ACTIVE_INTERVAL (i : Nat) (j : Nat) : FRef := ⟨TSH_GATE_ACTIVE i j, 63, 32⟩
def TSH_GATE_ACTIVE_GATES (i : Nat) (j : Nat) : FRef := ⟨TSH_GATE_ACTIVE i j, 31, 0⟩
/-- COL_GRP_CMD (R440). -/
def COL_GRP_CMD : Nat := 0xb000000
def COL_GRP_CMD_STATUS : FRef := ⟨COL_GRP_CMD, 63, 48⟩
def COL_GRP_CMD_GO : FRef := ⟨COL_GRP_CMD, 23, 23⟩
def COL_GRP_CMD_PENDING : FRef := ⟨COL_GRP_CMD, 22, 22⟩
def COL_GRP_CMD_DONE : FRef := ⟨COL_GRP_CMD, 21, 21⟩
def COL_GRP_CMD_OP : FRef := ⟨COL_GRP_CMD, 17, 16⟩
def COL_GRP_CMD_GROUP : FRef := ⟨COL_GRP_CMD, 11, 0⟩
/-- COL_GRP_ADDR (R440). -/
def COL_GRP_ADDR : Nat := 0xb000008
def COL_GRP_ADDR_ADDR : FRef := ⟨COL_GRP_ADDR, 63, 6⟩
/-- COL_GRP_TICK (R440). -/
def COL_GRP_TICK : Nat := 0xb000010
/-- COL_DISC (R440). -/
def COL_DISC : Nat := 0xb000018
def COL_DISC_BAD : FRef := ⟨COL_DISC, 63, 48⟩
def COL_DISC_STALE : FRef := ⟨COL_DISC, 47, 32⟩
def COL_DISC_AHEAD : FRef := ⟨COL_DISC, 31, 16⟩
def COL_DISC_DUPLICATES : FRef := ⟨COL_DISC, 15, 0⟩
/-- COL_GRP_STATE (R440). -/
def COL_GRP_STATE (i : Nat) : Nat := 0xb010000 + 0x20 * i
def COL_GRP_STATE_STATUS (i : Nat) : FRef := ⟨COL_GRP_STATE i, 63, 48⟩
def COL_GRP_STATE_GEN (i : Nat) : FRef := ⟨COL_GRP_STATE i, 47, 32⟩
def COL_GRP_STATE_FUNCTION (i : Nat) : FRef := ⟨COL_GRP_STATE i, 7, 4⟩
def COL_GRP_STATE_INFLIGHT (i : Nat) : FRef := ⟨COL_GRP_STATE i, 3, 2⟩
def COL_GRP_STATE_STALLED (i : Nat) : FRef := ⟨COL_GRP_STATE i, 1, 1⟩
def COL_GRP_STATE_INSTALLED (i : Nat) : FRef := ⟨COL_GRP_STATE i, 0, 0⟩
/-- COL_GRP_SEQ (R440). -/
def COL_GRP_SEQ (i : Nat) : Nat := 0xb010008 + 0x20 * i
/-- COL_GRP_COUNTS (R440). -/
def COL_GRP_COUNTS (i : Nat) : Nat := 0xb010010 + 0x20 * i
def COL_GRP_COUNTS_COMPLETED (i : Nat) : FRef := ⟨COL_GRP_COUNTS i, 63, 32⟩
def COL_GRP_COUNTS_FAILED (i : Nat) : FRef := ⟨COL_GRP_COUNTS i, 31, 16⟩
def COL_GRP_COUNTS_DISCARDED (i : Nat) : FRef := ⟨COL_GRP_COUNTS i, 15, 0⟩
/-- GLB_MODE (R461). -/
def GLB_MODE : Nat := 0x10
def GLB_MODE_DET : FRef := ⟨GLB_MODE, 0, 0⟩
/-- TIM_FT_NS (R466). -/
def TIM_FT_NS : Nat := 0xc000000
/-- TIM_FT_FRAC (R466). -/
def TIM_FT_FRAC : Nat := 0xc000008
def TIM_FT_FRAC_FRAC : FRef := ⟨TIM_FT_FRAC, 15, 0⟩
/-- TIM_CTRL (R466). -/
def TIM_CTRL : Nat := 0xc000010
def TIM_CTRL_DOMAIN : FRef := ⟨TIM_CTRL, 63, 48⟩
def TIM_CTRL_UPSTREAM : FRef := ⟨TIM_CTRL, 47, 40⟩
def TIM_CTRL_ROOT : FRef := ⟨TIM_CTRL, 1, 1⟩
def TIM_CTRL_ENABLE : FRef := ⟨TIM_CTRL, 0, 0⟩
/-- TIM_STATUS (R466). -/
def TIM_STATUS : Nat := 0xc000018
def TIM_STATUS_OFFSET : FRef := ⟨TIM_STATUS, 63, 32⟩
def TIM_STATUS_ACCURATE : FRef := ⟨TIM_STATUS, 3, 3⟩
def TIM_STATUS_STATE : FRef := ⟨TIM_STATUS, 2, 0⟩
/-- TIM_FT_SET (R466). -/
def TIM_FT_SET : Nat := 0xc000020
/-- TIM_PPS (R466). -/
def TIM_PPS : Nat := 0xc000028
def TIM_PPS_ENABLE : FRef := ⟨TIM_PPS, 63, 63⟩
def TIM_PPS_OFFSET_NS : FRef := ⟨TIM_PPS, 29, 0⟩
/-- TIM_PPS_CAPTURE (R466). -/
def TIM_PPS_CAPTURE : Nat := 0xc000030
/-- TIM_DISC (R466). -/
def TIM_DISC : Nat := 0xc000038
def TIM_DISC_BAD_KIND : FRef := ⟨TIM_DISC, 63, 48⟩
def TIM_DISC_BAD_DOMAIN : FRef := ⟨TIM_DISC, 47, 32⟩
def TIM_DISC_STALE_GEN : FRef := ⟨TIM_DISC, 31, 16⟩
def TIM_DISC_DUP_ARRIVE : FRef := ⟨TIM_DISC, 15, 0⟩
/-- TIM_PORT_ASYM (R466). -/
def TIM_PORT_ASYM (i : Nat) : Nat := 0xc001000 + 0x10 * i
def TIM_PORT_ASYM_ASYM (i : Nat) : FRef := ⟨TIM_PORT_ASYM i, 31, 0⟩
/-- TIM_PORT_DELAY (R466). -/
def TIM_PORT_DELAY (i : Nat) : Nat := 0xc001008 + 0x10 * i
def TIM_PORT_DELAY_VALID (i : Nat) : FRef := ⟨TIM_PORT_DELAY i, 63, 63⟩
def TIM_PORT_DELAY_DELAY (i : Nat) : FRef := ⟨TIM_PORT_DELAY i, 47, 0⟩
/-- TIM_BAR_CFG (R466). -/
def TIM_BAR_CFG (i : Nat) : Nat := 0xc002000 + 0x20 * i
def TIM_BAR_CFG_LEAD_NS (i : Nat) : FRef := ⟨TIM_BAR_CFG i, 63, 40⟩
def TIM_BAR_CFG_PARENT (i : Nat) : FRef := ⟨TIM_BAR_CFG i, 39, 32⟩
def TIM_BAR_CFG_LOCAL (i : Nat) : FRef := ⟨TIM_BAR_CFG i, 18, 18⟩
def TIM_BAR_CFG_ROOT (i : Nat) : FRef := ⟨TIM_BAR_CFG i, 17, 17⟩
def TIM_BAR_CFG_EXPECT (i : Nat) : FRef := ⟨TIM_BAR_CFG i, 8, 0⟩
/-- TIM_BAR_CTRL (R466). -/
def TIM_BAR_CTRL (i : Nat) : Nat := 0xc002008 + 0x20 * i
def TIM_BAR_CTRL_CANCEL (i : Nat) : FRef := ⟨TIM_BAR_CTRL i, 1, 1⟩
def TIM_BAR_CTRL_ARRIVE (i : Nat) : FRef := ⟨TIM_BAR_CTRL i, 0, 0⟩
/-- TIM_BAR_STATUS (R466). -/
def TIM_BAR_STATUS (i : Nat) : Nat := 0xc002010 + 0x20 * i
def TIM_BAR_STATUS_GEN (i : Nat) : FRef := ⟨TIM_BAR_STATUS i, 63, 48⟩
def TIM_BAR_STATUS_COUNT (i : Nat) : FRef := ⟨TIM_BAR_STATUS i, 47, 39⟩
def TIM_BAR_STATUS_LATE (i : Nat) : FRef := ⟨TIM_BAR_STATUS i, 3, 3⟩
def TIM_BAR_STATUS_RELEASED (i : Nat) : FRef := ⟨TIM_BAR_STATUS i, 2, 2⟩
def TIM_BAR_STATUS_COUNTING (i : Nat) : FRef := ⟨TIM_BAR_STATUS i, 1, 1⟩
def TIM_BAR_STATUS_WAITING (i : Nat) : FRef := ⟨TIM_BAR_STATUS i, 0, 0⟩
/-- TIM_BAR_RELEASE (R466). -/
def TIM_BAR_RELEASE (i : Nat) : Nat := 0xc002018 + 0x20 * i
/-- LGR_STATUS (R488). -/
def LGR_STATUS : Nat := 0xd000000
def LGR_STATUS_CAUSE : FRef := ⟨LGR_STATUS, 63, 48⟩
def LGR_STATUS_DUMP : FRef := ⟨LGR_STATUS, 9, 8⟩
def LGR_STATUS_SELF_FENCED : FRef := ⟨LGR_STATUS, 2, 2⟩
def LGR_STATUS_ADMITTED : FRef := ⟨LGR_STATUS, 1, 1⟩
def LGR_STATUS_FATAL : FRef := ⟨LGR_STATUS, 0, 0⟩
/-- LGR_MISMATCH (R488). -/
def LGR_MISMATCH : Nat := 0xd000008
def LGR_MISMATCH_PORT : FRef := ⟨LGR_MISMATCH, 31, 16⟩
def LGR_MISMATCH_KIND : FRef := ⟨LGR_MISMATCH, 15, 8⟩
def LGR_MISMATCH_FUNCTION : FRef := ⟨LGR_MISMATCH, 7, 4⟩
def LGR_MISMATCH_VALID : FRef := ⟨LGR_MISMATCH, 0, 0⟩
/-- LGR_LEASE (R488). -/
def LGR_LEASE : Nat := 0xd000010
def LGR_LEASE_FENCE_EPOCH : FRef := ⟨LGR_LEASE, 63, 32⟩
def LGR_LEASE_ACTIVE : FRef := ⟨LGR_LEASE, 11, 11⟩
def LGR_LEASE_LEFT_MS : FRef := ⟨LGR_LEASE, 10, 0⟩
/-- LGR_RSN (R488). -/
def LGR_RSN : Nat := 0xd000018
/-- LGR_ECC (R488). -/
def LGR_ECC : Nat := 0xd000020
def LGR_ECC_CORRECTED : FRef := ⟨LGR_ECC, 63, 32⟩
def LGR_ECC_UNCORRECTABLE : FRef := ⟨LGR_ECC, 31, 0⟩
/-- LGR_DUMP (R488). -/
def LGR_DUMP : Nat := 0xd000028
def LGR_DUMP_LENGTH : FRef := ⟨LGR_DUMP, 63, 32⟩
def LGR_DUMP_RELEASE : FRef := ⟨LGR_DUMP, 0, 0⟩
/-- LGR_POOL_ISSUED (R488). -/
def LGR_POOL_ISSUED (i : Nat) : Nat := 0xd010000 + 0x10 * i
/-- LGR_POOL_RETIRED (R488). -/
def LGR_POOL_RETIRED (i : Nat) : Nat := 0xd010008 + 0x10 * i
/-- LGR_NBR (R488). -/
def LGR_NBR (i : Nat) : Nat := 0xd002000 + 0x10 * i
def LGR_NBR_ADMIT_EPOCH (i : Nat) : FRef := ⟨LGR_NBR i, 63, 32⟩
def LGR_NBR_NODE (i : Nat) : FRef := ⟨LGR_NBR i, 27, 16⟩
def LGR_NBR_SELF_FENCED (i : Nat) : FRef := ⟨LGR_NBR i, 2, 2⟩
def LGR_NBR_SILENT (i : Nat) : FRef := ⟨LGR_NBR i, 1, 1⟩
def LGR_NBR_HEARD (i : Nat) : FRef := ⟨LGR_NBR i, 0, 0⟩
/-- INT_TGT_CTRL (R498). -/
def INT_TGT_CTRL (i : Nat) : Nat := 0xe001000 + 0x20 * i
def INT_TGT_CTRL_CURRENT (i : Nat) : FRef := ⟨INT_TGT_CTRL i, 23, 16⟩
def INT_TGT_CTRL_ENABLE (i : Nat) : FRef := ⟨INT_TGT_CTRL i, 8, 8⟩
def INT_TGT_CTRL_TPR (i : Nat) : FRef := ⟨INT_TGT_CTRL i, 7, 0⟩
/-- INT_TGT_CLAIM (R498). -/
def INT_TGT_CLAIM (i : Nat) : Nat := 0xe001008 + 0x20 * i
def INT_TGT_CLAIM_VALID (i : Nat) : FRef := ⟨INT_TGT_CLAIM i, 63, 63⟩
def INT_TGT_CLAIM_SOURCE (i : Nat) : FRef := ⟨INT_TGT_CLAIM i, 9, 0⟩
/-- INT_TGT_EOI (R498). -/
def INT_TGT_EOI (i : Nat) : Nat := 0xe001010 + 0x20 * i
def INT_TGT_EOI_SOURCE (i : Nat) : FRef := ⟨INT_TGT_EOI i, 9, 0⟩
/-- INT_SRC_CTRL (R498). -/
def INT_SRC_CTRL (i : Nat) : Nat := 0xe010000 + 0x10 * i
def INT_SRC_CTRL_TARGETS (i : Nat) : FRef := ⟨INT_SRC_CTRL i, 63, 48⟩
def INT_SRC_CTRL_PRIORITY (i : Nat) : FRef := ⟨INT_SRC_CTRL i, 47, 40⟩
def INT_SRC_CTRL_HOST (i : Nat) : FRef := ⟨INT_SRC_CTRL i, 11, 11⟩
def INT_SRC_CTRL_SENSE (i : Nat) : FRef := ⟨INT_SRC_CTRL i, 10, 8⟩
def INT_SRC_CTRL_PEND (i : Nat) : FRef := ⟨INT_SRC_CTRL i, 0, 0⟩
/-- INT_SRC_STATE (R498). -/
def INT_SRC_STATE (i : Nat) : Nat := 0xe010008 + 0x10 * i
def INT_SRC_STATE_LAST_INST (i : Nat) : FRef := ⟨INT_SRC_STATE i, 63, 48⟩
def INT_SRC_STATE_COUNT (i : Nat) : FRef := ⟨INT_SRC_STATE i, 47, 40⟩
def INT_SRC_STATE_TARGET (i : Nat) : FRef := ⟨INT_SRC_STATE i, 19, 16⟩
def INT_SRC_STATE_HOST_IN_SERVICE (i : Nat) : FRef := ⟨INT_SRC_STATE i, 3, 3⟩
def INT_SRC_STATE_HOST_PENDING (i : Nat) : FRef := ⟨INT_SRC_STATE i, 2, 2⟩
def INT_SRC_STATE_IN_SERVICE (i : Nat) : FRef := ⟨INT_SRC_STATE i, 1, 1⟩
def INT_SRC_STATE_SIGNAL (i : Nat) : FRef := ⟨INT_SRC_STATE i, 0, 0⟩
/-- MGT_HOST (R511). -/
def MGT_HOST : Nat := 0xf000000
def MGT_HOST_STATUS : FRef := ⟨MGT_HOST, 63, 48⟩
def MGT_HOST_HELD : FRef := ⟨MGT_HOST, 47, 32⟩
def MGT_HOST_RELAYED : FRef := ⟨MGT_HOST, 10, 10⟩
def MGT_HOST_VALID : FRef := ⟨MGT_HOST, 9, 9⟩
def MGT_HOST_LINK : FRef := ⟨MGT_HOST, 8, 8⟩
def MGT_HOST_INDEX : FRef := ⟨MGT_HOST, 5, 0⟩
/-- MGT_RELAY_TABLE (R511). -/
def MGT_RELAY_TABLE : Nat := 0xf000008
def MGT_RELAY_TABLE_VALID : FRef := ⟨MGT_RELAY_TABLE, 62, 56⟩
def MGT_RELAY_TABLE_PORT_7 : FRef := ⟨MGT_RELAY_TABLE, 55, 48⟩
def MGT_RELAY_TABLE_PORT_6 : FRef := ⟨MGT_RELAY_TABLE, 47, 40⟩
def MGT_RELAY_TABLE_PORT_5 : FRef := ⟨MGT_RELAY_TABLE, 39, 32⟩
def MGT_RELAY_TABLE_PORT_4 : FRef := ⟨MGT_RELAY_TABLE, 31, 24⟩
def MGT_RELAY_TABLE_PORT_3 : FRef := ⟨MGT_RELAY_TABLE, 23, 16⟩
def MGT_RELAY_TABLE_PORT_2 : FRef := ⟨MGT_RELAY_TABLE, 15, 8⟩
def MGT_RELAY_TABLE_PORT_1 : FRef := ⟨MGT_RELAY_TABLE, 7, 0⟩
/-- MGT_HRW_APERTURE (R511). -/
def MGT_HRW_APERTURE : Nat := 0xf000010
def MGT_HRW_APERTURE_BASE : FRef := ⟨MGT_HRW_APERTURE, 16, 0⟩
/-- MGT_HOST_VERSION (R511). -/
def MGT_HOST_VERSION : Nat := 0xf000018
/-- MGT_FW_VERSION (R511). -/
def MGT_FW_VERSION (i : Nat) : Nat := 0xf000020 + 0x8 * i
def MGT_FW_VERSION_MAJOR (i : Nat) : FRef := ⟨MGT_FW_VERSION i, 63, 48⟩
def MGT_FW_VERSION_MINOR (i : Nat) : FRef := ⟨MGT_FW_VERSION i, 47, 32⟩
def MGT_FW_VERSION_PATCH (i : Nat) : FRef := ⟨MGT_FW_VERSION i, 31, 16⟩
def MGT_FW_VERSION_BUILD (i : Nat) : FRef := ⟨MGT_FW_VERSION i, 15, 0⟩
/-- MGT_FW_CTRL (R511). -/
def MGT_FW_CTRL : Nat := 0xf000030
def MGT_FW_CTRL_LEN : FRef := ⟨MGT_FW_CTRL, 63, 32⟩
def MGT_FW_CTRL_GO : FRef := ⟨MGT_FW_CTRL, 8, 8⟩
def MGT_FW_CTRL_OP : FRef := ⟨MGT_FW_CTRL, 1, 0⟩
/-- MGT_FW_SRC (R511). -/
def MGT_FW_SRC : Nat := 0xf000038
def MGT_FW_SRC_SRC : FRef := ⟨MGT_FW_SRC, 63, 12⟩
/-- MGT_FW_STATUS (R511). -/
def MGT_FW_STATUS : Nat := 0xf000040
def MGT_FW_STATUS_STATUS : FRef := ⟨MGT_FW_STATUS, 63, 48⟩
def MGT_FW_STATUS_RUNNING_SLOT : FRef := ⟨MGT_FW_STATUS, 7, 7⟩
def MGT_FW_STATUS_NEXT_SLOT : FRef := ⟨MGT_FW_STATUS, 6, 6⟩
def MGT_FW_STATUS_STATE : FRef := ⟨MGT_FW_STATUS, 5, 4⟩
def MGT_FW_STATUS_DONE : FRef := ⟨MGT_FW_STATUS, 0, 0⟩
/-- MGT_HOST_EOI (R511). -/
def MGT_HOST_EOI : Nat := 0xf000048
def MGT_HOST_EOI_SOURCE : FRef := ⟨MGT_HOST_EOI, 9, 0⟩
/-- MGT_STATUS (R511). -/
def MGT_STATUS : Nat := 0xf000050
def MGT_STATUS_NET_BAD : FRef := ⟨MGT_STATUS, 63, 32⟩
def MGT_STATUS_WDT_EXPIRED : FRef := ⟨MGT_STATUS, 31, 16⟩
def MGT_STATUS_RELAY_IGNORED : FRef := ⟨MGT_STATUS, 15, 0⟩
/-- SEC_STATUS (R526). -/
def SEC_STATUS : Nat := 0x10000000
def SEC_STATUS_OWNED : FRef := ⟨SEC_STATUS, 2, 2⟩
def SEC_STATUS_IDENTITY : FRef := ⟨SEC_STATUS, 1, 0⟩
/-- SEC_DEVICE_KEY (R526). -/
def SEC_DEVICE_KEY (i : Nat) : Nat := 0x10000008 + 0x8 * i
/-- SEC_MIN_VERSION (R526). -/
def SEC_MIN_VERSION : Nat := 0x10000028
/-- SEC_OWNER_KEY_ID (R526). -/
def SEC_OWNER_KEY_ID : Nat := 0x10000030
/-- SEC_REC_SRC (R526). -/
def SEC_REC_SRC : Nat := 0x10000040
def SEC_REC_SRC_SRC : FRef := ⟨SEC_REC_SRC, 63, 12⟩
/-- SEC_REC_CTRL (R526). -/
def SEC_REC_CTRL : Nat := 0x10000048
def SEC_REC_CTRL_LEN : FRef := ⟨SEC_REC_CTRL, 63, 32⟩
def SEC_REC_CTRL_GO : FRef := ⟨SEC_REC_CTRL, 8, 8⟩
/-- SEC_REC_STATUS (R526). -/
def SEC_REC_STATUS : Nat := 0x10000050
def SEC_REC_STATUS_STATUS : FRef := ⟨SEC_REC_STATUS, 63, 48⟩
def SEC_REC_STATUS_TYPE : FRef := ⟨SEC_REC_STATUS, 47, 40⟩
def SEC_REC_STATUS_GO_REJECTED : FRef := ⟨SEC_REC_STATUS, 2, 2⟩
def SEC_REC_STATUS_BUSY : FRef := ⟨SEC_REC_STATUS, 1, 1⟩
def SEC_REC_STATUS_DONE : FRef := ⟨SEC_REC_STATUS, 0, 0⟩
/-- SEC_QUOTE_NONCE (R526). -/
def SEC_QUOTE_NONCE : Nat := 0x10000060
def SEC_QUOTE_NONCE_ADDR : FRef := ⟨SEC_QUOTE_NONCE, 63, 5⟩
/-- SEC_QUOTE_OUT (R526). -/
def SEC_QUOTE_OUT : Nat := 0x10000068
def SEC_QUOTE_OUT_ADDR : FRef := ⟨SEC_QUOTE_OUT, 63, 6⟩
/-- SEC_QUOTE_CTRL (R526). -/
def SEC_QUOTE_CTRL : Nat := 0x10000070
def SEC_QUOTE_CTRL_STATUS : FRef := ⟨SEC_QUOTE_CTRL, 63, 48⟩
def SEC_QUOTE_CTRL_GO : FRef := ⟨SEC_QUOTE_CTRL, 8, 8⟩
def SEC_QUOTE_CTRL_GO_REJECTED : FRef := ⟨SEC_QUOTE_CTRL, 2, 2⟩
def SEC_QUOTE_CTRL_BUSY : FRef := ⟨SEC_QUOTE_CTRL, 1, 1⟩
def SEC_QUOTE_CTRL_DONE : FRef := ⟨SEC_QUOTE_CTRL, 0, 0⟩
/-- SEC_SIGNED (R526). -/
def SEC_SIGNED : Nat := 0x10000078
/-- GLB_RESET (R541). -/
def GLB_RESET : Nat := 0x20
def GLB_RESET_KEY : FRef := ⟨GLB_RESET, 15, 0⟩
/-- GLB_RESET_CAUSE (R541). -/
def GLB_RESET_CAUSE : Nat := 0x28
def GLB_RESET_CAUSE_PREV : FRef := ⟨GLB_RESET_CAUSE, 15, 8⟩
def GLB_RESET_CAUSE_CAUSE : FRef := ⟨GLB_RESET_CAUSE, 7, 0⟩
/-- GLB_BOOT (R541). -/
def GLB_BOOT : Nat := 0x30
def GLB_BOOT_CODE : FRef := ⟨GLB_BOOT, 15, 8⟩
def GLB_BOOT_READY : FRef := ⟨GLB_BOOT, 7, 7⟩
def GLB_BOOT_FALLBACK : FRef := ⟨GLB_BOOT, 6, 6⟩
def GLB_BOOT_SLOT : FRef := ⟨GLB_BOOT, 5, 5⟩
def GLB_BOOT_STAGE : FRef := ⟨GLB_BOOT, 3, 0⟩
/-- GLB_THERMAL (R541). -/
def GLB_THERMAL : Nat := 0x38
def GLB_THERMAL_TJ : FRef := ⟨GLB_THERMAL, 63, 48⟩
def GLB_THERMAL_TJ_PEAK : FRef := ⟨GLB_THERMAL, 47, 32⟩
def GLB_THERMAL_THROTTLE_STEEPS : FRef := ⟨GLB_THERMAL, 31, 8⟩
def GLB_THERMAL_LEVEL : FRef := ⟨GLB_THERMAL, 4, 0⟩
/-- GLB_LIMITS (R541). -/
def GLB_LIMITS : Nat := 0x40
def GLB_LIMITS_CORE_ILIMIT : FRef := ⟨GLB_LIMITS, 42, 32⟩
def GLB_LIMITS_LEVEL_CAP : FRef := ⟨GLB_LIMITS, 4, 0⟩
/-- GLB_AVS (R541). -/
def GLB_AVS : Nat := 0x48
def GLB_AVS_SENSED_MV : FRef := ⟨GLB_AVS, 63, 48⟩
def GLB_AVS_TARGET_MV : FRef := ⟨GLB_AVS, 47, 32⟩
def GLB_AVS_OFFSET_MV : FRef := ⟨GLB_AVS, 7, 0⟩

end R

/-- The register table of block Glb. -/
def regTableGlb : List RegSpec := [
  ⟨0x0, 1, 0x0, 1, 0x0, .always, [⟨47, 32, .ro, 24841⟩, ⟨31, 24, .ro, 1⟩, ⟨23, 16, .ro, 1⟩, ⟨3, 0, .ro, 0⟩]⟩,
  ⟨0x8, 1, 0x0, 1, 0x0, .always, [⟨52, 42, .ro, 0⟩, ⟨41, 36, .ro, 0⟩, ⟨35, 29, .ro, 0⟩, ⟨28, 24, .ro, 0⟩, ⟨23, 17, .ro, 0⟩, ⟨16, 11, .ro, 0⟩, ⟨10, 4, .ro, 0⟩]⟩,
  ⟨0x10, 1, 0x0, 1, 0x0, .always, [⟨0, 0, .ro, 0⟩]⟩,
  ⟨0x20, 1, 0x0, 1, 0x0, .always, [⟨15, 0, .wo, 0⟩]⟩,
  ⟨0x28, 1, 0x0, 1, 0x0, .always, [⟨15, 8, .ro, 0⟩, ⟨7, 0, .ro, 0⟩]⟩,
  ⟨0x30, 1, 0x0, 1, 0x0, .always, [⟨15, 8, .ro, 0⟩, ⟨7, 7, .ro, 0⟩, ⟨6, 6, .ro, 0⟩, ⟨5, 5, .ro, 0⟩, ⟨3, 0, .ro, 0⟩]⟩,
  ⟨0x38, 1, 0x0, 1, 0x0, .always, [⟨63, 48, .ro, 0⟩, ⟨47, 32, .rw, 0⟩, ⟨31, 8, .ro, 0⟩, ⟨4, 0, .ro, 16⟩]⟩,
  ⟨0x40, 1, 0x0, 1, 0x0, .always, [⟨42, 32, .rw, 1150⟩, ⟨4, 0, .rw, 16⟩]⟩,
  ⟨0x48, 1, 0x0, 1, 0x0, .always, [⟨63, 48, .ro, 0⟩, ⟨47, 32, .ro, 750⟩, ⟨7, 0, .rw, 0⟩]⟩]

/-- The register table of block Seq. -/
def regTableSeq : List RegSpec := [
  ⟨0x1000, 1, 0x0, 1, 0x0, .always, [⟨63, 12, .rw, 0⟩]⟩,
  ⟨0x1008, 1, 0x0, 1, 0x0, .always, [⟨63, 0, .rw, 0⟩]⟩,
  ⟨0x1010, 1, 0x0, 1, 0x0, .always, [⟨9, 9, .wo, 0⟩, ⟨8, 8, .wo, 0⟩, ⟨7, 4, .rw, 0⟩, ⟨2, 0, .rw, 0⟩]⟩,
  ⟨0x1018, 1, 0x0, 1, 0x0, .always, [⟨63, 48, .ro, 0⟩, ⟨47, 40, .ro, 0⟩, ⟨39, 32, .ro, 255⟩, ⟨31, 16, .ro, 0⟩, ⟨4, 4, .w1c, 0⟩, ⟨3, 3, .ro, 0⟩, ⟨2, 2, .ro, 0⟩, ⟨1, 1, .ro, 0⟩, ⟨0, 0, .w1c, 0⟩]⟩,
  ⟨0x1020, 1, 0x0, 1, 0x0, .always, [⟨63, 0, .ro, 0⟩]⟩,
  ⟨0x1100, 16, 0x8, 1, 0x0, .always, [⟨63, 0, .ro, 0⟩]⟩,
  ⟨0x0, 1, 0x0, 1, 0x0, .always, [⟨23, 0, .ro, 50000⟩]⟩,
  ⟨0x8, 1, 0x0, 1, 0x0, .always, [⟨63, 0, .rw, 0⟩]⟩,
  ⟨0x10, 1, 0x0, 1, 0x0, .always, [⟨15, 8, .rw, 0⟩, ⟨2, 2, .rw, 0⟩, ⟨1, 1, .ro, 0⟩, ⟨0, 0, .w1s, 0⟩]⟩,
  ⟨0x18, 1, 0x0, 1, 0x0, .always, [⟨63, 0, .ro, 0⟩]⟩,
  ⟨0x2000, 16, 0x100, 1, 0x0, .always, [⟨9, 9, .wo, 0⟩, ⟨8, 8, .wo, 0⟩, ⟨1, 0, .rw, 0⟩]⟩,
  ⟨0x2008, 16, 0x100, 1, 0x0, .always, [⟨63, 0, .rw, 0⟩]⟩,
  ⟨0x2010, 16, 0x100, 1, 0x0, .always, [⟨63, 63, .rw, 0⟩, ⟨47, 0, .rw, 0⟩]⟩,
  ⟨0x2018, 16, 0x100, 1, 0x0, .always, [⟨63, 48, .ro, 0⟩, ⟨42, 40, .ro, 0⟩, ⟨6, 6, .ro, 0⟩, ⟨5, 5, .ro, 0⟩, ⟨4, 4, .ro, 0⟩, ⟨3, 3, .ro, 0⟩, ⟨2, 2, .ro, 0⟩, ⟨0, 0, .w1c, 0⟩]⟩,
  ⟨0x2020, 16, 0x100, 1, 0x0, .always, [⟨63, 0, .ro, 0⟩]⟩,
  ⟨0x2028, 16, 0x100, 1, 0x0, .always, [⟨47, 0, .ro, 0⟩]⟩,
  ⟨0x2030, 16, 0x100, 1, 0x0, .always, [⟨63, 0, .ro, 0⟩]⟩,
  ⟨0x2038, 16, 0x100, 1, 0x0, .always, [⟨63, 0, .rw, 0⟩]⟩,
  ⟨0x2040, 16, 0x100, 1, 0x0, .always, [⟨63, 0, .ro, 0⟩]⟩,
  ⟨0x2048, 16, 0x100, 1, 0x0, .always, [⟨63, 0, .ro, 0⟩]⟩,
  ⟨0x2050, 16, 0x100, 1, 0x0, .always, [⟨63, 32, .ro, 0⟩, ⟨31, 16, .ro, 0⟩, ⟨15, 0, .ro, 0⟩]⟩,
  ⟨0x2060, 16, 0x100, 1, 0x0, .always, [⟨31, 0, .rw, 0⟩]⟩,
  ⟨0x2068, 16, 0x100, 1, 0x0, .always, [⟨63, 0, .rw, 0⟩]⟩,
  ⟨0x2070, 16, 0x100, 1, 0x0, .always, [⟨63, 12, .rw, 0⟩]⟩,
  ⟨0x2078, 16, 0x100, 1, 0x0, .always, [⟨32, 32, .wo, 0⟩, ⟨15, 0, .rw, 0⟩]⟩,
  ⟨0x2080, 16, 0x100, 1, 0x0, .always, [⟨63, 48, .ro, 0⟩, ⟨47, 32, .ro, 0⟩, ⟨31, 0, .ro, 0⟩]⟩,
  ⟨0x2090, 16, 0x100, 1, 0x0, .always, [⟨63, 0, .ro, 0⟩]⟩,
  ⟨0x2098, 16, 0x100, 1, 0x0, .always, [⟨63, 63, .ro, 0⟩, ⟨31, 0, .ro, 0⟩]⟩,
  ⟨0x20a0, 16, 0x100, 1, 0x0, .always, [⟨63, 0, .ro, 0⟩]⟩,
  ⟨0x20a8, 16, 0x100, 1, 0x0, .always, [⟨63, 32, .ro, 0⟩, ⟨31, 0, .ro, 0⟩]⟩,
  ⟨0x20b0, 16, 0x100, 1, 0x0, .always, [⟨63, 48, .ro, 0⟩, ⟨47, 32, .ro, 0⟩, ⟨0, 0, .ro, 0⟩]⟩]

/-- The register table of block Med. -/
def regTableMed : List RegSpec := [
  ⟨0x0, 1, 0x0, 1, 0x0, .always, [⟨63, 48, .ro, 0⟩, ⟨15, 8, .ro, 0⟩, ⟨3, 3, .ro, 0⟩, ⟨2, 2, .ro, 0⟩, ⟨1, 0, .ro, 0⟩]⟩,
  ⟨0x8, 1, 0x0, 1, 0x0, .always, [⟨39, 32, .ro, 0⟩, ⟨28, 26, .ro, 0⟩, ⟨25, 13, .ro, 0⟩, ⟨12, 0, .ro, 0⟩]⟩,
  ⟨0x10, 1, 0x0, 1, 0x0, .always, [⟨31, 0, .ro, 0⟩]⟩,
  ⟨0x18, 1, 0x0, 1, 0x0, .always, [⟨63, 48, .ro, 0⟩, ⟨31, 0, .rw, 0⟩]⟩,
  ⟨0x20, 1, 0x0, 1, 0x0, .always, [⟨51, 32, .ro, 0⟩, ⟨20, 0, .ro, 0⟩]⟩,
  ⟨0x28, 1, 0x0, 1, 0x0, .always, [⟨31, 0, .ro, 0⟩]⟩,
  ⟨0x100, 16, 0x8, 1, 0x0, .always, [⟨63, 32, .ro, 0⟩, ⟨31, 0, .ro, 0⟩]⟩]

/-- The register table of block Rcx. -/
def regTableRcx : List RegSpec := [
  ⟨0x1000, 16, 0x40, 1, 0x0, .rcx, [⟨63, 48, .ro, 0⟩, ⟨35, 32, .ro, 0⟩, ⟨2, 2, .ro, 0⟩, ⟨1, 1, .ro, 0⟩, ⟨0, 0, .ro, 0⟩]⟩,
  ⟨0x1008, 16, 0x40, 1, 0x0, .rcx, [⟨63, 0, .ro, 0⟩]⟩,
  ⟨0x1010, 16, 0x40, 1, 0x0, .rcx, [⟨63, 0, .ro, 0⟩]⟩,
  ⟨0x1018, 16, 0x40, 1, 0x0, .rcx, [⟨63, 48, .ro, 0⟩, ⟨47, 32, .ro, 0⟩, ⟨31, 16, .ro, 0⟩, ⟨15, 0, .ro, 0⟩]⟩,
  ⟨0x1020, 16, 0x40, 1, 0x0, .rcx, [⟨63, 32, .ro, 0⟩, ⟨31, 0, .ro, 0⟩]⟩]

/-- The register table of block VdeJpg. -/
def regTableVdeJpg : List RegSpec := [
  ⟨0x1000, 32, 0x40, 1, 0x0, .vde, [⟨63, 48, .ro, 0⟩, ⟨35, 32, .ro, 0⟩, ⟨1, 1, .ro, 0⟩, ⟨0, 0, .ro, 0⟩]⟩,
  ⟨0x2000, 64, 0x40, 1, 0x0, .jpg, [⟨63, 48, .ro, 0⟩, ⟨35, 32, .ro, 0⟩, ⟨1, 1, .ro, 0⟩, ⟨0, 0, .ro, 0⟩]⟩,
  ⟨0x1008, 32, 0x40, 1, 0x0, .vde, [⟨63, 48, .ro, 0⟩, ⟨31, 16, .ro, 0⟩, ⟨15, 0, .ro, 0⟩]⟩,
  ⟨0x2008, 64, 0x40, 1, 0x0, .jpg, [⟨63, 48, .ro, 0⟩, ⟨31, 16, .ro, 0⟩, ⟨15, 0, .ro, 0⟩]⟩,
  ⟨0x1010, 32, 0x40, 1, 0x0, .vde, [⟨63, 0, .ro, 0⟩]⟩,
  ⟨0x2010, 64, 0x40, 1, 0x0, .jpg, [⟨63, 0, .ro, 0⟩]⟩,
  ⟨0x1018, 32, 0x40, 1, 0x0, .vde, [⟨63, 32, .ro, 0⟩, ⟨31, 0, .ro, 0⟩]⟩]

/-- The register table of block Img. -/
def regTableImg : List RegSpec := [
  ⟨0x1000, 32, 0x40, 1, 0x0, .always, [⟨63, 48, .ro, 0⟩, ⟨35, 32, .ro, 0⟩, ⟨1, 1, .ro, 0⟩, ⟨0, 0, .ro, 0⟩]⟩,
  ⟨0x1008, 32, 0x40, 1, 0x0, .always, [⟨63, 48, .ro, 0⟩, ⟨31, 16, .ro, 0⟩, ⟨15, 0, .ro, 0⟩]⟩,
  ⟨0x1010, 32, 0x40, 1, 0x0, .always, [⟨63, 0, .ro, 0⟩]⟩,
  ⟨0x1018, 32, 0x40, 1, 0x0, .always, [⟨63, 32, .ro, 0⟩, ⟨31, 0, .ro, 0⟩]⟩]

/-- The register table of block Tok. -/
def regTableTok : List RegSpec := [
  ⟨0x1000, 64, 0x40, 1, 0x0, .bpe, [⟨63, 48, .ro, 0⟩, ⟨35, 32, .ro, 0⟩, ⟨1, 1, .ro, 0⟩, ⟨0, 0, .ro, 0⟩]⟩,
  ⟨0x3000, 32, 0x40, 1, 0x0, .mask, [⟨63, 48, .ro, 0⟩, ⟨35, 32, .ro, 0⟩, ⟨1, 1, .ro, 0⟩, ⟨0, 0, .ro, 0⟩]⟩,
  ⟨0x4000, 64, 0x40, 1, 0x0, .detok, [⟨63, 48, .ro, 0⟩, ⟨35, 32, .ro, 0⟩, ⟨1, 1, .ro, 0⟩, ⟨0, 0, .ro, 0⟩]⟩,
  ⟨0x1008, 64, 0x40, 1, 0x0, .bpe, [⟨63, 48, .ro, 0⟩, ⟨31, 16, .ro, 0⟩, ⟨15, 0, .ro, 0⟩]⟩,
  ⟨0x3008, 32, 0x40, 1, 0x0, .mask, [⟨63, 48, .ro, 0⟩, ⟨31, 16, .ro, 0⟩, ⟨15, 0, .ro, 0⟩]⟩,
  ⟨0x4008, 64, 0x40, 1, 0x0, .detok, [⟨63, 48, .ro, 0⟩, ⟨31, 16, .ro, 0⟩, ⟨15, 0, .ro, 0⟩]⟩,
  ⟨0x1010, 64, 0x40, 1, 0x0, .bpe, [⟨63, 0, .ro, 0⟩]⟩,
  ⟨0x3010, 32, 0x40, 1, 0x0, .mask, [⟨63, 0, .ro, 0⟩]⟩,
  ⟨0x4010, 64, 0x40, 1, 0x0, .detok, [⟨63, 0, .ro, 0⟩]⟩,
  ⟨0x3018, 32, 0x40, 1, 0x0, .mask, [⟨63, 32, .ro, 0⟩, ⟨31, 0, .ro, 0⟩]⟩,
  ⟨0x3020, 32, 0x40, 1, 0x0, .mask, [⟨63, 32, .ro, 0⟩, ⟨31, 0, .ro, 0⟩]⟩]

/-- The register table of block Thr. -/
def regTableThr : List RegSpec := [
  ⟨0x1000, 256, 0x40, 1, 0x0, .always, [⟨63, 48, .ro, 0⟩, ⟨47, 32, .ro, 0⟩, ⟨26, 16, .ro, 0⟩, ⟨7, 4, .ro, 0⟩, ⟨2, 2, .ro, 0⟩, ⟨1, 1, .ro, 0⟩, ⟨0, 0, .ro, 0⟩]⟩,
  ⟨0x1008, 256, 0x40, 1, 0x0, .always, [⟨63, 0, .ro, 0⟩]⟩,
  ⟨0x1010, 256, 0x40, 1, 0x0, .always, [⟨63, 32, .ro, 0⟩, ⟨31, 16, .ro, 0⟩, ⟨15, 0, .ro, 0⟩]⟩,
  ⟨0x1018, 256, 0x40, 1, 0x0, .always, [⟨63, 0, .ro, 0⟩]⟩,
  ⟨0x10000, 1024, 0x8, 1, 0x0, .thrCore, [⟨63, 48, .ro, 0⟩, ⟨47, 40, .ro, 0⟩, ⟨3, 2, .ro, 0⟩, ⟨1, 1, .wo, 0⟩, ⟨0, 0, .wo, 0⟩]⟩,
  ⟨0x1020, 256, 0x40, 1, 0x0, .always, [⟨63, 48, .ro, 0⟩, ⟨47, 44, .ro, 0⟩, ⟨43, 42, .ro, 0⟩, ⟨31, 0, .ro, 0⟩]⟩,
  ⟨0x1028, 256, 0x40, 1, 0x0, .always, [⟨63, 32, .ro, 0⟩, ⟨31, 0, .ro, 0⟩]⟩,
  ⟨0x1030, 256, 0x40, 1, 0x0, .always, [⟨63, 0, .ro, 0⟩]⟩,
  ⟨0x1038, 256, 0x40, 1, 0x0, .always, [⟨63, 32, .ro, 0⟩, ⟨31, 0, .ro, 0⟩]⟩]

/-- The register table of block Fab. -/
def regTableFab : List RegSpec := [
  ⟨0x0, 1, 0x0, 1, 0x0, .always, [⟨63, 32, .rw, 0⟩, ⟨11, 0, .rw, 4095⟩]⟩,
  ⟨0x8, 1, 0x0, 1, 0x0, .always, [⟨63, 48, .ro, 0⟩, ⟨8, 8, .wo, 0⟩, ⟨1, 1, .ro, 0⟩, ⟨0, 0, .w1c, 0⟩]⟩,
  ⟨0x10, 1, 0x0, 1, 0x0, .always, [⟨63, 0, .rw, 0⟩]⟩,
  ⟨0x100, 32, 0x8, 1, 0x0, .always, [⟨0, 0, .rw, 0⟩]⟩,
  ⟨0x800, 256, 0x8, 1, 0x0, .always, [⟨1, 1, .rw, 0⟩, ⟨0, 0, .rw, 0⟩]⟩,
  ⟨0x10000, 256, 0x40, 1, 0x0, .always, [⟨8, 8, .rw, 1⟩, ⟨7, 7, .rw, 0⟩, ⟨6, 6, .rw, 0⟩, ⟨5, 5, .rw, 1⟩, ⟨3, 0, .rw, 1⟩]⟩,
  ⟨0x10008, 256, 0x40, 1, 0x0, .port, [⟨63, 48, .ro, 0⟩, ⟨47, 36, .ro, 4095⟩, ⟨35, 28, .ro, 0⟩, ⟨27, 12, .ro, 0⟩, ⟨2, 0, .ro, 1⟩]⟩,
  ⟨0x10010, 256, 0x40, 1, 0x0, .port, [⟨63, 32, .ro, 0⟩, ⟨31, 16, .ro, 0⟩, ⟨15, 0, .ro, 0⟩]⟩,
  ⟨0x10018, 256, 0x40, 1, 0x0, .port, [⟨63, 48, .ro, 0⟩, ⟨47, 32, .ro, 0⟩, ⟨31, 16, .ro, 0⟩, ⟨15, 0, .ro, 0⟩]⟩,
  ⟨0x10020, 256, 0x40, 1, 0x0, .port, [⟨63, 48, .ro, 0⟩, ⟨47, 32, .ro, 0⟩, ⟨31, 16, .ro, 0⟩, ⟨15, 0, .ro, 0⟩]⟩,
  ⟨0x10028, 256, 0x40, 1, 0x0, .port, [⟨63, 32, .ro, 0⟩, ⟨31, 16, .ro, 0⟩, ⟨15, 0, .ro, 0⟩]⟩,
  ⟨0x100000, 4096, 0x8, 1, 0x0, .always, [⟨63, 0, .rw, 0⟩]⟩,
  ⟨0x110000, 4096, 0x8, 1, 0x0, .always, [⟨63, 0, .ro, 0⟩]⟩,
  ⟨0x120000, 4096, 0x8, 1, 0x0, .always, [⟨63, 63, .rw, 0⟩, ⟨31, 0, .rw, 0⟩]⟩]

/-- The register table of block Xpt. -/
def regTableXpt : List RegSpec := [
  ⟨0x0, 1, 0x0, 1, 0x0, .always, [⟨63, 48, .ro, 0⟩, ⟨34, 34, .w1c, 0⟩, ⟨33, 33, .ro, 0⟩, ⟨32, 32, .w1c, 0⟩, ⟨29, 28, .rw, 0⟩, ⟨20, 20, .wo, 0⟩, ⟨19, 0, .rw, 0⟩]⟩,
  ⟨0x8, 1, 0x0, 1, 0x0, .always, [⟨63, 62, .ro, 0⟩, ⟨61, 61, .ro, 0⟩, ⟨60, 60, .ro, 0⟩, ⟨59, 48, .ro, 0⟩, ⟨47, 36, .ro, 0⟩, ⟨35, 31, .ro, 0⟩, ⟨15, 0, .ro, 0⟩]⟩,
  ⟨0x40, 8, 0x8, 1, 0x0, .always, [⟨63, 0, .rw, 0⟩]⟩,
  ⟨0x100, 1, 0x0, 1, 0x0, .always, [⟨51, 12, .rw, 0⟩]⟩,
  ⟨0x108, 1, 0x0, 1, 0x0, .always, [⟨63, 0, .rw, 0⟩]⟩,
  ⟨0x110, 1, 0x0, 1, 0x0, .always, [⟨47, 47, .wo, 0⟩, ⟨46, 45, .rw, 0⟩, ⟨44, 42, .rw, 0⟩, ⟨27, 16, .rw, 0⟩, ⟨15, 0, .rw, 0⟩]⟩,
  ⟨0x118, 1, 0x0, 1, 0x0, .always, [⟨63, 48, .ro, 0⟩, ⟨2, 2, .w1c, 0⟩, ⟨1, 1, .ro, 0⟩, ⟨0, 0, .w1c, 0⟩]⟩,
  ⟨0x200, 32, 0x8, 1, 0x0, .always, [⟨63, 48, .rw, 256⟩, ⟨47, 32, .rw, 3000⟩, ⟨31, 24, .rw, 20⟩, ⟨0, 0, .rw, 0⟩]⟩,
  ⟨0x400, 1, 0x0, 1, 0x0, .always, [⟨63, 32, .ro, 0⟩, ⟨31, 16, .ro, 0⟩, ⟨15, 0, .ro, 0⟩]⟩,
  ⟨0x408, 1, 0x0, 1, 0x0, .always, [⟨63, 48, .ro, 0⟩, ⟨47, 32, .ro, 0⟩, ⟨31, 16, .ro, 0⟩, ⟨15, 0, .ro, 0⟩]⟩,
  ⟨0x410, 1, 0x0, 1, 0x0, .always, [⟨63, 32, .ro, 0⟩, ⟨31, 0, .ro, 0⟩]⟩,
  ⟨0x10000, 256, 0x20, 1, 0x0, .always, [⟨63, 63, .rw, 0⟩, ⟨59, 48, .rw, 0⟩, ⟨47, 0, .rw, 0⟩]⟩,
  ⟨0x10008, 256, 0x20, 1, 0x0, .always, [⟨31, 0, .rw, 0⟩]⟩,
  ⟨0x10010, 256, 0x20, 1, 0x0, .always, [⟨63, 0, .rw, 0⟩]⟩,
  ⟨0x10018, 256, 0x20, 1, 0x0, .always, [⟨63, 0, .rw, 0⟩]⟩,
  ⟨0x100000, 65536, 0x8, 1, 0x0, .always, [⟨63, 32, .ro, 0⟩, ⟨17, 16, .ro, 0⟩, ⟨15, 0, .ro, 0⟩]⟩,
  ⟨0x200000, 4096, 0x8, 1, 0x0, .always, [⟨63, 63, .rw, 0⟩, ⟨4, 0, .rw, 0⟩]⟩,
  ⟨0x800000, 17, 0x8000, 4096, 0x8, .always, [⟨63, 63, .rw, 0⟩, ⟨19, 0, .rw, 0⟩]⟩]

/-- The register table of block Tsh. -/
def regTableTsh : List RegSpec := [
  ⟨0x10000, 256, 0x800, 34, 0x20, .port, [⟨63, 32, .rw, 0⟩, ⟨31, 16, .rw, 4160⟩, ⟨15, 7, .rw, 0⟩, ⟨6, 4, .rw, 0⟩, ⟨0, 0, .rw, 0⟩]⟩,
  ⟨0x10008, 256, 0x800, 34, 0x20, .port, [⟨31, 0, .rw, 0⟩]⟩,
  ⟨0x10010, 256, 0x800, 34, 0x20, .port, [⟨63, 16, .ro, 0⟩, ⟨0, 0, .ro, 0⟩]⟩,
  ⟨0x90000, 256, 0x20, 1, 0x0, .port, [⟨63, 48, .ro, 0⟩, ⟨19, 19, .wo, 0⟩, ⟨18, 18, .ro, 0⟩, ⟨17, 17, .ro, 0⟩, ⟨16, 16, .w1c, 0⟩, ⟨8, 0, .rw, 0⟩]⟩,
  ⟨0x90008, 256, 0x20, 1, 0x0, .port, [⟨63, 0, .rw, 0⟩]⟩,
  ⟨0x90010, 256, 0x20, 1, 0x0, .port, [⟨63, 0, .ro, 0⟩]⟩,
  ⟨0x90018, 256, 0x20, 1, 0x0, .port, [⟨63, 32, .ro, 0⟩, ⟨31, 0, .ro, 0⟩]⟩,
  ⟨0x100000, 256, 0x800, 256, 0x8, .port, [⟨63, 32, .rw, 0⟩, ⟨31, 0, .rw, 0⟩]⟩,
  ⟨0x180000, 256, 0x800, 256, 0x8, .port, [⟨63, 32, .ro, 0⟩, ⟨31, 0, .ro, 0⟩]⟩]

/-- The register table of block Col. -/
def regTableCol : List RegSpec := [
  ⟨0x0, 1, 0x0, 1, 0x0, .always, [⟨63, 48, .ro, 0⟩, ⟨23, 23, .wo, 0⟩, ⟨22, 22, .ro, 0⟩, ⟨21, 21, .w1c, 0⟩, ⟨17, 16, .rw, 0⟩, ⟨11, 0, .rw, 0⟩]⟩,
  ⟨0x8, 1, 0x0, 1, 0x0, .always, [⟨63, 6, .rw, 0⟩]⟩,
  ⟨0x10, 1, 0x0, 1, 0x0, .always, [⟨63, 0, .rw, 0⟩]⟩,
  ⟨0x18, 1, 0x0, 1, 0x0, .always, [⟨63, 48, .ro, 0⟩, ⟨47, 32, .ro, 0⟩, ⟨31, 16, .ro, 0⟩, ⟨15, 0, .ro, 0⟩]⟩,
  ⟨0x10000, 4096, 0x20, 1, 0x0, .always, [⟨63, 48, .ro, 0⟩, ⟨47, 32, .ro, 0⟩, ⟨7, 4, .ro, 0⟩, ⟨3, 2, .ro, 0⟩, ⟨1, 1, .ro, 0⟩, ⟨0, 0, .ro, 0⟩]⟩,
  ⟨0x10008, 4096, 0x20, 1, 0x0, .always, [⟨63, 0, .ro, 0⟩]⟩,
  ⟨0x10010, 4096, 0x20, 1, 0x0, .always, [⟨63, 32, .ro, 0⟩, ⟨31, 16, .ro, 0⟩, ⟨15, 0, .ro, 0⟩]⟩]

/-- The register table of block Tim. -/
def regTableTim : List RegSpec := [
  ⟨0x0, 1, 0x0, 1, 0x0, .always, [⟨63, 0, .ro, 0⟩]⟩,
  ⟨0x8, 1, 0x0, 1, 0x0, .always, [⟨15, 0, .ro, 0⟩]⟩,
  ⟨0x10, 1, 0x0, 1, 0x0, .always, [⟨63, 48, .rw, 0⟩, ⟨47, 40, .rw, 0⟩, ⟨1, 1, .rw, 0⟩, ⟨0, 0, .rw, 0⟩]⟩,
  ⟨0x18, 1, 0x0, 1, 0x0, .always, [⟨63, 32, .ro, 0⟩, ⟨3, 3, .ro, 0⟩, ⟨2, 0, .ro, 0⟩]⟩,
  ⟨0x20, 1, 0x0, 1, 0x0, .always, [⟨63, 0, .wo, 0⟩]⟩,
  ⟨0x28, 1, 0x0, 1, 0x0, .always, [⟨63, 63, .rw, 0⟩, ⟨29, 0, .rw, 0⟩]⟩,
  ⟨0x30, 1, 0x0, 1, 0x0, .always, [⟨63, 0, .ro, 0⟩]⟩,
  ⟨0x38, 1, 0x0, 1, 0x0, .always, [⟨63, 48, .ro, 0⟩, ⟨47, 32, .ro, 0⟩, ⟨31, 16, .ro, 0⟩, ⟨15, 0, .ro, 0⟩]⟩,
  ⟨0x1000, 256, 0x10, 1, 0x0, .gfPort, [⟨31, 0, .rw, 0⟩]⟩,
  ⟨0x1008, 256, 0x10, 1, 0x0, .gfPort, [⟨63, 63, .ro, 0⟩, ⟨47, 0, .ro, 0⟩]⟩,
  ⟨0x2000, 256, 0x20, 1, 0x0, .always, [⟨63, 40, .rw, 0⟩, ⟨39, 32, .rw, 0⟩, ⟨18, 18, .rw, 0⟩, ⟨17, 17, .rw, 0⟩, ⟨8, 0, .rw, 0⟩]⟩,
  ⟨0x2008, 256, 0x20, 1, 0x0, .always, [⟨1, 1, .wo, 0⟩, ⟨0, 0, .wo, 0⟩]⟩,
  ⟨0x2010, 256, 0x20, 1, 0x0, .always, [⟨63, 48, .ro, 0⟩, ⟨47, 39, .ro, 0⟩, ⟨3, 3, .w1c, 0⟩, ⟨2, 2, .w1c, 0⟩, ⟨1, 1, .ro, 0⟩, ⟨0, 0, .ro, 0⟩]⟩,
  ⟨0x2018, 256, 0x20, 1, 0x0, .always, [⟨63, 0, .ro, 0⟩]⟩]

/-- The register table of block Lgr. -/
def regTableLgr : List RegSpec := [
  ⟨0x0, 1, 0x0, 1, 0x0, .always, [⟨63, 48, .ro, 0⟩, ⟨9, 8, .ro, 0⟩, ⟨2, 2, .ro, 0⟩, ⟨1, 1, .ro, 0⟩, ⟨0, 0, .ro, 0⟩]⟩,
  ⟨0x8, 1, 0x0, 1, 0x0, .always, [⟨31, 16, .ro, 65535⟩, ⟨15, 8, .ro, 0⟩, ⟨7, 4, .ro, 0⟩, ⟨0, 0, .ro, 0⟩]⟩,
  ⟨0x10, 1, 0x0, 1, 0x0, .always, [⟨63, 32, .ro, 0⟩, ⟨11, 11, .ro, 0⟩, ⟨10, 0, .ro, 0⟩]⟩,
  ⟨0x18, 1, 0x0, 1, 0x0, .always, [⟨63, 0, .ro, 0⟩]⟩,
  ⟨0x20, 1, 0x0, 1, 0x0, .always, [⟨63, 32, .ro, 0⟩, ⟨31, 0, .ro, 0⟩]⟩,
  ⟨0x28, 1, 0x0, 1, 0x0, .always, [⟨63, 32, .ro, 0⟩, ⟨0, 0, .wo, 0⟩]⟩,
  ⟨0x10000, 1024, 0x10, 1, 0x0, .always, [⟨63, 0, .ro, 0⟩]⟩,
  ⟨0x10008, 1024, 0x10, 1, 0x0, .always, [⟨63, 0, .ro, 0⟩]⟩,
  ⟨0x2000, 256, 0x10, 1, 0x0, .gfPort, [⟨63, 32, .ro, 0⟩, ⟨27, 16, .ro, 4095⟩, ⟨2, 2, .ro, 0⟩, ⟨1, 1, .ro, 0⟩, ⟨0, 0, .ro, 0⟩]⟩]

/-- The register table of block Int. -/
def regTableInt : List RegSpec := [
  ⟨0x1000, 16, 0x20, 1, 0x0, .always, [⟨23, 16, .ro, 0⟩, ⟨8, 8, .rw, 0⟩, ⟨7, 0, .rw, 0⟩]⟩,
  ⟨0x1008, 16, 0x20, 1, 0x0, .always, [⟨63, 63, .ro, 0⟩, ⟨9, 0, .ro, 0⟩]⟩,
  ⟨0x1010, 16, 0x20, 1, 0x0, .always, [⟨9, 0, .wo, 0⟩]⟩,
  ⟨0x10000, 1024, 0x10, 1, 0x0, .always, [⟨63, 48, .rw, 0⟩, ⟨47, 40, .rw, 0⟩, ⟨11, 11, .rw, 0⟩, ⟨10, 8, .rw, 0⟩, ⟨0, 0, .w1s, 0⟩]⟩,
  ⟨0x10008, 1024, 0x10, 1, 0x0, .always, [⟨63, 48, .ro, 0⟩, ⟨47, 40, .ro, 0⟩, ⟨19, 16, .ro, 0⟩, ⟨3, 3, .ro, 0⟩, ⟨2, 2, .ro, 0⟩, ⟨1, 1, .ro, 0⟩, ⟨0, 0, .ro, 0⟩]⟩]

/-- The register table of block Mgt. -/
def regTableMgt : List RegSpec := [
  ⟨0x0, 1, 0x0, 1, 0x0, .always, [⟨63, 48, .ro, 0⟩, ⟨47, 32, .ro, 0⟩, ⟨10, 10, .ro, 0⟩, ⟨9, 9, .ro, 0⟩, ⟨8, 8, .ro, 0⟩, ⟨5, 0, .ro, 0⟩]⟩,
  ⟨0x8, 1, 0x0, 1, 0x0, .always, [⟨62, 56, .rw, 0⟩, ⟨55, 48, .rw, 0⟩, ⟨47, 40, .rw, 0⟩, ⟨39, 32, .rw, 0⟩, ⟨31, 24, .rw, 0⟩, ⟨23, 16, .rw, 0⟩, ⟨15, 8, .rw, 0⟩, ⟨7, 0, .rw, 0⟩]⟩,
  ⟨0x10, 1, 0x0, 1, 0x0, .always, [⟨16, 0, .rw, 0⟩]⟩,
  ⟨0x18, 1, 0x0, 1, 0x0, .always, [⟨63, 0, .rw, 0⟩]⟩,
  ⟨0x20, 2, 0x8, 1, 0x0, .always, [⟨63, 48, .ro, 0⟩, ⟨47, 32, .ro, 0⟩, ⟨31, 16, .ro, 0⟩, ⟨15, 0, .ro, 0⟩]⟩,
  ⟨0x30, 1, 0x0, 1, 0x0, .always, [⟨63, 32, .rw, 0⟩, ⟨8, 8, .wo, 0⟩, ⟨1, 0, .rw, 0⟩]⟩,
  ⟨0x38, 1, 0x0, 1, 0x0, .always, [⟨63, 12, .rw, 0⟩]⟩,
  ⟨0x40, 1, 0x0, 1, 0x0, .always, [⟨63, 48, .ro, 0⟩, ⟨7, 7, .ro, 0⟩, ⟨6, 6, .ro, 0⟩, ⟨5, 4, .ro, 0⟩, ⟨0, 0, .w1c, 0⟩]⟩,
  ⟨0x48, 1, 0x0, 1, 0x0, .always, [⟨9, 0, .wo, 0⟩]⟩,
  ⟨0x50, 1, 0x0, 1, 0x0, .always, [⟨63, 32, .ro, 0⟩, ⟨31, 16, .ro, 0⟩, ⟨15, 0, .ro, 0⟩]⟩]

/-- The register table of block Sec. -/
def regTableSec : List RegSpec := [
  ⟨0x0, 1, 0x0, 1, 0x0, .always, [⟨2, 2, .ro, 0⟩, ⟨1, 0, .ro, 0⟩]⟩,
  ⟨0x8, 4, 0x8, 1, 0x0, .always, [⟨63, 0, .ro, 0⟩]⟩,
  ⟨0x28, 1, 0x0, 1, 0x0, .always, [⟨63, 0, .ro, 0⟩]⟩,
  ⟨0x30, 1, 0x0, 1, 0x0, .always, [⟨63, 0, .ro, 0⟩]⟩,
  ⟨0x40, 1, 0x0, 1, 0x0, .always, [⟨63, 12, .rw, 0⟩]⟩,
  ⟨0x48, 1, 0x0, 1, 0x0, .always, [⟨63, 32, .rw, 0⟩, ⟨8, 8, .wo, 0⟩]⟩,
  ⟨0x50, 1, 0x0, 1, 0x0, .always, [⟨63, 48, .ro, 0⟩, ⟨47, 40, .ro, 0⟩, ⟨2, 2, .w1c, 0⟩, ⟨1, 1, .ro, 0⟩, ⟨0, 0, .w1c, 0⟩]⟩,
  ⟨0x60, 1, 0x0, 1, 0x0, .always, [⟨63, 5, .rw, 0⟩]⟩,
  ⟨0x68, 1, 0x0, 1, 0x0, .always, [⟨63, 6, .rw, 0⟩]⟩,
  ⟨0x70, 1, 0x0, 1, 0x0, .always, [⟨63, 48, .ro, 0⟩, ⟨8, 8, .wo, 0⟩, ⟨2, 2, .w1c, 0⟩, ⟨1, 1, .ro, 0⟩, ⟨0, 0, .w1c, 0⟩]⟩,
  ⟨0x78, 1, 0x0, 1, 0x0, .always, [⟨63, 0, .ro, 0⟩]⟩]

/-- The register table of block Stc. -/
def regTableStc : List RegSpec := [
  ⟨0x0, 8, 0x1000, 1, 0x0, .always, [⟨15, 8, .rw, 0⟩, ⟨7, 0, .rw, 0⟩]⟩,
  ⟨0x8, 8, 0x1000, 1, 0x0, .always, [⟨63, 0, .rw, 0⟩]⟩,
  ⟨0x10, 8, 0x1000, 1, 0x0, .always, [⟨31, 0, .rw, 0⟩]⟩,
  ⟨0x18, 8, 0x1000, 1, 0x0, .always, [⟨63, 8, .rw, 0⟩]⟩,
  ⟨0x20, 8, 0x1000, 1, 0x0, .always, [⟨63, 0, .rw, 0⟩]⟩,
  ⟨0x28, 8, 0x1000, 1, 0x0, .always, [⟨63, 63, .rw, 0⟩, ⟨47, 0, .rw, 0⟩]⟩,
  ⟨0x30, 8, 0x1000, 1, 0x0, .always, [⟨0, 0, .wo, 0⟩]⟩,
  ⟨0x38, 8, 0x1000, 1, 0x0, .always, [⟨63, 48, .ro, 0⟩, ⟨47, 40, .ro, 0⟩, ⟨2, 2, .w1c, 0⟩, ⟨1, 1, .ro, 0⟩, ⟨0, 0, .w1c, 0⟩]⟩,
  ⟨0x40, 8, 0x1000, 1, 0x0, .always, [⟨63, 0, .ro, 0⟩]⟩,
  ⟨0x48, 8, 0x1000, 1, 0x0, .always, [⟨31, 0, .ro, 0⟩]⟩,
  ⟨0x50, 8, 0x1000, 8, 0x8, .always, [⟨63, 48, .ro, 0⟩, ⟨47, 32, .ro, 0⟩, ⟨31, 16, .ro, 0⟩, ⟨15, 0, .ro, 0⟩]⟩,
  ⟨0x8000, 1, 0x0, 1, 0x0, .always, [⟨8, 8, .wo, 0⟩, ⟨1, 0, .rw, 0⟩]⟩,
  ⟨0x8008, 1, 0x0, 1, 0x0, .always, [⟨63, 48, .ro, 0⟩, ⟨5, 5, .ro, 0⟩, ⟨4, 4, .w1c, 0⟩, ⟨3, 2, .ro, 0⟩, ⟨1, 0, .ro, 0⟩]⟩]

/-- The register table of the block at offset `b` × 16 MiB (R23). -/
def regTable (b : Nat) : List RegSpec :=
  match b with
  | 0 => regTableGlb
  | 1 => regTableSeq
  | 2 => regTableMed
  | 3 => regTableRcx
  | 4 => regTableVdeJpg
  | 5 => regTableImg
  | 6 => regTableTok
  | 7 => regTableThr
  | 8 => regTableFab
  | 9 => regTableXpt
  | 10 => regTableTsh
  | 11 => regTableCol
  | 12 => regTableTim
  | 13 => regTableLgr
  | 14 => regTableInt
  | 15 => regTableMgt
  | 16 => regTableSec
  | 18 => regTableStc
  | _ => []

end Sys2Proof.Machine
end

