-- ==== Sys2Proof/Machine/State.lean ====
section
/-! DEFINITION. The state of the GL9 as plain data, with the state after reset. -/

namespace Sys2Proof.Machine

/-! ## Timers, outputs and completions -/

/-- A timer and what it guards. -/
inductive Timer where
  | replay (p : Nat)          -- 4 µs without ACK progress (R353)
  | linkRx (p : Nat)          -- 10 µs without a valid frame (R356)
  | retrain (p : Nat)         -- 1 ms without lock in RETRAIN (R358)
  | down (p : Nat)            -- 100 ms between training attempts (R359)
  | heartbeat (p : Nat)       -- 4 ms without a heartbeat (R482)
  | heartbeatSend (p : Nat)   -- 1 ms between heartbeats sent (R482)
  | exchange (p : Nat)        -- 125 µs between time exchanges (R446)
  | syncLoss                  -- 1 ms without SYNC (R448)
  | accurate                  -- 1 ms after entry to HOLDOVER (R448)
  | lease                     -- 2 s of lease (R480)
  | retransmit (qp : Nat)     -- 16 µs without ACK progress (R383)
  | rnr (qp : Nat)            -- RNR_WAIT (R383)
  | roceAck (qp : Nat)        -- RoCEv2 Local ACK Timeout (R400)
  | colMove (k : Nat)         -- TIMEOUT_US without progress of a collective, k = 4 × group + SEQ mod 4 (R438)
  | wait (t : Nat)            -- WAIT timeout of a thread (R334)
  | watchdogAgain (c : Nat)   -- 1 s after a first watchdog expiry (R490)
  | selfRefresh               -- 1 ms after the last access in P2 or P3 (R197)
  | missEntry (qp : Nat)      -- a reservation of the miss buffer (R386)
  deriving DecidableEq, Repr

/-- What the device puts on its balls. -/
inductive OutMsg where
  | frame (port : Nat) (bytes : Bytes)
  | eth (port : Nat) (prio : Nat) (dst : Nat) (what : Nat) (payload : Bytes)
  | host (t : Txn)
  | relay (port : Nat) (t : Txn)
  | udp (dest : Sender) (bytes : Bytes)
  | smbus (bytes : Bytes)
  | smbusNack
  deriving DecidableEq, Repr

/-- How the last control-space or memory access completed. -/
structure Resp where
  status : Status
  data : Word
  deriving DecidableEq, Repr

/-! ## Management, interrupts, ledger and security -/

/-- A trace event (R478). -/
structure TraceEv where
  ft : Word
  kind : Byte
  fn : Byte
  block : Byte
  status : Status
  arg0 : Word
  arg1 : Word
  deriving DecidableEq, Repr

/-- An uncorrectable error kept for the ERRORS section (R477). -/
structure ErrRec where
  addr : Nat
  status : Status
  block : Nat
  deriving DecidableEq, Repr

/-- The interrupt controller (R492 to R497). -/
structure Irq where
  pend : List Nat                 -- pending sources, ascending
  service : List (Nat × Nat)      -- source in service, at target
  hostPend : List Nat             -- host-pending, in the order they became so
  hostService : List Nat          -- host-in-service
  count : List (Nat × Nat)        -- COUNT by source, 0 unlisted
  inst : List (Nat × Nat)         -- LAST_INST by source, 0 unlisted
  sig : List Nat                  -- state sources whose signal was 1 in the last cycle
  rot : Nat                       -- rotation pointer (R494)
  deriving DecidableEq, Repr

/-- One action of a recovery record (R484). -/
structure Action where
  code : Nat
  fn : Nat
  node : Nat
  epoch : Nat
  arg0 : Nat
  arg1 : Nat
  arg2 : Nat
  deriving DecidableEq, Repr

/-- Where a recovery record's reply goes (R510). -/
inductive ReplyTo where
  | net (s : Sender)
  | host (t : Txn) (src : HostSrc)
  deriving DecidableEq, Repr

/-- An accepted recovery record (R483, R485). -/
structure RecoveryRec where
  rsn : Nat
  actions : List Action
  stats : List Status             -- statuses of the actions that ended
  waiting : Bool                  -- the current action waits for its tick
  replyTo : List ReplyTo
  deriving DecidableEq, Repr

/-- The stored reply of a completed record (R483). -/
structure RecoveryReply where
  rsn : Nat
  status : Status
  stats : List Status
  count : Nat
  deriving DecidableEq, Repr

/-- A package flash slot (R522). -/
structure Slot where
  bytes : Bytes
  verified : Bool
  deriving DecidableEq, Repr

/-- A firmware operation in progress (R506). -/
structure FwOp where
  op : Nat
  len : Nat
  src : Nat
  prepared : Bool                 -- UPDATE: PREPARING has ended, and the handover waits for a tick
  deriving DecidableEq, Repr

/-- Management complex and host link (R489 to R511). -/
structure Mgt where
  slotA : Slot
  slotB : Slot
  slotSelect : Nat                -- the slot-select word (R539)
  fw : Option FwOp
  fwWait : Bool                   -- a firmware GO waits for a record write (R520)
  hostUp : Bool                   -- the host link is UP
  relayPort : Option Nat          -- relay port the index came from (R502)
  heldReqs : List (HostSrc × Txn) -- window accesses and records held in HANDOVER
  netUp : List Nat                -- management ports that are up
  heldNet : List (Bytes × Sender) -- recovery records of the management network held in HANDOVER
  completions : List Txn          -- completions not yet sent, oldest first; a RECORD under way keeps its place
  deriving DecidableEq, Repr

/-- A manifest in the signing queue (R139). -/
structure SignItem where
  fn : Nat
  batch : Nat
  deriving DecidableEq, Repr

/-- SEC and the record area of package flash (R512 to R526). -/
structure Sec where
  rootKey : Bytes                 -- Tabnoto root public key in boot ROM
  seed : Bytes                    -- the PUF seed, private to SEC (R513)
  pub : Bytes                     -- the public key derived from it
  records : List (Nat × Bytes)    -- record area: copy c of TYPE t at key 2t + c
  inForce : List (Nat × Nat)      -- copy in force of each TYPE
  bootUnits : Bytes               -- the UNITS record used at boot
  bootMedia : Bytes               -- the MEDIA record used at boot
  recOp : Option Bytes            -- the record being written
  quote : Option (Nat × Bytes)    -- the quote sampled, unsigned, and the address of its output
  signQ : List SignItem           -- signing queue, oldest first
  deriving DecidableEq, Repr

/-- Where the device stands between power-on and a running firmware. -/
inductive Phase where
  | running                       -- firmware runs
  | inReset (cause : Nat)         -- reset held or just requested; cause of the next boot
  | clockFault                    -- held in warm reset by a clock fault (R532)
  | tripped                       -- every clock outside VDD_AON stopped (R536)
  | dead                          -- the boot ROM started no firmware (R539)
  deriving DecidableEq, Repr

/-- Power, clocks, reset and pins. -/
structure Pwr where
  phase : Phase
  faultN : Bool                   -- FAULT_N level
  thermtripN : Bool               -- THERMTRIP_N level
  straps : Nat                    -- straps as latched
  cool : Nat                      -- thermal samples in a row below 103 °C
  calm : Nat                      -- current samples in a row below 95% of CORE_ILIMIT
  droop : Bool                    -- alternate pulses suppressed (R530)
  hostInv : Nat                   -- HOST_INV of the EEPROM record (R549)
  deriving DecidableEq, Repr

/-! ## Fabric time and barriers -/

/-- Time calibration of one port (R446). -/
structure PTime where
  sync : Option (Nat × Nat)       -- t1 and t2 of the last SYNC, in 2^-16 ns
  reqAt : Option Nat              -- t3 of the DELAY_REQ outstanding
  exchanges : Nat                 -- exchanges since UP
  syncs : Nat                     -- SYNCs since VALID
  delay : Int                     -- filtered d
  accurate : Bool                 -- ACCURATE of the last SYNC
  deriving DecidableEq, Repr

/-- One barrier (R452 to R456). -/
structure Bar where
  ports : List Nat                -- ports whose arrival is counted
  loc : Bool                      -- the local arrival is counted
  countdown : Option Int          -- remaining, in 2^-16 ns
  rft : Nat                       -- R_FT of the release under way
  deriving DecidableEq, Repr

/-- Fabric time (R441 to R451). -/
structure Tim where
  ft : BitVec 80
  sub : Nat                       -- fraction of 2^-16 ns, in 2^-48 ns
  rate : Nat                      -- advance per fabric cycle, in 2^-48 ns
  inBound : Nat                   -- exchanges in a row within 50 ps
  ports : List (Nat × PTime)
  bars : List (Nat × Bar)
  ppsAt : Option Nat              -- clk of the last captured 1PPS edge
  stepped : Nat                   -- how often FT has been stepped
  deriving DecidableEq, Repr

/-! ## Fabric ports, links and the switch -/

/-- A packet held in the switch: its virtual lane, class queue, bytes from the network (or relay) header
to the end of the payload, and the input port and units it still holds (R355, R357). -/
structure Pkt where
  vl : Nat
  queue : Nat
  bytes : Bytes
  inPort : Option Nat
  inUnits : Nat
  waited : Bool                   -- counted in GATE_WAITS (R411)
  what : Nat                      -- Ethernet: the message's operation, see OutMsg.eth; 0 on GF
  dst : Nat                       -- Ethernet: destination MAC
  deriving DecidableEq, Repr

/-- Credit of a shaper or policer: millibits at an integer-ns fabric time (R404). -/
structure Bucket where
  amount : Nat
  atNs : Nat
  deriving DecidableEq, Repr

/-- One port: its configuration in effect, its link layer and its scheduler (R345 to R359, R402 to R413). -/
structure Link where
  width : Nat                     -- width in effect, 0 where the lane starts no port
  relay : Bool
  precode : Bool
  cr : Bool
  attempt : Bool                  -- a DOWN port is training again
  gotInit : Bool                  -- an INIT has been received in INIT
  txSeq : Nat                     -- SEQ of the next DATA frame
  rxSeq : Nat                     -- expected SEQ
  acked : Nat                     -- SEQ below which everything is acknowledged
  replay : List (Nat × Nat × Bytes) -- unacknowledged frames: SEQ, virtual lane, bytes; oldest first
  resends : Nat                   -- resends in a row without progress
  credit : List Nat               -- by virtual lane
  allot : List Nat                -- the partner's ALLOT
  lastRet : List Nat              -- the last RET received
  ret : List Nat                  -- RET to send
  nakSent : Option Nat            -- clk of the last NAK since a frame was accepted
  queues : List (Nat × List Pkt)  -- output queues
  deficit : List (Nat × Nat)      -- by queue
  ptr : List (Nat × Nat)          -- round-robin pointer by level
  bucket : List (Nat × Bucket)    -- shaper credit by queue
  freeAt : Nat                    -- clk at which the frame being sent ends
  paused : List Nat               -- Ethernet priorities the partner has paused
  xoff : List Nat                 -- Ethernet priorities this port has paused
  ethHeld : List (Nat × Nat)      -- Ethernet: units held by priority
  gatePend : Option (Nat × Nat)   -- the gate list that waits: its ENTRIES and the FT at which it takes force
  gateEntry : Nat                 -- the gate entry in force
  deriving DecidableEq, Repr

/-- A virtual-lane record of ROUTES (R368). -/
structure VlRec where
  onDie : Nat
  lossy : Bool
  overflow : Nat
  deriving DecidableEq, Repr

/-- A policer's configuration (R414). -/
structure Policer where
  overhead : Int
  cir : Nat
  cbs : Nat
  deriving DecidableEq, Repr

/-- A packet delivered to XPT, COL or TIM: port and receive timestamp, and the network header's fields. -/
structure RxPkt where
  port : Nat
  time : Nat                      -- receive timestamp, in 2^-16 ns
  src : Nat
  tc : Nat
  flow : Nat
  epoch : Nat
  payload : Bytes
  deriving DecidableEq, Repr

/-- The switch. -/
structure Fab where
  boot : Bool                     -- boot mode (R371)
  maxHops : Nat
  vls : List VlRec
  tcMap : List Nat
  links : List (Nat × Link)
  policers : List (Nat × Policer) -- by 32 × port + class
  polBucket : List (Nat × Bucket)
  xptRx : List RxPkt
  colRx : List RxPkt
  timRx : List RxPkt
  relayRx : List (Nat × Txn)      -- relay frames received, with their port
  ethRx : List (Nat × EthFrame)   -- RoCE frames for the transport engine
  deriving DecidableEq, Repr

/-! ## Remote memory access -/

/-- A queue-pair setup record (R376). -/
structure QpSetup where
  mode : Nat
  tc : Nat
  pd : Nat
  peerNode : Nat
  port : Nat
  mtu : Nat
  peerQp : Nat
  psnTx : Nat
  psnRx : Nat
  creditMax : Nat
  prio : Nat
  dscp : Nat
  peerMac : Nat
  udpSrc : Nat
  peerIp : Nat
  recvHandle : Nat
  imm : Bool
  deriving DecidableEq, Repr

/-- A unit that issues transport requests (R396), and what its completion means to it. -/
inductive Issuer where
  | command                          -- TRANSPORT_REQUEST_ISSUE: the record is kept in Xpt.records
  | thread (t : Nat)                 -- a thread's load, store or atomic
  | wait (t : Nat)                   -- a poll of a WAIT
  | shard (f consumer : Nat)         -- a shard or manifest delivery
  | storage (set : Nat)              -- a storage command's buffer
  | loader                           -- the image of a loader request
  | replica (f pos tok : Nat)        -- a replica read (R160)
  deriving DecidableEq, Repr

/-- One part of a request under way (R396, R397). -/
structure PartSt where
  addrForm : Bool
  handle : Nat
  addr : Nat
  buf : Nat
  len : Nat
  sent : Nat                         -- bytes sent so far
  done : Nat                         -- bytes acknowledged or read so far
  status : Status
  deriving DecidableEq, Repr

/-- A transport request under way. -/
structure Req where
  id : Nat
  issuer : Issuer
  token : Nat
  kind : Nat                         -- 0 WRITE, 1 READ, 2 atomic
  ctl : Nat                          -- REMAIN of an atomic
  op1 : Nat
  op2 : Nat
  parts : List PartSt
  data : List (Nat × Nat × Bytes)    -- READ data staged: part, offset, bytes
  result : Nat                       -- an atomic's old value
  source : Bytes                     -- WRITE data given by value, where not in memory
  deriving DecidableEq, Repr

/-- A request packet sent and not yet handled by the peer. -/
structure TxPkt where
  psn : Nat
  req : Nat
  part : Nat
  off : Nat
  len : Nat
  stamp : Nat                        -- integer-ns FT at its last sending
  steps : Nat                        -- FT steps before that
  acked : Bool                       -- covered by an ACK
  answered : Bool                    -- its response has arrived
  deriving DecidableEq, Repr

/-- A completion record (R398). -/
structure Completion where
  issuer : Issuer
  token : Nat
  status : Status
  bytes : Nat
  parts : List Status
  data : Bytes                       -- READ data of an issuer without a buffer
  result : Nat
  deriving DecidableEq, Repr

/-- One queue pair (R376 to R400). -/
structure Qp where
  st : Nat                           -- 0 RESET, 1 READY, 2 ERROR
  setup : QpSetup
  err : Status
  psnTx : Nat                        -- next PSN to send
  psnRx : Nat                        -- PSN expected
  unhandled : List Nat               -- PSNs taken and neither landed nor refused
  seqNaked : Bool                    -- a SEQUENCE NAK has been sent for the expected PSN
  rnrAt : Option Nat                 -- PSN refused with RNR; later ones are dropped until it comes again
  reqs : List Req                    -- outstanding requests, oldest first
  flight : List TxPkt                -- packets sent and not handled, oldest first
  rnrFrom : Option Nat               -- resend from this PSN once RNR_WAIT has passed
  cwnd : Nat
  lastCut : Nat
  granted : Nat                      -- cumulative credits received
  unused : Nat                       -- credits held and not spent
  grants : Nat                       -- cumulative credits sent to the peer
  grantsUsed : Nat                   -- of them, seen used
  atomics : List (Nat × Nat)         -- PSN and result of the last 16 atomics, newest first
  msn : Nat                          -- RoCEv2 messages completed as a responder
  retries : Nat                      -- RoCEv2 retries left
  rnrRetries : Nat
  lastCnp : Option Nat               -- clk of the last CNP sent
  ringAt : Nat                       -- offset of the next record in the receive ring
  msg : Option (Nat × Nat)           -- RoCEv2 WRITE in progress: address and bytes left
  sendBuf : Bytes                    -- RoCEv2 SEND in progress: payload so far
  deriving DecidableEq, Repr

/-- A window (R388). -/
structure Win where
  base : Nat
  size : Nat
  pd : Nat
  access : Nat
  deriving DecidableEq, Repr

/-- A media-window read that waits for its codewords (R147): who asked and what. -/
inductive MediaAsk where
  | thread (serial t addr len : Nat)
  | remote (qp psn : Nat) (win : Nat) (addr len : Nat) (stamp : Nat)
  deriving DecidableEq, Repr

/-- The transport engine. -/
structure Xpt where
  qps : List (Nat × Qp)
  cached : List Nat                  -- queue pairs on die, least recently used first
  fetching : List Nat                -- queue pairs whose state is being fetched
  miss : List (Nat × RxPkt)          -- miss buffer: waiting packets, oldest first
  reserved : List (Nat × Nat)        -- miss-buffer entries reserved by queue pair (R386)
  windows : List (Nat × Win)
  store : Nat                        -- receive-store slots held (R394)
  nextReq : Nat
  records : List Completion          -- completions of TRANSPORT_REQUEST_ISSUE
  done : List Completion             -- completions their issuers have not taken yet
  destroying : Option Nat            -- queue pair whose DESTROY waits (R377)
  revoking : Option Nat              -- window whose REVOKE was commanded and is in progress (R389)
  deriving DecidableEq, Repr

/-! ## Media and storage commands -/

/-- A NAND block: its state (0 erased, 1 in use, 2 freed and not yet erased, 3 retired), erase count and read count
(R163, R170, R176). -/
structure Blk where
  st : Nat
  erases : Nat
  reads : Nat
  deriving DecidableEq, Repr

/-- A superblock (R148): the namespace it belongs to (0: the writable region), its members, the data pages programmed
(32 × page + member) and the pages whose stripe is protected (R149). -/
structure SupBlk where
  ns : Nat
  members : List Nat
  data : List Nat
  prot : List Nat
  deriving DecidableEq, Repr

/-- A namespace (R155, R156, R192). -/
structure Ns where
  kind : Nat                      -- 0 writable, 1 sealable
  cap : Nat
  isSealed : Bool
  ro : Bool
  wp : Nat                        -- write pointer
  sectors : Nat                   -- SECTORS once sealed
  sbs : List Nat                  -- superblocks in order
  deriving DecidableEq, Repr

/-- A relocation entry (R161). -/
structure Reloc where
  old : Nat
  new : Nat
  epoch : Nat
  deriving DecidableEq, Repr

/-- What the metadata area keeps (R147, R178). -/
structure MedMeta where
  ns : List (Nat × Ns)            -- by NSID
  sbs : List (Nat × SupBlk)       -- writable superblocks by number, the others from 2^20 on
  pmap : List (Nat × Nat)         -- page map: 2^48 × NSID + sector to index (R155)
  wNext : Option Nat              -- next place of the writable region
  reloc : List Reloc              -- live entries in order of commit
  epoch : Nat
  floor : Nat
  exported : Bool                 -- a MAP_EXPORT has been made
  raised : Bool                   -- a relocation has raised the epoch since the latest MAP_EXPORT (R164)
  blks : List (Nat × Blk)         -- by block address
  spareUsed : List (Nat × Nat)    -- blocks of the spare reserve in use, by channel
  counters : List Nat             -- the health log's counters (R179)
  gcHalted : Bool
  temps : List Bytes              -- temperature history, oldest first
  deriving DecidableEq, Repr

/-- A GC copy whose map update is to come (R174): page-map key, source and target index. -/
structure GcCopy where
  key : Nat
  src : Nat
  dst : Nat
  deriving DecidableEq, Repr

/-- A storage command that is BUSY (R182), in order of acceptance. -/
structure Task where
  set : Nat
  op : Nat
  nsid : Nat
  sector : Nat
  count : Nat
  buf : Nat
  len : Nat
  kind : Nat
  cap : Nat
  data : Bytes                    -- data from or for a buffer on another node
  rst : Nat                       -- that transfer: 0 not begun, 1 under way, 2 ended
  rcode : Status                  -- its status
  padded : Bool                   -- FLUSH, SEAL: stripes have been padded
  cover : List Nat                -- FLUSH, SEAL: places of the write buffer that it covers
  deriving DecidableEq, Repr

/-- The media engine and the storage command path. -/
structure Med where
  live : MedMeta
  saved : MedMeta                 -- as the metadata area holds it
  dirty : Bool                    -- a write has been accepted since the last FLUSH
  lost : Bool                     -- a power loss without FLUSH (R170)
  nand : List (Nat × Bytes)       -- programmed payloads by PCA
  wbuf : List (Nat × Bytes)       -- write buffer by place: ((superblock × 1024 + page) × 32 + member) × 4 + codeword
  queue : List Nat                -- over-limit blocks that wait for refresh (R171)
  repair : List Nat               -- blocks that wait for repair (R150)
  move : Option (Nat × Nat)       -- a relocation copied and not yet committed: OLD, NEW (R162)
  freeing : List Nat              -- OLD blocks freed under a new floor and not yet erased (R168)
  gc : List GcCopy
  gcSb : Option Nat               -- superblock being collected
  asks : List MediaAsk            -- media-window reads that wait for their codewords
  tasks : List Task
  rebuilds : List (Nat × Nat × Nat) -- by die: clk at which a second began, and step-5 codewords in it (R154)
  tj : Option (Int × Int)         -- highest and lowest Tj since the last history entry
  accessed : Bool                 -- an access has reached HBM in P2 or P3 and it is not yet back in self-refresh (R197)
  deriving DecidableEq, Repr

/-! ## Images, functions and the data path -/

/-- An endpoint of a blend (R62). -/
structure Endpoint where
  ep : Nat
  kind : Nat
  out : Bool
  port : Nat
  inst : Nat
  config : Nat
  deriving DecidableEq, Repr

/-- A channel of a blend (R63). -/
structure ChanRec where
  no : Nat
  prod : Nat
  cons : Nat
  buf : Nat
  spill : Nat
  credits : Nat
  deriving DecidableEq, Repr

/-- A region of HBM (R57); FUNCTION 0xFF for the device-wide one. -/
structure Region where
  fn : Nat
  kind : Nat
  retain : Bool
  base : Nat
  size : Nat
  deriving DecidableEq, Repr

/-- A resident section: its TYPE, placement and length (R54). -/
structure Sect where
  type : Nat
  addr : Nat
  len : Nat
  deriving DecidableEq, Repr

/-- A peer entry of KEYS (R67). -/
structure Peer where
  node : Nat
  replica : Bool
  key : Bytes
  deriving DecidableEq, Repr

/-- What a loaded function takes from its image (R50 to R72). -/
structure FnImage where
  imageId : Nat
  digest : Bytes
  regions : List Region
  sects : List Sect
  eps : List Endpoint
  chans : List ChanRec
  bwShare : Nat
  tcMask : Nat
  colLanes : Nat
  coreBase : Nat
  coreCount : Nat
  qpBase : Nat
  qpCount : Nat
  medSlots : List Nat
  seed : Bytes
  sign : Bool
  peers : List Peer
  deriving DecidableEq, Repr

/-- A granule: up to 256 bytes of one sample's stream, the last one of it, or a defect mark (R31, R211). -/
structure Granule where
  pos : Nat
  tok : Nat                       -- candidate number at the position, 1 the ordered sample
  idx : Nat                       -- sample index of that candidate
  data : Bytes
  last : Bool
  defect : Status
  deriving DecidableEq, Repr

/-- A channel at work: credits left to the producer and the granules in the buffer. -/
structure Chan where
  credits : Nat
  q : List Granule
  deriving DecidableEq, Repr

/-- A sample in flight (R92, R121). -/
structure Live where
  pos : Nat
  idx : Nat                       -- sample index of the candidate
  tok : Nat                       -- ATTEMPTS so far
  reason : Status                 -- the ordered sample's defect
  cause : Status                  -- the defect of the candidate now waiting to be replaced
  poolIdx : Nat                   -- POOL_INDEX, 0xFFFFFFFF for the ordered sample
  due : List (Nat × Nat)          -- due record by stage
  done : List Nat                 -- stages complete
  waiting : Bool                  -- a substitute has been chosen and waits for admission (R122)
  blocked : Bool                  -- waits on an exhausted pool (R123)
  crc : Nat                       -- INPUT_CRC (R125)
  hit : Bool                      -- the data comes from the Pond (R127)
  placed : Bool                   -- placed by the batch assembler
  deriving DecidableEq, Repr

/-- A manifest entry being filled (R137). -/
structure Slotted where
  pos : Nat
  sampleId : Nat
  orderedId : Nat
  poolIdx : Nat
  crc : Nat
  outLen : Nat
  reason : Status
  attempts : Nat
  deriving DecidableEq, Repr

/-- A global batch in assembly or delivery (R129 to R139). -/
structure Batch where
  no : Nat
  epoch : Nat
  memb : Option (Nat × Nat)       -- membership epoch and consumer count
  table : Bytes                   -- consumer table
  old : Bool                      -- it belongs to the image before a change
  image : List (Nat × Bytes)      -- outputs placed so far, by position: what the canonical image is made of
  slots : List Slotted            -- entries, newest first
  unitBytes : Nat
  unitCount : Nat
  whole : Bytes                   -- the canonical image, once every slot is placed
  planRecord : Nat
  deliverySteep : Nat
  manifest : Option Bytes         -- the whole manifest once built and signed
  signing : Bool                  -- it waits in the signing queue
  sent : List (Nat × Nat)         -- per consumer: 1 data issued, 2 data landed, 3 manifest issued, 4 delivered
  fails : List (Nat × Status)     -- held shards: consumer and status
  deriving DecidableEq, Repr

/-- A media read of a position's extent (R150, R152, R558): its codewords so far, each with whether it came from step
5 or 6. -/
structure MediaRead where
  pos : Nat
  tok : Nat
  cws : List (Bytes × Bool)
  failed : Nat                    -- 0 no, 1 failed under step 7, 2 steps 5 and 6 are to be repeated (R151)
  fin : Bool                      -- delivered, or closed by a defect
  deriving DecidableEq, Repr

/-- Membership in force or staged (R108 to R110). -/
structure Memb where
  epoch : Nat
  steep : Nat
  consumers : Nat
  table : Bytes
  deriving DecidableEq, Repr

/-- A function's run state beside its registers (R92 to R110). -/
structure FnRun where
  image : Option FnImage
  pendStart : Option (Nat × Nat)  -- a START waits: its tick, 0 for the next one, and its record
  pendUse : Bool                  -- that START has USE = 1
  pendStop : Bool
  pendKill : Bool
  bPrev : Nat                     -- ns of the last boundary
  cleanRecord : Nat               -- record after the last clean QUIESCE, or the record started at
  cursor : List (Nat × Nat × Nat) -- by stage: t and free of R92
  live : List Live                -- in ascending position
  pool : List (Nat × Nat)         -- next (R121) by epoch, 0 unlisted
  fills : List (Nat × Nat × Bytes) -- decoded forms on their way into the Pond: position, candidate, bytes so far
  memb : Option Memb
  staged : Option Memb
  reads : List MediaRead
  batches : List Batch            -- ascending
  delivered : Nat                 -- batches below this number have had a manifest issued
  overCounted : Bool              -- this steep's overrun is counted
  lag : Nat                       -- lag at the last boundary
  doneAt : Nat                    -- ns at which work last completed
  past : Bool                     -- the last record has run, and work of it is outstanding (R107)
  stalls : List (Nat × Status)    -- why STALLED: position or item, and status
  deriving DecidableEq, Repr

/-- A loader request under way (R73). -/
structure LoadReq where
  op : Nat
  fn : Nat
  src : Nat
  len : Nat
  deriving DecidableEq, Repr

/-- A request that has passed its checks (R74). -/
structure LoadCommit where
  op : Nat
  fn : Nat
  imageId : Nat
  steepNs : Nat
  det : Bool
  fns : List (Nat × FnImage)
  routes : Bytes
  shape : Bytes
  overflow : Option Region
  deriving DecidableEq, Repr

/-- A residue codec engine in a stream (R202 to R217). -/
structure RcxSt where
  stage : Nat                     -- next: 0 stream header, 1 frame header, 2 block, 3 trailer, 4 end
  total : Nat                     -- TOTAL_LEN
  frames : Nat                    -- frames still to come
  written : Nat                   -- output bytes so far
  hdr : Bytes                     -- header of the frame in progress
  rows : Nat                      -- rows of it still to come
  up : List Nat                   -- history row or previous row
  ctx : List (Nat × Nat)          -- contexts A, N
  crc : Nat                       -- CRC-32C register over the frame's output
  deriving DecidableEq, Repr

/-- A BPE lane in a sample (R255 to R259). -/
structure BpeSt where
  off : Nat                       -- bytes formed into units
  prev : Option Nat               -- class of the last unit
  piece : Bytes                   -- the piece being joined
  tokens : Nat                    -- tokens written
  begun : Bool                    -- BOS has been dealt with
  deriving DecidableEq, Repr

/-- A mask unit in a sequence (R261 to R265). -/
structure MaskSt where
  headed : Bool                   -- the chunk header has been checked
  fin : Bool                      -- END, or a whole sequence
  key : Nat
  seq : Nat
  left : Option Nat               -- tokens of the chunk still to come
  state : Nat
  stack : List Nat                -- top first
  terminal : Bool
  failed : Bool
  pos : Nat                       -- positions processed
  outLen : Nat                    -- output bytes so far
  deriving DecidableEq, Repr

/-- A video decoder in a sample (R226 to R232). -/
structure VdeSt where
  hdr : Bytes                     -- the video sample header
  saved : Bytes                   -- private bytes of the restored context
  k : Nat                         -- pictures decoded
  shown : Nat                     -- output pictures so far
  selected : Nat
  written : Nat
  deriving DecidableEq, Repr

/-- An image engine in a sample (R237 to R248). -/
structure ImgSt where
  pic : Nat                       -- pictures processed
  len0 : Nat                      -- output bytes on port 0
  len1 : Nat                      -- output bytes on port 1
  out1 : Bytes                    -- output of port 1 not yet cut into granules
  deriving DecidableEq, Repr

/-- What an engine keeps besides the common part. -/
inductive EngSt where
  | none
  | rcx (s : RcxSt)
  | vde (s : VdeSt)
  | jpg (scan : Nat)
  | img (s : ImgSt)
  | bpe (s : BpeSt)
  | mask (s : MaskSt)
  | detok (outLen : Nat)
  | splice (src : Nat)
  deriving DecidableEq, Repr

/-- The state of an engine on one sample, common to every engine kind. -/
structure Eng where
  pos : Nat
  tok : Nat
  idx : Nat                       -- sample index of the candidate
  active : Bool                   -- a sample is being processed
  skip : Bool                     -- the rest of its input is discarded (R211)
  units : Nat                     -- work units counted (R94)
  buf : Bytes                     -- input bytes arrived and not consumed
  arrived : Bool                  -- the last granule has arrived
  mark : Status                   -- the defect mark that arrived, 0 for none
  out : Bytes                     -- output not yet cut into granules
  st : EngSt
  deriving DecidableEq, Repr

/-- Sequencer, loader, blend crossbar, batch assembler. -/
structure Seq where
  fns : List (Nat × FnRun)
  req : Option LoadReq
  pend : Option LoadCommit
  abortLine : Bool                -- the request was withdrawn while it was checked
  overflow : Option Region        -- packet-overflow region in force
  chans : List (Nat × Chan)
  inQ : List (Nat × List Granule) -- by input endpoint: consumed and waiting
  outQ : List (Nat × List Granule) -- by output endpoint: waiting for credit
  engs : List (Nat × Eng)         -- by 4096 × unit kind + logical number
  roi : List (Nat × List (Nat × Nat × Nat)) -- by image engine: stream key, last frame processed, the producer's due record for it
  merged : List (Nat × List (Nat × Nat)) -- by splice: positions and candidates a MERGE has forwarded (R65)
  armedAt : Nat                   -- ns FT at which the ticks were last armed
  deriving DecidableEq, Repr

/-! ## Thread array (R294 to R318, R322) -/

/-- A tile: its type tag and its elements by 32 × m + n, 0 unlisted. -/
structure Tile where
  int : Bool
  el : List (Nat × Nat)
  deriving DecidableEq, Repr

/-- What an access of a thread beyond this device's HBM and scratch has brought. -/
structure Fetched where
  addr : Nat
  len : Nat
  status : Status
  data : Bytes
  deriving DecidableEq, Repr

/-- One hardware thread at work. -/
structure Thread where
  s : List (Nat × Word)           -- scalar registers, 0 unlisted
  v : List (Nat × Nat)            -- vector registers as 1,024-bit numbers, 0 unlisted
  t : List (Nat × Tile)           -- tiles, FP32 zero unlisted
  p : Nat                         -- predicates p1 to p15 as bits
  pc : Nat                        -- code address (R335)
  flags : Nat
  drawptr : Word
  st : Nat                        -- 0 runs, 1 halted, 2 at a BAR, 3 in a WAIT
  out : Nat                       -- requests outstanding for the instruction at hand
  got : List Fetched
  sent : Bool                     -- the stores or the atomic of the instruction at hand have been issued
  fail : Option (Status × Nat)    -- the first of them that failed, with its address
  old : Nat                       -- the old value of its atomic
  deriving DecidableEq, Repr

/-- An attempt (R297). -/
structure Attempt where
  serial : Nat
  q : Nat
  i : Nat
  gen : Nat
  core : Nat
  pos : Nat
  sid : Nat
  epoch : Nat
  start : Nat                     -- clk at its start
  retired : Nat
  threads : List Thread
  deriving DecidableEq, Repr

/-- An item admitted and not yet emitted (R296, R301). -/
structure ThrItem where
  i : Option Nat                  -- item index; none for a sample that arrived with a defect mark
  pos : Nat
  tok : Nat
  idx : Nat
  len : Nat
  core : Nat                      -- core to which it is issued
  gens : List Nat                 -- generations at which it was issued, newest first
  begun : Bool                    -- its newest issue has begun
  again : Bool                    -- that issue is a new attempt under R302
  result : Option (Status × Bytes) -- once accepted: 0 or the defect, and the output
  stalled : Nat                   -- 0 no, 1 tried again at boundaries, 2 for good (R338)
  deriving DecidableEq, Repr

/-- A thread-array queue beside its registers. -/
structure ThrQ where
  next : Nat                      -- items numbered so far
  items : List ThrItem            -- in order of admission
  deriving DecidableEq, Repr

/-- The thread array. -/
structure Thr where
  qs : List (Nat × ThrQ)
  atts : List (Nat × Attempt)     -- by the first hardware thread: 16 × core + thread
  serial : Nat
  reqs : List (Nat × Bool)        -- withdrawals (true) and restores that wait for a tick
  deriving DecidableEq, Repr

/-! ## Collectives (R418 to R440) -/

/-- An input of a group (R435): KIND 1 LOCAL, 2 NODE, 3 REMOTE. -/
structure ColInput where
  kind : Nat
  node : Nat
  group : Nat
  lo : Nat
  hi : Nat
  ctrl : Nat
  deriving DecidableEq, Repr

/-- What one input has sent for one SEQ, or what the parent has sent back: entries by index, how many there are once
the last packet has come, the status of a failure, and the sticky flags of a result. -/
structure ColGot where
  entries : List (Nat × Bytes)
  total : Option Nat
  fail : Status
  flags : Nat
  deriving DecidableEq, Repr

/-- An execution in progress of a group's program. -/
structure ColRun where
  seq : Nat
  ins : List ColGot               -- by input
  order : List Nat                -- the inputs in the order in which they ended (R434)
  up : Bool                       -- the partial, or the failure, has gone to the parent
  res : ColGot                    -- from the parent
  stalled : Bool
  deriving DecidableEq, Repr

/-- An installed group (R435). -/
structure ColGroup where
  fn : Nat
  program : Nat
  gen : Nat
  tc : Nat
  rootOnly : Bool
  ranks : Nat
  root : Nat
  lo : Nat
  hi : Nat
  parentNode : Nat
  parentGroup : Nat
  count : Nat
  workBase : Nat
  workBytes : Nat
  timeoutUs : Nat
  inputs : List ColInput
  next : Nat                      -- lowest SEQ not yet completed
  runs : List ColRun              -- in progress, ascending SEQ
  deriving DecidableEq, Repr

/-- A group command that waits for its tick: OP, GROUP, record address, TICK. -/
structure ColCmd where
  op : Nat
  group : Nat
  addr : Nat
  tick : Nat
  deriving DecidableEq, Repr

/-- The collective engine. -/
structure Col where
  groups : List (Nat × ColGroup)
  cmd : Option ColCmd
  deriving DecidableEq, Repr

/-! ## The ledger and fault state -/

/-- What is latched in the cycle of a fatal cause (R475, R477): what the engines that stop do not keep themselves. -/
structure Latch where
  regs : List (Nat × Word)
  clk : Nat
  timers : List (Timer × Nat)
  irq : Irq
  tim : Tim
  fab : Fab
  ports : List (Nat × Nat)
  deriving DecidableEq, Repr

/-- The ledger and fault state beside its registers. -/
structure Lgr where
  trace : List TraceEv            -- newest first, at most 4,096 (R478)
  errors : List ErrRec            -- oldest first, at most 256 (R477)
  ports : List (Nat × Nat)        -- ISSUED and RETIRED of the port pools, by 4 × port + 2 × (KIND - 0x12) + 1 for RETIRED
  latch : Option Latch
  queue : List RecoveryRec        -- waiting or running, in order of acceptance
  replies : List RecoveryReply    -- of the last 64 records, newest first
  accepted : List Nat             -- RSNs of the last 64 accepted, newest first
  deriving DecidableEq, Repr

/-! ## The device -/

/-- Everything the device holds beside the queue of waiting commands. -/
structure Dev where
  regs : List (Nat × Word)        -- registers off their reset value, by control-space offset
  mem : List Host.Cell            -- HBM and scratch by local address, bytes off 0
  clk : Nat                       -- time since power-on, in 1/8 ns
  timers : List (Timer × Nat)     -- running timers and their deadlines
  resp : Resp
  sent : List OutMsg              -- what the balls have carried outward, oldest first
  free : Nat                      -- values drawn from Config.freeWord so far
  irq : Irq
  lgr : Lgr
  mgt : Mgt
  sec : Sec
  pwr : Pwr
  tim : Tim
  fab : Fab
  xpt : Xpt
  med : Med
  thr : Thr
  col : Col
  seq : Seq
  deriving DecidableEq, Repr

/-- The machine: the device and the commands that wait, first in first out. -/
structure State where
  dev : Dev
  pending : List Instr
  deriving DecidableEq, Repr

/-! ## Reset (R538 to R540)

The state right after reset: boot has run (R539, R540), firmware is ready, and nothing else has happened.
What boot read from package flash, and so every field that the spec marks "boot", is a choice of this model:
a grade A device with every unit enabled, identity OK, unowned, firmware in slot A (log entry 3). -/

/-- A lane's port as boot mode has it (R371), its link layer fresh. -/
def Link.boot : Link :=
  { width := 1, relay := true, precode := false, cr := false, attempt := true, gotInit := false, txSeq := 0, rxSeq := 0,
    acked := 0, replay := [], resends := 0, credit := List.replicate 8 0, allot := List.replicate 8 0,
    lastRet := List.replicate 8 0, ret := List.replicate 8 0, nakSent := none, queues := [], deficit := [],
    ptr := [], bucket := [], freeAt := 0, paused := [], xoff := [], ethHeld := [], gatePend := none,
    gateEntry := 0 }

/-- The switch in boot mode (R371): VL6 and VL7 have ON_DIE 128, the others none. -/
def Fab.bootMode : Fab :=
  { boot := true, maxHops := 1,
    vls := List.replicate 6 ⟨0, false, 0⟩ ++ List.replicate 2 ⟨128, false, 0⟩,
    tcMap := List.replicate 32 0, links := [], policers := [], polBucket := [], xptRx := [], colRx := [],
    timRx := [], relayRx := [], ethRx := [] }

/-- The nominal rate: 0.625 ns per fabric cycle, which is 40,960 units of 2^-16 ns (R441). -/
def nominalRate : Nat := 40960 * 2 ^ 32

def PTime.fresh : PTime := ⟨none, none, 0, 0, 0, false⟩
def Bar.idle : Bar := ⟨[], false, none, 0⟩

def Tim.reset : Tim :=
  { ft := 0, sub := 0, rate := nominalRate, inBound := 0, ports := [], bars := [], ppsAt := none, stepped := 0 }

def Irq.reset : Irq :=
  { pend := [], service := [], hostPend := [], hostService := [], count := [], inst := [], sig := [], rot := 0 }

def Lgr.reset : Lgr :=
  { trace := [], errors := [], ports := [], latch := none, queue := [], replies := [], accepted := [] }

def Xpt.reset : Xpt :=
  { qps := [], cached := [], fetching := [], miss := [], reserved := [], windows := [], store := 0, nextReq := 0,
    records := [], done := [], destroying := none, revoking := none }

/-- A function that is not loaded. -/
def FnRun.unloaded : FnRun :=
  { image := none, pendStart := none, pendUse := false, pendStop := false, pendKill := false, bPrev := 0, cleanRecord := 0,
    cursor := [], live := [], pool := [], fills := [], memb := none, staged := none, reads := [], batches := [],
    delivered := 0, overCounted := false, lag := 0, doneAt := 0, past := false, stalls := [] }

/-- The map state of a device that has never written to its flash: map epoch 1 (R164). -/
def MedMeta.new : MedMeta :=
  { ns := [], sbs := [], pmap := [], wNext := none, reloc := [], epoch := 1, floor := 0, exported := false, raised := false,
    blks := [], spareUsed := [], counters := List.replicate 17 0, gcHalted := false, temps := [] }

def Med.reset : Med :=
  { live := MedMeta.new, saved := MedMeta.new, dirty := false, lost := false, nand := [], wbuf := [], queue := [], repair := [],
    move := none, freeing := [], gc := [], gcSb := none, asks := [], tasks := [], rebuilds := [], tj := none,
    accessed := false }

def Thr.reset : Thr := { qs := [], atts := [], serial := 0, reqs := [] }

def Col.reset : Col := ⟨[], none⟩

def Seq.reset : Seq :=
  { fns := [], req := none, pend := none, abortLine := false, overflow := none, chans := [], inQ := [], outQ := [],
    engs := [], roi := [], merged := [], armedAt := 0 }

/-- The seed that the reset state's PUF gives (log entry 3). -/
def bootSeed : Bytes :=
  be 32 0x9d61b19deffd5a60ba844af492ec2cc44449c5697b326919703bac031cae7f60
/-- The device public key that belongs to it. -/
def bootPub : Bytes := be 32 0xd75a980182b10ab7d54bfed3c964073a0ee172f3daa62325af021a68f707511a
/-- Its key ID. -/
def bootKeyId : Nat := 0xaabab42502a5020e
/-- The Tabnoto root public key in boot ROM (log entry 3). -/
def rootPub : Bytes := be 32 0x3d4017c3e843895a92b70aa74d1b7ebc9c982ccf2ec4968cc0cd55f12af4660c

/-- A record's 64-byte header (R516). -/
def recHeader (type signer len seq dev : Nat) : Bytes :=
  [0x47, 0x4C, 0x53, 0x52, 0x45, 0x43, 0x30, 0x31] ++ le 2 1 ++ le 1 type ++ le 1 signer ++ le 4 len ++ le 8 seq
    ++ le 8 dev ++ List.replicate 32 0

/-- The HELPER record of the reset state. -/
def flashHelper : Bytes :=
  recHeader 1 1 8192 1 bootKeyId ++ List.replicate 8192 0 ++ be 64
    0x96f96a157c5dee594a7f9a9adc2201189b6b41e99cc7e424e61571dfdfde4f374aa0d69a8fbbf3b6a56c4bc1e8b9ecd6011b4cb057c3ef236eb658962aed9f09
/-- The DEVICE_CERT record of the reset state. -/
def flashCert : Bytes :=
  recHeader 2 1 64 1 bootKeyId ++ bootPub ++ le 2 0x6109 ++ le 2 0x0101 ++ [1] ++ List.replicate 27 0 ++ be 64
    0xadefb336a681a866597caa72e439fdb32ef092f7dcb4e20eb2403785f072371206e680d89a8d504af572bd2b0053079270029cb8de48b675224e7483e21f860b
/-- The UNITS record of the reset state: grade A, nothing disabled. -/
def flashUnits : Bytes :=
  recHeader 3 1 184 1 bootKeyId ++ [1] ++ List.replicate 183 0 ++ be 64
    0xa77e273e86c2f458e85e538efb2ce1fbadc519a56a258d168aca8448d97a8dea14ae42ddd45c6cc8f69c2700d555625607c452befe9de94eed2cc652a301630c
/-- The MIN_VERSION record of the reset state: version 0. -/
def flashMinVersion : Bytes :=
  recHeader 5 1 16 1 bootKeyId ++ List.replicate 16 0 ++ be 64
    0xdcedfdaab35a94761e17abc5b02bb0600f79c9bbd14eaaf4c6721650f94490800a6cac8256a8e5f55bbb6bd78c0a95d70ab2f7710a90599cfa04744e0068e007
/-- The firmware image in slot A of the reset state: version 1.0.0.0, an empty body. -/
def bootFirmware : Bytes :=
  [0x47, 0x4C, 0x46, 0x57, 0x49, 0x4D, 0x47, 0x31] ++ le 2 1 ++ List.replicate 6 0 ++ le 8 0x0001000000000000
    ++ le 8 256 ++ le 4 1 ++ le 4 1 ++ List.replicate 24 0 ++ be 64
    0xcf83e1357eefb8bdf1542850d66d8007d620e4050b5715dc83f4a921d36ce9ce47d0d13c5d85f2b0ff8318d2877eec2f63b931bd47417a81a538327af927da3e
    ++ List.replicate 64 0 ++ be 64
    0x0e26ef57ec52ad51503b09a288324a6afe272bef2a06df2db3a99cbea828b42085bb1131c3f72a66a73cc9b79df24a1e238c3c6031017bc0a1865f75af8b150b

def Mgt.reset : Mgt :=
  { slotA := ⟨bootFirmware, true⟩, slotB := ⟨[], false⟩, slotSelect := 0, fw := none, fwWait := false, hostUp := false,
    relayPort := none, heldReqs := [], netUp := [], heldNet := [], completions := [] }

def Sec.reset : Sec :=
  { rootKey := rootPub, seed := bootSeed, pub := bootPub,
    records := [(2, flashHelper), (4, flashCert), (6, flashUnits), (10, flashMinVersion)],
    inForce := [(1, 0), (2, 0), (3, 0), (5, 0)], bootUnits := flashUnits, bootMedia := [], recOp := none, quote := none,
    signQ := [] }

def Pwr.reset : Pwr :=
  { phase := .running, faultN := true, thermtripN := true, straps := 0, cool := 0, calm := 0, droop := false, hostInv := 0 }

/-- The registers that boot has set (R6, R505, R526, R539 to R541). -/
def Regs.reset : List (Nat × Word) :=
  [(R.GLB_ID, 0x0000610901010001), (R.GLB_UNITS, 0x0010020810810400),
   (R.GLB_RESET_CAUSE, 0x01), (R.GLB_BOOT, 0x87),
   (R.MGT_FW_VERSION 0, 0x0001000000000000),
   (R.SEC_STATUS, 0x1), (R.SEC_DEVICE_KEY 0, 0xb70ab18201985ad7), (R.SEC_DEVICE_KEY 1, 0x3a0764c9d3fe4bd5),
   (R.SEC_DEVICE_KEY 2, 0x2523a6daf372e10e), (R.SEC_DEVICE_KEY 3, 0x1a5107f7681a02af)]

def Dev.reset : Dev :=
  { regs := Regs.reset, mem := [], clk := 0, timers := [], resp := ⟨0, 0⟩, sent := [], free := 0, irq := Irq.reset,
    lgr := Lgr.reset, mgt := Mgt.reset, sec := Sec.reset, pwr := Pwr.reset, tim := Tim.reset, fab := Fab.bootMode,
    xpt := Xpt.reset, med := Med.reset, thr := Thr.reset, col := Col.reset, seq := Seq.reset }

/-- The machine right after reset, nothing waiting. -/
def State.reset : State := { dev := Dev.reset, pending := [] }

/-! ## Reasons to stop -/

/-- Reasons a step could fault. No meaning of this model raises one: the manual gives every access and
every command an effect. -/
inductive Fault where
  /-- Raised by nothing; it stands so that the type is not empty. Safe. -/
  | none
  deriving DecidableEq, Repr

/-- Reasons a command could be refused. -/
inductive Refusal where
  /-- Raised by an arm of exec whose command has no meaning yet. Safe: the model stops. -/
  | notModelled (mnemonic : String)
  deriving DecidableEq, Repr

end Sys2Proof.Machine
end

