-- ==== Sys2Proof/Machine/Status.lean ====
section
/-! DEFINITION. The statuses of the master list (R487), by the list's names. -/

namespace Sys2Proof.Machine.St

/-- OK (R20). -/
def ok : Status := 0x0000
/-- ACCESS_SIZE (R14). -/
def accessSize : Status := 0x0103
/-- ADDRESS_UNMAPPED (R26, R44, R379). -/
def addressUnmapped : Status := 0x0104
/-- DESCRIPTOR_INVALID (R316). -/
def descriptorInvalid : Status := 0x0105
/-- MISALIGNED (R327). -/
def misaligned : Status := 0x0106
/-- PORT_CONFIG_INVALID (R375). -/
def portConfigInvalid : Status := 0x0107
/-- IMAGE_FORMAT (R51). -/
def imageFormat : Status := 0x0110
/-- SECTION_INVALID (R53, R54). -/
def sectionInvalid : Status := 0x0111
/-- LAYOUT_INVALID (R58, R59). -/
def layoutInvalid : Status := 0x0112
/-- STEEP_LENGTH (R56). -/
def steepLength : Status := 0x0113
/-- BLEND_INVALID (R63, R64, R69). -/
def blendInvalid : Status := 0x0114
/-- MODE_MISMATCH (R56). -/
def modeMismatch : Status := 0x0115
/-- OP_INVALID (R75, R101, R186). -/
def opInvalid : Status := 0x0116
/-- TARGET_MISMATCH (R56). -/
def targetMismatch : Status := 0x0117
/-- PLAN_INVALID (R91). -/
def planInvalid : Status := 0x0118
/-- PLAN_OVERBOOKED (R88). -/
def planOverbooked : Status := 0x0119
/-- ORDER_INVALID (R116). -/
def orderInvalid : Status := 0x011A
/-- SUBST_INVALID (R120). -/
def substInvalid : Status := 0x011B
/-- MAP_INVALID (R159). -/
def mapInvalid : Status := 0x011C
/-- MAP_FLOOR_INVALID (R168). -/
def mapFloorInvalid : Status := 0x011D
/-- MEMBERSHIP_INVALID (R109). -/
def membershipInvalid : Status := 0x0120
/-- WRITE_POINTER (R187, R188). -/
def writePointer : Status := 0x0121
/-- NS_KIND (R187). -/
def nsKind : Status := 0x0122
/-- NSID_INVALID (R187). -/
def nsidInvalid : Status := 0x0123
/-- RCX_CONFIG_INVALID (R214). -/
def rcxConfigInvalid : Status := 0x0124
/-- VDE_CONFIG_INVALID (R250). -/
def vdeConfigInvalid : Status := 0x0125
/-- JPG_CONFIG_INVALID (R250). -/
def jpgConfigInvalid : Status := 0x0126
/-- IMG_CONFIG_INVALID (R250). -/
def imgConfigInvalid : Status := 0x0127
/-- VOCAB_INVALID (R268). -/
def vocabInvalid : Status := 0x0128
/-- GRAMMAR_INVALID (R268). -/
def grammarInvalid : Status := 0x0129
/-- TOK_CONFIG_INVALID (R268). -/
def tokConfigInvalid : Status := 0x012A
/-- THR_CONFIG_INVALID (R295, R344). -/
def thrConfigInvalid : Status := 0x012B
/-- KERNELS_INVALID (R343). -/
def kernelsInvalid : Status := 0x012C
/-- DRAW_RANGE (R326). -/
def drawRange : Status := 0x012D
/-- COMPLETION_INVALID (R336). -/
def completionInvalid : Status := 0x012E
/-- PC_INVALID (R335). -/
def pcInvalid : Status := 0x012F
/-- TILE_INVALID (R332). -/
def tileInvalid : Status := 0x0130
/-- ROUTES_INVALID (R369). -/
def routesInvalid : Status := 0x0131
/-- WINDOW_INVALID (R388). -/
def windowInvalid : Status := 0x0132
/-- QP_INVALID (R377). -/
def qpInvalid : Status := 0x0133
/-- SHAPE_INVALID (R413, R415). -/
def shapeInvalid : Status := 0x0134
/-- COL_PROGRAM_INVALID (R422). -/
def colProgramInvalid : Status := 0x0135
/-- COL_GROUP_INVALID (R436). -/
def colGroupInvalid : Status := 0x0136
/-- COL_SHAPE_MISMATCH (R430). -/
def colShapeMismatch : Status := 0x0137
/-- RECOVERY_INVALID (R483). -/
def recoveryInvalid : Status := 0x0138
/-- KEYS_INVALID (R67). -/
def keysInvalid : Status := 0x0139
/-- TABLES_INVALID (R68, R69). -/
def tablesInvalid : Status := 0x013A
/-- LENGTH_EXCEEDS_BUFFER (R16). -/
def lengthExceedsBuffer : Status := 0x0201
/-- LENGTH_RESERVED (R15). -/
def lengthReserved : Status := 0x0202
/-- MEDIA_UNCORRECTABLE (R151). -/
def mediaUncorrectable : Status := 0x0301
/-- MEDIA_READ_ONLY (R176, R187). -/
def mediaReadOnly : Status := 0x0302
/-- MEDIA_OFFLINE (R147, R178). -/
def mediaOffline : Status := 0x0303
/-- MEDIA_PROFILE (R143, R178). -/
def mediaProfile : Status := 0x0304
/-- METADATA_CORRUPT (R178). -/
def metadataCorrupt : Status := 0x0305
/-- WINDOW_CLOSED (R382, R389). -/
def windowClosed : Status := 0x0401
/-- DOMAIN_MISMATCH (R45, R382). -/
def domainMismatch : Status := 0x0402
/-- READ_ONLY_REGION (R44, R382). -/
def readOnlyRegion : Status := 0x0403
/-- ACCESS_DENIED (R25, R44, R309, R382). -/
def accessDenied : Status := 0x0404
/-- OWNER_KEY_MISMATCH (R71). -/
def ownerKeyMismatch : Status := 0x0410
/-- FUNCTION_STOPPED (R102, R106, R378). -/
def functionStopped : Status := 0x0501
/-- FENCED (R41, R392, R481, R484). -/
def fenced : Status := 0x0502
/-- NODE_ID_UNASSIGNED (R42). -/
def nodeIdUnassigned : Status := 0x0503
/-- LOADER_BUSY (R75). -/
def loaderBusy : Status := 0x0510
/-- REQUEST_PENDING (R75, R199, R365). -/
def requestPending : Status := 0x0511
/-- FUNCTIONS_LOADED (R74). -/
def functionsLoaded : Status := 0x0513
/-- FUNCTION_NOT_LOADED (R74, R102). -/
def functionNotLoaded : Status := 0x0514
/-- FUNCTION_RUNNING (R74, R199, R484). -/
def functionRunning : Status := 0x0515
/-- LOAD_ABORTED (R79, R106). -/
def loadAborted : Status := 0x0516
/-- TICK_PASSED (R102, R365, R436). -/
def tickPassed : Status := 0x0517
/-- EPOCH_NOT_NEWER (R109, R484). -/
def epochNotNewer : Status := 0x0518
/-- STEEP_PASSED (R109). -/
def steepPassed : Status := 0x0519
/-- TICKS_NOT_RUNNING (R102). -/
def ticksNotRunning : Status := 0x051A
/-- RESUME_INVALID (R102). -/
def resumeInvalid : Status := 0x051B
/-- DEVICE_NOT_LOADED (R74). -/
def deviceNotLoaded : Status := 0x051C
/-- MAP_FLOOR_IN_USE (R168). -/
def mapFloorInUse : Status := 0x0521
/-- NS_NOT_FOUND (R187). -/
def nsNotFound : Status := 0x0522
/-- NS_EXISTS (R187). -/
def nsExists : Status := 0x0523
/-- NS_IN_USE (R187, R193). -/
def nsInUse : Status := 0x0524
/-- NS_BUSY (R187). -/
def nsBusy : Status := 0x0525
/-- NS_SEALED (R187). -/
def nsSealed : Status := 0x0526
/-- NS_NOT_SEALED (R187). -/
def nsNotSealed : Status := 0x0527
/-- POWER_STATE (R201). -/
def powerState : Status := 0x0528
/-- POWER_ENTRY_ABANDONED (R200). -/
def powerEntryAbandoned : Status := 0x0529
/-- DET_FORBIDDEN (R313, R329). -/
def detForbidden : Status := 0x052A
/-- QP_STATE (R377). -/
def qpState : Status := 0x0532
/-- WINDOW_STATE (R388). -/
def windowState : Status := 0x0533
/-- GROUP_STATE (R436). -/
def groupState : Status := 0x0534
/-- COL_REGROUPED (R437). -/
def colRegrouped : Status := 0x0535
/-- RSN_STALE (R483). -/
def rsnStale : Status := 0x0536
/-- TABLE_FULL (R485). -/
def tableFull : Status := 0x0601
/-- UNITS_INSUFFICIENT (R8). -/
def unitsInsufficient : Status := 0x0602
/-- SRAM_EXHAUSTED (R64). -/
def sramExhausted : Status := 0x0610
/-- CROSSBAR_EXHAUSTED (R64). -/
def crossbarExhausted : Status := 0x0611
/-- RESOURCE_CONFLICT (R64). -/
def resourceConflict : Status := 0x0612
/-- RESERVATION_EXCEEDED (R64). -/
def reservationExceeded : Status := 0x0613
/-- CONTEXTS_EXHAUSTED (R250). -/
def contextsExhausted : Status := 0x0614
/-- SEQUENCES_EXHAUSTED (R268). -/
def sequencesExhausted : Status := 0x0615
/-- PACKET_BUFFER_EXHAUSTED (R369). -/
def packetBufferExhausted : Status := 0x0616
/-- POOL_EXHAUSTED (R123). -/
def poolExhausted : Status := 0x0620
/-- CHECK_VALUE_MISMATCH (R210). -/
def checkValueMismatch : Status := 0x0701
/-- OUTPUT_LIMIT (R135, R210, R236). -/
def outputLimit : Status := 0x0702
/-- DECODE_ERROR (R202, R236, R336). -/
def decodeError : Status := 0x0703
/-- WORK_CAP (R94). -/
def workCap : Status := 0x0704
/-- SIGNATURE_INVALID (R71). -/
def signatureInvalid : Status := 0x0710
/-- SECTION_DIGEST_MISMATCH (R71). -/
def sectionDigestMismatch : Status := 0x0711
/-- TIMEOUT (R334, R400, R438). -/
def timeout : Status := 0x0801
/-- SCHEDULE_LOST (R98). -/
def scheduleLost : Status := 0x0802
/-- LEDGER_MISMATCH (R472). -/
def ledgerMismatch : Status := 0x0F01
/-- MEMORY_UNCORRECTABLE (R473, R474). -/
def memoryUncorrectable : Status := 0x0F02
/-- CORE_ERROR (R308, R473). -/
def coreError : Status := 0x0F03
/-- DEVICE_FATAL (R475). -/
def deviceFatal : Status := 0x0F04
/-- FIRMWARE_ASSERT (R474). -/
def firmwareAssert : Status := 0x0F05

end Sys2Proof.Machine.St
end

