-- ==== Sys2Proof/Machine/Ops.lean ====
section
/-! DEFINITION. The named operations over the device's registers, memory, timers, trace, interrupts,
ledger pools and free values. -/

namespace Sys2Proof.Machine

/-! ## Registers -/

/-- Whether offset `o` is a register of row `r`, and its two indices. -/
def RegSpec.index? (r : RegSpec) (o : Nat) : Option (Nat × Nat) :=
  if o < r.base then none else
  let x := o - r.base
  let i := if r.n1 ≤ 1 then 0 else x / r.s1
  let y := x - i * r.s1
  let j := if r.n2 ≤ 1 then 0 else y / r.s2
  if i < r.n1 ∧ j < r.n2 ∧ y = j * r.s2 then some (i, j) else none

/-- The first row of a table that holds offset `o`, with its indices. -/
def findSpec : List RegSpec → Nat → Option (RegSpec × Nat × Nat)
  | [], _ => none
  | r :: rest, o =>
    match r.index? o with
    | some (i, j) => some (r, i, j)
    | none => findSpec rest o

/-- The register at control-space offset `off`: its table row and indices (R23). -/
def regAt (off : Nat) : Option (RegSpec × Nat × Nat) :=
  findSpec (regTable (off / 0x1000000)) (off % 0x1000000)

/-- The pulse sources of R491. -/
def pulseSources : List Nat :=
  [16, 17, 19, 66, 67, 129, 130, 133, 384, 448, 450, 512, 513, 577, 768, 835]

/-- The reset value of a register: the fields' reset values in their places (R538); SENSE of
INT_SRC_CTRL_s depends on the source (R498). -/
def regReset (off : Nat) : Word :=
  match regAt off with
  | none => 0
  | some (r, i, _) =>
    let w := r.fields.foldl (fun w f => setBits w f.hi f.lo f.rst) (0 : Word)
    if off / 0x1000000 = 14 ∧ r.base = 0x10000 ∧ pulseSources.contains i then setBits w 10 8 2 else w

/-- The value held at a register's offset. -/
def Dev.word (d : Dev) (off : Nat) : Word :=
  match Map.find d.regs off with
  | some w => w
  | none => regReset off

/-- The device with the value held at a register's offset replaced; a value equal to the reset value is
not listed. -/
def Dev.setWord (d : Dev) (off : Nat) (w : Word) : Dev :=
  { d with regs := Map.put (regReset off) d.regs off w }

/-- A field of a register. -/
def Dev.get (d : Dev) (r : FRef) : Nat := getBits (d.word r.off) r.hi r.lo

/-- Whether a field is not 0. -/
def Dev.has (d : Dev) (r : FRef) : Bool := d.get r != 0

/-- The device with a field set. -/
def Dev.set (d : Dev) (r : FRef) (v : Nat) : Dev :=
  d.setWord r.off (setBits (d.word r.off) r.hi r.lo v)

/-- The device with a status written to a 16-bit field. -/
def Dev.setSt (d : Dev) (r : FRef) (s : Status) : Dev := d.set r s.toNat

/-- A saturating counter field raised by `n` ("Counters ... saturate"). -/
def Dev.add (d : Dev) (r : FRef) (n : Nat) : Dev :=
  d.set r (min (d.get r + n) (2 ^ (r.hi + 1 - r.lo) - 1))

/-- A saturating counter field raised by one. -/
def Dev.inc (d : Dev) (r : FRef) : Dev := d.add r 1

/-- A 64-bit counter register raised by `n`, saturating. -/
def Dev.addWord (d : Dev) (off n : Nat) : Dev :=
  d.setWord off (BitVec.ofNat 64 (min ((d.word off).toNat + n) (2 ^ 64 - 1)))

def Dev.steepNs (d : Dev) : Nat := d.get R.SEQ_STEEP_LEN_STEEP_NS
def Dev.tickNo (d : Dev) : Nat := (d.word R.SEQ_TICK).toNat
def Dev.launch (d : Dev) : Nat := (d.word R.SEQ_LAUNCH_FT).toNat
def Dev.steepNo (d : Dev) (f : Nat) : Nat := (d.word (R.SEQ_FN_STEEP f)).toNat
def Dev.recordNo (d : Dev) (f : Nat) : Nat := d.get (R.SEQ_FN_RECORD_RECORD f)
def Dev.setW (d : Dev) (off n : Nat) : Dev := d.setWord off (BitVec.ofNat 64 n)

/-- The device with its last completion. -/
def Dev.reply (d : Dev) (s : Status) (w : Word := 0) : Dev := { d with resp := ⟨s, w⟩ }

/-- The device with one more message on its balls. -/
def Dev.emit (d : Dev) (m : OutMsg) : Dev := { d with sent := d.sent ++ [m] }

/-! ## Memory (R24 to R26, R43) -/

/-- The size of HBM: 640 GiB. -/
def hbmSize : Nat := 0xA000000000
/-- The start of the fixed region (R24). -/
def fixedBase : Nat := 0x9DC0000000
/-- The start of the dump area (R24). -/
def dumpBase : Nat := 0x9FC0000000
/-- The start of the on-die scratch. -/
def scratchBase : Nat := 0x400000000000
/-- The start of device control space. -/
def ctlBase : Nat := 0x800000000000
/-- The start of the media window. -/
def mediaBase : Nat := 0x1000000000000

/-- The classes of the local address map (R43). -/
inductive AddrClass where
  | hbm | fixed | scratch | control | media | reserved
  deriving DecidableEq, Repr

/-- The class of a local address (R43), with scratch beyond the enabled cores unmapped (R26). -/
def Dev.classOf (d : Dev) (a : Nat) : AddrClass :=
  if a < fixedBase then .hbm
  else if a < hbmSize then .fixed
  else if scratchBase ≤ a ∧ a < scratchBase + 0x40000 * d.get R.GLB_UNITS_THR_CORES then .scratch
  else if ctlBase ≤ a ∧ a < ctlBase + 0x100000000 then .control
  else if mediaBase ≤ a ∧ a < 2 * mediaBase then .media
  else .reserved

/-- The bytes of sorted cells from address `a`, `n` of them; unlisted bytes read 0. -/
def Mem.readFrom : List Host.Cell → Nat → Nat → Bytes
  | _, _, 0 => []
  | [], _, n => List.replicate n 0
  | (k, v) :: r, a, n =>
    if k < a then Mem.readFrom r a n
    else
      let gap := min (k - a) n
      List.replicate gap 0 ++
        (if n ≤ gap then [] else v :: Mem.readFrom r (k + 1) (n - gap - 1))

/-- `n` bytes at local address `a`. -/
def Mem.read (m : List Host.Cell) (a n : Nat) : Bytes := Mem.readFrom m a n

/-- The cells of a byte string at `a`, zeros unlisted. -/
def Mem.cells : Nat → Bytes → List Host.Cell
  | _, [] => []
  | a, b :: r => if b = 0 then Mem.cells (a + 1) r else (a, b) :: Mem.cells (a + 1) r

/-- Memory with the bytes at `a` replaced. -/
def Mem.write (m : List Host.Cell) (a : Nat) (bs : Bytes) : List Host.Cell :=
  m.filter (fun c => c.1 < a) ++ Mem.cells a bs ++ m.filter (fun c => a + bs.length ≤ c.1)

/-- Memory with `n` bytes at `a` set to 0. -/
def Mem.zero (m : List Host.Cell) (a n : Nat) : List Host.Cell :=
  m.filter (fun c => c.1 < a) ++ m.filter (fun c => a + n ≤ c.1)

/-- The canonical form of memory: addresses strictly rising and no listed byte 0. -/
def Mem.wf (m : List Host.Cell) : Bool := Map.wf 0 m

/-- Memory in canonical form again: every listed byte written in turn. -/
def Mem.norm (m : List Host.Cell) : List Host.Cell :=
  if Mem.wf m then m else m.foldl (fun acc c => Map.put 0 acc c.1 c.2) []

/-- `n` bytes of HBM or scratch at `a`. -/
def Dev.read (d : Dev) (a n : Nat) : Bytes := Mem.read d.mem a n

/-- The little-endian number of `n` bytes at `a`. -/
def Dev.readLe (d : Dev) (a n : Nat) : Nat := unle (d.read a n)

/-- The device with bytes written at `a`. -/
def Dev.write (d : Dev) (a : Nat) (bs : Bytes) : Dev := { d with mem := Mem.write d.mem a bs }

/-- The device with `n` bytes at `a` zeroed. -/
def Dev.zero (d : Dev) (a n : Nat) : Dev := { d with mem := Mem.zero d.mem a n }

/-- Whether the whole range lies in HBM below the fixed region, and the status if not: 0x0404 for the
fixed region, 0x0104 for any other address class (R25, R44). -/
def hbmRange (a n : Nat) : Option Status :=
  if a + n ≤ fixedBase then none
  else if a ≥ hbmSize then some St.addressUnmapped
  else if a + n ≤ hbmSize then some St.accessDenied
  else if a < fixedBase then some St.accessDenied
  else some St.addressUnmapped

/-- A source range that has to lie in HBM below the fixed region: as `hbmRange`, with control space refused by R44. -/
def srcRange (a n : Nat) : Option Status :=
  if ctlBase ≤ a ∧ a + n ≤ ctlBase + 0x100000000 then some St.accessDenied else hbmRange a n

/-- A length checked under R15 to R18: all ones of a `w`-bit field, then the bound; none where it passes. -/
def lenCheck (w len bound : Nat) : Option Status :=
  if len = 2 ^ w - 1 then some St.lengthReserved
  else if len > bound then some St.lengthExceedsBuffer
  else none

/-! ## Time -/

/-- Integer-ns fabric time: bits 79:16 of FT (R442). -/
def Dev.ftNs (d : Dev) : Nat := d.tim.ft.toNat / 65536

/-- A duration in ns as the clock counts it. -/
def ns (n : Nat) : Nat := 8 * n
/-- A duration in µs as the clock counts it. -/
def us (n : Nat) : Nat := 8000 * n
/-- A duration in ms as the clock counts it. -/
def ms (n : Nat) : Nat := 8000000 * n

/-- Timers without `t`. -/
def Timers.drop (ts : List (Timer × Nat)) (t : Timer) : List (Timer × Nat) :=
  ts.filter (fun x => x.1 ≠ t)

/-- The device with timer `t` running for `dur` from now. -/
def Dev.arm (d : Dev) (t : Timer) (dur : Nat) : Dev :=
  { d with timers := Timers.drop d.timers t ++ [(t, d.clk + dur)] }

/-- The device with timer `t` stopped. -/
def Dev.disarm (d : Dev) (t : Timer) : Dev := { d with timers := Timers.drop d.timers t }

/-- Whether timer `t` runs. -/
def Dev.armed (d : Dev) (t : Timer) : Bool := d.timers.any (fun x => x.1 = t)

/-- Whether timer `t` runs and its deadline has come. -/
def Dev.expired (d : Dev) (t : Timer) : Bool := d.timers.any (fun x => x.1 = t && x.2 ≤ d.clk)

/-- The time left on timer `t`, 0 where it does not run. -/
def Dev.left (d : Dev) (t : Timer) : Nat :=
  match d.timers.find? (fun x => x.1 = t) with
  | some x => x.2 - d.clk
  | none => 0

/-! ## Free values -/

/-- A word the manual leaves open, and the device that has drawn it. -/
def Dev.draw (d : Dev) : Word × Dev := (Config.freeWord d.free, { d with free := d.free + 1 })

/-- `n` bytes the manual leaves open, and the device that has drawn them. -/
def Dev.drawBytes (d : Dev) (n : Nat) : Bytes × Dev :=
  (slice (Config.freeBytes d.free n) 0 n, { d with free := d.free + 1 })

/-! ## Trace and interrupts (R478, R492) -/

/-- The device with one more trace event; the ring keeps the last 4,096 (R478). -/
def Dev.trace (d : Dev) (kind fn block : Nat) (st : Status) (arg0 arg1 : Nat) : Dev :=
  let e : TraceEv := ⟨BitVec.ofNat 64 d.ftNs, BitVec.ofNat 8 kind, BitVec.ofNat 8 fn, BitVec.ofNat 8 block,
    st, BitVec.ofNat 64 arg0, BitVec.ofNat 64 arg1⟩
  { d with lgr := { d.lgr with trace := (e :: d.lgr.trace).take 4096 } }

/-- A status reported to the fault manager (R478: KIND 2). -/
def Dev.report (d : Dev) (fn block : Nat) (st : Status) (obj : Nat) : Dev := d.trace 2 fn block st obj 0

/-- The block (bits 31:24 of its control-space offset) of an interrupt source (R491). -/
def sourceBlock (s : Nat) : Nat :=
  if s < 64 then 15 else if s / 64 = 14 then 18 else s / 64

/-- SENSE of a source. -/
def Dev.sense (d : Dev) (s : Nat) : Nat := d.get (R.INT_SRC_CTRL_SENSE s)

/-- A source in a list kept ascending without repeats. -/
def insNat (s : Nat) : List Nat → List Nat
  | [] => [s]
  | x :: r => if s < x then s :: x :: r else if s = x then x :: r else x :: insNat s r

/-- The source becomes pending for the targets and, with HOST = 1, for the host (R492, R496). -/
def Dev.pendSource (d : Dev) (s : Nat) (tgt host : Bool) : Dev :=
  let irq := d.irq
  let irq := if tgt then { irq with pend := insNat s irq.pend } else irq
  let irq := if host && !irq.hostPend.contains s then { irq with hostPend := irq.hostPend ++ [s] } else irq
  if tgt || host then Dev.trace { d with irq := irq } 1 0xFF (sourceBlock s) 0 s 0 else d

/-- Whether a source is in service at a target. -/
def Irq.inService (q : Irq) (s : Nat) : Bool := q.service.any (fun x => x.1 = s)

/-- COUNT and LAST_INST of a source at a 0-to-1 change of its signal (R491, R492). -/
def Dev.countSource (d : Dev) (s inst : Nat) : Dev :=
  { d with irq := { d.irq with
      count := Map.put 0 d.irq.count s (min (Map.get 0 d.irq.count s + 1) 255)
      inst := Map.put 0 d.irq.inst s (inst % 65536) } }

/-- A pulse of a source: one 0-to-1 change and the change back in the next cycle, judged by its SENSE
(R491, R492). -/
def Dev.raise (d : Dev) (s inst : Nat) : Dev :=
  let d := d.countSource s inst
  let sn := d.sense s
  let host := d.has (R.INT_SRC_CTRL_HOST s)
  if sn = 1 then d
  else if sn = 0 then
    d.pendSource s (!d.irq.pend.contains s && !d.irq.inService s)
      (host && !d.irq.hostPend.contains s && !d.irq.hostService.contains s)
  else d.pendSource s (!d.irq.pend.contains s) (host && !d.irq.hostPend.contains s)

/-- The state signals that one listed register drives to 1, each with its unit number (R491). Every
register named here resets to a value that drives none. -/
def regSignals (off : Nat) (w : Word) : List (Nat × Nat) :=
  let o := off % 0x1000000
  match off / 0x1000000 with
  | 1 =>
    if o = 0x1018 then (if w.getLsbD 0 then [(64, 0)] else [])
    else if 0x2000 ≤ o ∧ o < 0x3000 then
      let n := (o - 0x2000) / 0x100
      match o % 0x100 with
      | 0x18 => (if w.getLsbD 0 then [(65, n)] else []) ++ (if w.getLsbD 3 then [(68, n)] else [])
                ++ (if w.getLsbD 6 then [(69, n)] else [])
      | 0x98 => if w.getLsbD 63 then [(70, n)] else []
      | 0xB0 => if w.getLsbD 0 then [(71, n)] else []
      | _ => []
    else []
  | 2 =>
    if o = 0 then (if getBits w 1 0 = 1 then [(128, 0)] else []) ++ (if w.getLsbD 2 then [(131, 0)] else [])
      ++ (if w.getLsbD 3 then [(132, 0)] else [])
    else []
  | 7 =>
    if 0x1000 ≤ o ∧ o < 0x5000 ∧ o % 0x40 = 0 then
      (if w.getLsbD 0 || w.getLsbD 2 then [(449, (o - 0x1000) / 0x40)] else [])
    else []
  | 8 => if o = 8 ∧ w.getLsbD 0 then [(514, 0)] else []
  | 9 => if o = 0x118 ∧ w.getLsbD 0 then [(576, 0)] else []
  | 10 =>
    if 0x90000 ≤ o ∧ o < 0x92000 ∧ o % 0x20 = 0 ∧ w.getLsbD 16 then [(640, (o - 0x90000) / 0x20)] else []
  | 11 =>
    if o = 0 then (if w.getLsbD 21 then [(704, 0)] else [])
    else if 0x10000 ≤ o ∧ o < 0x30000 ∧ o % 0x20 = 0 ∧ w.getLsbD 1 then [(705, (o - 0x10000) / 0x20)]
    else []
  | 12 =>
    if 0x2000 ≤ o ∧ o < 0x4000 ∧ o % 0x20 = 0x10 then
      let b := (o - 0x2000) / 0x20
      (if w.getLsbD 2 then [(769, b)] else []) ++ (if w.getLsbD 3 then [(770, b)] else [])
    else []
  | 13 =>
    if o = 0 then (if w.getLsbD 9 then [(832, 0)] else []) ++ (if w.getLsbD 2 then [(833, 0)] else [])
    else if 0x2000 ≤ o ∧ o < 0x3000 ∧ o % 0x10 = 0 ∧ w.getLsbD 1 then [(834, (o - 0x2000) / 0x10)]
    else []
  | 15 => if o = 0x40 ∧ w.getLsbD 0 then [(18, 0)] else []
  | 18 =>
    if o = 0x8008 then (if w.getLsbD 4 then [(904, 0)] else [])
    else if o < 0x8000 ∧ o % 0x1000 = 0x38 ∧ w.getLsbD 0 then [(896 + o / 0x1000, o / 0x1000)] else []
  | _ => []

/-- Every state source whose signal is 1 now, with the first unit that drives it (R491). -/
def Dev.signals (d : Dev) : List (Nat × Nat) := d.regs.flatMap (fun e => regSignals e.1 e.2)

/-- One source judged in one cycle by its SENSE (R492, R496). -/
def Dev.judge (d : Dev) (s : Nat) (was now : Bool) (inst : Nat) : Dev :=
  let d := if now && !was then d.countSource s inst else d
  let q := d.irq
  let idle := !q.pend.contains s && !q.inService s
  let hidle := !q.hostPend.contains s && !q.hostService.contains s
  let host := d.has (R.INT_SRC_CTRL_HOST s)
  match d.sense s with
  | 0 => d.pendSource s (now && idle) (now && host && hidle)
  | 1 => d.pendSource s (!now && idle) (!now && host && hidle)
  | 2 => d.pendSource s (now && !was && !q.pend.contains s) (now && !was && host && !q.hostPend.contains s)
  | 3 => d.pendSource s (!now && was && !q.pend.contains s) (!now && was && host && !q.hostPend.contains s)
  | 4 => d.pendSource s (now != was && !q.pend.contains s) (now != was && host && !q.hostPend.contains s)
  | _ => d

/-- Sources that software has set to level-low sense: they need a look even while nothing changes. -/
def Dev.lowSources (d : Dev) : List Nat :=
  (d.regs.filter (fun e => e.1 / 0x1000000 = 14 && 0x10000 ≤ e.1 % 0x1000000 && e.1 % 16 = 0
      && getBits e.2 10 8 = 1)).map (fun e => (e.1 % 0x1000000 - 0x10000) / 16)

/-- One sampling of every state signal (R492). -/
def Dev.sample (d : Dev) : Dev :=
  let now := d.signals
  let on := now.foldl (fun l x => insNat x.1 l) []
  let was := d.irq.sig
  let cand := d.lowSources.foldl (fun l x => insNat x l) (was.foldl (fun l x => insNat x l) on)
  let d := cand.foldl (fun d s =>
    d.judge s (was.contains s) (on.contains s) (((now.find? (fun x => x.1 = s)).map (·.2)).getD 0)) d
  { d with irq := { d.irq with sig := on } }

/-! ## Ledger pools (R468, R469) -/

/-- The ledger number of pool KIND `kind` of function `f`, or of a device or port pool with `f` = 0 (R488). -/
def poolNo (kind f : Nat) : Nat := 16 * kind + f

/-- `n` tokens of pool `k` issued. -/
def Dev.issue (d : Dev) (k n : Nat) : Dev := if n = 0 then d else d.addWord (R.LGR_POOL_ISSUED k) n

/-- `n` tokens of pool `k` retired. -/
def Dev.retire (d : Dev) (k n : Nat) : Dev := if n = 0 then d else d.addWord (R.LGR_POOL_RETIRED k) n

/-- `n` tokens of port pool `kind` of port `p` issued: the port's own count and the sum that the register keeps. -/
def Dev.issueAt (d : Dev) (kind p n : Nat) : Dev :=
  ({ d with lgr := { d.lgr with ports := Map.upd 0 d.lgr.ports (4 * p + 2 * (kind - 0x12)) (· + n) } }).issue (poolNo kind 0) n

/-- `n` tokens of port pool `kind` of port `p` retired. -/
def Dev.retireAt (d : Dev) (kind p n : Nat) : Dev :=
  ({ d with lgr := { d.lgr with ports := Map.upd 0 d.lgr.ports (4 * p + 2 * (kind - 0x12) + 1) (· + n) } }).retire (poolNo kind 0) n

/-! ## Device-wide conditions -/

/-- LGR_STATUS.FATAL (R475). -/
def Dev.fatal (d : Dev) : Bool := d.has R.LGR_STATUS_FATAL

/-- GLB_MODE.DET (R461). -/
def Dev.det (d : Dev) : Bool := d.has R.GLB_MODE_DET

/-- The node ID, 0xFFF while unassigned (R42). -/
def Dev.node (d : Dev) : Nat := d.get R.FAB_NODE_ID_NODE

/-- Whether traffic of `node` stamped `epoch` is fenced (R361 row 2). -/
def Dev.fenced (d : Dev) (node epoch : Nat) : Bool :=
  d.has (R.FAB_FENCE_VALID node) && epoch ≤ d.get (R.FAB_FENCE_EPOCH node)

/-! ## What a command's effect ends with -/

/-- The end of a command: memory in its canonical form and the interrupt signals sampled. -/
def Dev.commit (d : Dev) : Dev :=
  let d := { d with mem := Mem.norm d.mem }
  if d.pwr.phase = .running then d.sample else d

/-- How far into the device a command's conditions reach: always; while firmware runs; and while, besides,
no fatal cause has stopped the engines (R475, R532, R536, R539). -/
inductive Domain where
  | always | live | engine
  deriving DecidableEq, Repr

/-- Whether a command of a domain has its effect now. -/
def Dev.open (d : Dev) (g : Domain) : Bool :=
  match g with
  | .always => true
  | .live => d.pwr.phase = .running
  | .engine => d.pwr.phase = .running && !d.fatal

/-- The meaning of a command: its effect on the device, where the device is in a state in which it can
occur, and nothing otherwise (log entry 2); the waiting commands stay as they are. -/
def State.act (s : State) (g : Domain) (f : Dev → Dev) : Host.Outcome State Fault Refusal :=
  if s.dev.open g then .next { s with dev := (f s.dev).commit } else .next s

end Sys2Proof.Machine
end

