-- ==== Sys2Proof/Machine/Fn.lean ====
section
/-! DEFINITION. Functions and what their resident sections say: PLAN (spec 03), ORDER and SUBST (spec 04),
TABLES and KEYS (spec 02), and the generator (R117 to R119). -/

namespace Sys2Proof.Machine

/-! ## Functions -/

/-- Function `f`. -/
def Dev.fn (d : Dev) (f : Nat) : FnRun := Map.get FnRun.unloaded d.seq.fns f

def Dev.setFn (d : Dev) (f : Nat) (r : FnRun) : Dev :=
  { d with seq := { d.seq with fns := Map.put FnRun.unloaded d.seq.fns f r } }

def Dev.modFn (d : Dev) (f : Nat) (g : FnRun → FnRun) : Dev := d.setFn f (g (d.fn f))

/-- The states of SEQ_FN_STATUS_n.STATE (R101). -/
def stUnloaded : Nat := 0
def stStopped : Nat := 1
def stStarting : Nat := 2
def stRunning : Nat := 3
def stStopping : Nat := 4

def Dev.fnState (d : Dev) (f : Nat) : Nat := d.get (R.SEQ_FN_STATUS_STATE f)

/-- Whether function `f` is loaded. -/
def Dev.loaded (d : Dev) (f : Nat) : Bool := (d.fn f).image.isSome

/-- Whether function `f` runs steeps: RUNNING or STOPPING. -/
def Dev.fnRuns (d : Dev) (f : Nat) : Bool := d.fnState f == stRunning || d.fnState f == stStopping

/-- The loaded functions in ascending number. -/
def Dev.loadedFns (d : Dev) : List (Nat × FnImage) :=
  d.seq.fns.filterMap (fun e => e.2.image.map (fun i => (e.1, i)))

/-- The image of function `f`, an empty one where it is not loaded. -/
def FnImage.empty : FnImage :=
  { imageId := 0, digest := [], regions := [], sects := [], eps := [], chans := [], bwShare := 0, tcMask := 0, colLanes := 0,
    coreBase := 0, coreCount := 0, qpBase := 0, qpCount := 0, medSlots := [], seed := [], sign := false, peers := [] }

def Dev.img (d : Dev) (f : Nat) : FnImage := (d.fn f).image.getD FnImage.empty

/-! ## Regions and sections -/

/-- The function's region of a kind (R57). -/
def FnImage.region (i : FnImage) (kind : Nat) : Option Region := i.regions.find? (fun r => r.kind = kind && r.size != 0)

/-- Whether `n` bytes at `a` lie inside a region. -/
def Region.holds (r : Region) (a n : Nat) : Bool := r.base ≤ a && a + n ≤ r.base + r.size

/-- The resident section of a TYPE (R54). -/
def FnImage.sect (i : FnImage) (type : Nat) : Option Sect := i.sects.find? (fun s => s.type = type)

/-- The address of a resident section, 0 where the function has none. -/
def Dev.sectAt (d : Dev) (f type : Nat) : Nat := ((d.img f).sect type).elim 0 (fun s => s.addr)

/-- A little-endian field of a resident section. -/
def Dev.sfld (d : Dev) (f type off n : Nat) : Nat := d.readLe (d.sectAt f type + off) n

/-! ## Endpoints (R61, R62) -/

/-- The endpoint of a function by its number. -/
def FnImage.ep (i : FnImage) (n : Nat) : Option Endpoint := i.eps.find? (fun e => e.ep = n)

/-- The function and the endpoint that bind a port of an instance. -/
def Dev.epOf (d : Dev) (kind inst : Nat) (out : Bool) (port : Nat) : Option (Nat × Endpoint) :=
  d.loadedFns.findSome? (fun fi => (fi.2.eps.find? (fun e =>
    e.kind = kind && e.inst = inst && e.out = out && e.port = port)).map (fun e => (fi.1, e)))

/-- The function that binds an instance other than a media channel. -/
def Dev.owner (d : Dev) (kind inst : Nat) : Option Nat :=
  d.loadedFns.findSome? (fun fi => if fi.2.eps.any (fun e => e.kind = kind && e.inst = inst) then some fi.1 else none)

/-- The channel of a function whose producer (or consumer) is endpoint `n`. -/
def FnImage.chanFrom (i : FnImage) (n : Nat) : Option ChanRec := i.chans.find? (fun c => c.prod = n)
def FnImage.chanTo (i : FnImage) (n : Nat) : Option ChanRec := i.chans.find? (fun c => c.cons = n)

/-! ## TABLES (R68) -/

/-- Record `i` of the function's TABLES section; empty where there is none. -/
def Dev.tabRec (d : Dev) (f i : Nat) : Bytes :=
  match (d.img f).sect 6 with
  | none => []
  | some s =>
    if d.readLe (s.addr + 4) 4 ≤ i then [] else
    let e := s.addr + 0x40 + 16 * i
    d.read (s.addr + d.readLe e 8) (d.readLe (e + 8) 4)

/-- The configuration record of an instance of function `f`. -/
def Dev.config (d : Dev) (f kind inst : Nat) : Bytes :=
  match (d.img f).eps.find? (fun e => e.kind = kind && e.inst = inst) with
  | some e => d.tabRec f e.config
  | none => []

/-! ## PLAN (R85 to R90) -/

def Dev.slack (d : Dev) (f : Nat) : Nat := d.sfld f 3 2 2
def Dev.capMult (d : Dev) (f : Nat) : Nat := d.sfld f 3 4 2
def Dev.lagCeil (d : Dev) (f : Nat) : Nat := d.sfld f 3 8 4
def Dev.stageCount (d : Dev) (f : Nat) : Nat := d.sfld f 3 0xC 2
def Dev.steepCount (d : Dev) (f : Nat) : Nat := d.sfld f 3 0x18 8

/-- The stage endpoints, in table order. -/
def Dev.stages (d : Dev) (f : Nat) : List Nat :=
  (List.range (d.stageCount f)).map (fun k => d.sfld f 3 (0x40 + 16 * k) 2)

def Dev.stageDelay (d : Dev) (f k : Nat) : Nat := d.sfld f 3 (0x43 + 16 * k) 1
def Dev.stageCapacity (d : Dev) (f k : Nat) : Nat := d.sfld f 3 (0x44 + 16 * k) 4

/-- The stage that books an instance's work. -/
def Dev.stageOf (d : Dev) (f kind inst : Nat) : Option Nat :=
  let i := d.img f
  (List.range (d.stageCount f)).find? (fun k =>
    match i.ep (d.sfld f 3 (0x40 + 16 * k) 2) with
    | some e => e.kind == kind && e.inst == inst
    | none => false)

/-- The class of a sample index (R89). -/
def Dev.classOfSample (d : Dev) (f idx : Nat) : Nat := d.sfld f 3 (d.sfld f 3 0x30 8 + 2 * idx) 2

/-- The budget of a sample at stage `k` (R89). -/
def Dev.budget (d : Dev) (f idx k : Nat) : Nat :=
  d.sfld f 3 (d.sfld f 3 0x28 8 + 4 * (d.stageCount f * d.classOfSample f idx + k)) 4

/-- The work cap of a sample at an instance (R94); none where the plan books no stage for the instance
(log entry 13). -/
def Dev.workCap (d : Dev) (f kind inst idx : Nat) : Option Nat :=
  (d.stageOf f kind inst).map (fun k => d.capMult f * d.budget f idx k)

/-- Steep record `r`: POS_FIRST, POS_COUNT and QUIESCE (R90). -/
def Dev.record (d : Dev) (f r : Nat) : Nat × Nat × Bool :=
  let o := d.sfld f 3 0x38 8 + 16 * r
  (d.sfld f 3 o 8, d.sfld f 3 (o + 8) 4, (d.sfld f 3 (o + 0xC) 2).testBit 0)

/-! ## ORDER (R111 to R115) -/

def Dev.packMode (d : Dev) (f : Nat) : Nat := d.sfld f 4 1 1
def Dev.batchSize (d : Dev) (f : Nat) : Nat := d.sfld f 4 4 4
def Dev.sampleCount (d : Dev) (f : Nat) : Nat := d.sfld f 4 8 8
def Dev.orderedCount (d : Dev) (f : Nat) : Nat := d.sfld f 4 0x10 8
def Dev.epochCount (d : Dev) (f : Nat) : Nat := d.sfld f 4 0x18 4
def Dev.cacheEp (d : Dev) (f : Nat) : Nat := d.sfld f 4 0x1C 2
def Dev.slotBytes (d : Dev) (f : Nat) : Nat := d.sfld f 4 0x20 8
def Dev.rowTokens (d : Dev) (f : Nat) : Nat := d.sfld f 4 0x28 4
def Dev.rows (d : Dev) (f : Nat) : Nat := d.sfld f 4 0x2C 2
def Dev.segMax (d : Dev) (f : Nat) : Nat := d.sfld f 4 0x2E 2
def Dev.padToken (d : Dev) (f : Nat) : Nat := d.sfld f 4 0x30 4
def Dev.pondSlotBytes (d : Dev) (f : Nat) : Nat := d.sfld f 4 0x38 8

/-- The epoch of a position (R111). -/
def Dev.epochOf (d : Dev) (f pos : Nat) : Nat := pos / d.orderedCount f
/-- The global batch of a position. -/
def Dev.batchOf (d : Dev) (f pos : Nat) : Nat := pos / d.batchSize f

/-- Fields of sample record `i` (R114). -/
def Dev.sampleId (d : Dev) (f i : Nat) : Nat := d.sfld f 4 (0x40 + 32 * i) 8
def Dev.sampleExtent (d : Dev) (f i : Nat) : Nat := d.sfld f 4 (0x48 + 32 * i) 8
def Dev.sampleRecipe (d : Dev) (f i : Nat) : Nat := d.sfld f 4 (0x50 + 32 * i) 4
def Dev.samplePond (d : Dev) (f i : Nat) : Nat := d.sfld f 4 (0x54 + 32 * i) 4
def Dev.samplePort (d : Dev) (f i : Nat) : Nat := d.sfld f 4 (0x58 + 32 * i) 1

/-- A field of epoch record `e` (R115). -/
def Dev.epochFld (d : Dev) (f e off n : Nat) : Nat := d.sfld f 4 (0x40 + 32 * d.sampleCount f + 32 * e + off) n

/-! ## The generator (R117 to R119) -/

/-- Little-endian 32-bit words of a byte string. -/
def words32 (b : Bytes) : List (BitVec 32) := (chunks 4 b).map (fun c => BitVec.ofNat 32 (unle c))

/-- Draw `i` of epoch `e` and sample ID `x` under a seed (R117). -/
def drawOf (seed : Bytes) (e x i : Nat) : Nat :=
  let st := chachaConst ++ words32 (slice seed 0 32) ++ [BitVec.ofNat 32 (i / 8)] ++ words32 (le 4 e ++ le 8 x)
  let out := (chachaBlock st).flatMap (fun w => le 4 w.toNat)
  fld out (8 * (i % 8)) 8

/-- The half width h of R119 for N samples. -/
def feistelHalf (n : Nat) : Nat := max 1 (cdiv (bitLen (n - 1)) 2)

/-- The Feistel network of R119. -/
def feistel (seed : Bytes) (e h x : Nat) : Nat :=
  let m := 2 ^ h
  let (l, r) := (List.range 4).foldl (fun (lr : Nat × Nat) k =>
    (lr.2, (lr.1 ^^^ (drawOf seed e lr.2 (0x700000000 + 8 * k) % m)) % m)) (x >>> h, x % m)
  l * m + r

/-- Cycle walking, with fuel; a bijection comes back below N within 4N passes. -/
def walk (seed : Bytes) (e h n : Nat) : Nat → Nat → Nat
  | 0, x => x
  | k + 1, x => if n ≤ x then walk seed e h n k (feistel seed e h x) else x

/-- perm_e(j) of a keyed permutation over N samples (R119). -/
def permKeyed (seed : Bytes) (e n j : Nat) : Nat :=
  let h := feistelHalf n
  walk seed e h n (4 ^ h) (feistel seed e h j)

/-- The ordered sample's index at position `pos` (R111, R115). -/
def Dev.orderedAt (d : Dev) (f pos : Nat) : Nat :=
  let n := d.orderedCount f
  let e := pos / n
  let j := pos % n
  match d.epochFld f e 0 1 with
  | 1 => permKeyed (d.img f).seed e n j
  | 2 => d.sfld f 4 (d.epochFld f e 8 8 + 8 * j) 8
  | _ => j

/-- A draw for the sample at work (R118). -/
def Dev.drawFor (d : Dev) (f e id i : Nat) : Nat := drawOf (d.img f).seed e id i

/-! ## SUBST (R120, R124) -/

/-- The pool of epoch `e`: body offset and length. -/
def Dev.poolOf (d : Dev) (f e : Nat) : Nat × Nat :=
  let k := d.epochFld f e 0x10 4
  (d.sfld f 5 (0x20 + 16 * k) 8, d.sfld f 5 (0x28 + 16 * k) 4)

/-- Entry `i` of epoch `e`'s pool. -/
def Dev.poolEntry (d : Dev) (f e i : Nat) : Nat := d.sfld f 5 ((d.poolOf f e).1 + 8 * i) 8

/-- The address of log entry `i` of epoch `e`. -/
def Dev.logAt (d : Dev) (f e i : Nat) : Nat := d.sfld f 5 8 8 + 16 * (d.epochFld f e 0x18 8 + i)

/-! ## Live samples -/

/-- The live record of a position. -/
def FnRun.liveAt (r : FnRun) (pos : Nat) : Option Live := r.live.find? (fun l => l.pos = pos)

def Dev.liveAt (d : Dev) (f pos : Nat) : Option Live := (d.fn f).liveAt pos

/-- The live record of a position replaced. -/
def FnRun.setLive (r : FnRun) (l : Live) : FnRun :=
  { r with live := r.live.map (fun x => if x.pos = l.pos then l else x) }

/-- Whether stage `k` of a live sample has nothing left to do. -/
def Live.stageDone (l : Live) (k : Nat) : Bool := l.done.contains k

/-- Whether a position is settled: complete at every stage with no defect outstanding (R122). -/
def Dev.settledLive (d : Dev) (f : Nat) (l : Live) : Bool :=
  !l.waiting && (l.placed || !(d.img f).eps.any (fun e => e.kind = 0x0A)) && (List.range (d.stageCount f)).all (fun k => l.stageDone k)

/-- The stage of the function's batch assembler, where the plan books one. -/
def Dev.asmStage (d : Dev) (f : Nat) : Option Nat := d.stageOf f 0x0A f

/-- Whether an uncorrectable error has stopped something of the function (R473): a stall numbered from 2^80. -/
def Dev.broken (d : Dev) (f : Nat) : Bool := (d.fn f).stalls.any (fun e => 2 ^ 80 ≤ e.1)

/-- Whether such an error has stopped the whole function: a stall numbered from 2^81. -/
def Dev.halted (d : Dev) (f : Nat) : Bool := (d.fn f).stalls.any (fun e => 2 ^ 81 ≤ e.1)

/-- Whether the work of the running steep is complete (R93). Positions that wait for a substitute are left out,
and so, at the batch assembler, are the positions behind one; a position that waits on an exhausted pool counts. Work that
an uncorrectable error has stopped stays incomplete (R473). -/
def Dev.workDone (d : Dev) (f : Nat) : Bool :=
  let rec_ := if (d.fn f).past then 2 ^ 64 else d.get (R.SEQ_FN_RECORD_RECORD f)
  let asm := d.asmStage f
  let go := (d.fn f).live.foldl (fun (acc : Bool × Bool) l =>
    let (ok, held) := acc
    if l.blocked then (false, held)
    else if l.waiting then (ok, true)
    else
      let mine := l.due.all (fun (e : Nat × Nat) =>
        rec_ < e.2 || l.stageDone e.1 || (held && some e.1 == asm))
      (ok && mine, held)) (true, false)
  go.1 && !d.broken f

/-- The device after a change at function `f` that may have completed the running steep's work: the time of
completion is kept (R96). -/
def Dev.noteDone (d : Dev) (f : Nat) (g : Dev → Dev) : Dev :=
  let was := d.workDone f
  let d := g d
  if !was && d.workDone f then d.modFn f (fun r => { r with doneAt := d.ftNs }) else d

/-- Whether every lower position of the same epoch is settled (R122). -/
def Dev.lowerSettled (d : Dev) (f pos : Nat) : Bool :=
  (d.fn f).live.all (fun l =>
    pos ≤ l.pos || d.epochOf f l.pos != d.epochOf f pos || d.settledLive f l)

/-- The number of pool entries consumed of epoch `e`. -/
def FnRun.nextOf (r : FnRun) (e : Nat) : Nat := Map.get 0 r.pool e

/-- Pool exhaustion is declared for the lowest unsettled position of its epoch (R123). -/
def Dev.poolCheck (d : Dev) (f : Nat) : Dev :=
  let r := d.fn f
  match r.live.find? (fun l => l.waiting && !l.blocked && d.lowerSettled f l.pos) with
  | none => d
  | some l =>
    let e := d.epochOf f l.pos
    if r.nextOf e < (d.poolOf f e).2 then d else
    let d := d.setFn f (r.setLive { l with blocked := true })
    let d := (d.set (R.SEQ_FN_POOL_EXHAUSTED f) 1)
    d.report f 1 St.poolExhausted l.pos

/-- Settled positions are no longer in flight; where no batch assembler has placed them, their tokens are retired. -/
def Dev.prune (d : Dev) (f : Nat) : Dev :=
  let n := ((d.fn f).live.filter (fun l => d.settledLive f l && !l.placed)).length
  (d.modFn f (fun r => { r with live := r.live.filter (fun l => !d.settledLive f l) })).retire (poolNo 3 f) n

/-- A stage has finished with the sample it was processing (R93). -/
def Dev.stageComplete (d : Dev) (f kind inst pos tok : Nat) : Dev :=
  match d.stageOf f kind inst, d.liveAt f pos with
  | some k, some l =>
    if l.tok ≠ tok ∨ l.done.contains k then d else
    d.noteDone f (fun d => ((d.setFn f ((d.fn f).setLive { l with done := l.done ++ [k] })).prune f).poolCheck f)
  | _, _ => d

/-- A candidate has met a ground for a defect (R121), declared where its mark ends (R211): the first status of the
position is its REASON. The position waits for a substitute. A mark that ends after the sample is placed changes
nothing (log entry 24). -/
def Dev.declareDefect (d : Dev) (f pos tok : Nat) (st : Status) : Dev :=
  match d.liveAt f pos with
  | some l =>
    if l.tok ≠ tok ∨ l.waiting ∨ l.placed then d else
    d.noteDone f (fun d =>
      (d.setFn f ((d.fn f).setLive { l with
        waiting := true
        cause := st
        reason := if l.reason = 0 then st else l.reason })).poolCheck f)
  | none => d

/-- A function waits for a recovery (R99, R473): STALLED, with what waits and why. -/
def Dev.stall (d : Dev) (f what : Nat) (st : Status) : Dev :=
  let d := d.modFn f (fun r =>
    { r with stalls := if r.stalls.any (fun x => x.1 = what) then r.stalls else r.stalls ++ [(what, st)] })
  (d.set (R.SEQ_FN_STATUS_STALLED f) 1).report f 1 st what

/-- What `what` waited for has come. -/
def Dev.unstall (d : Dev) (f what : Nat) : Dev :=
  let d := d.modFn f (fun r => { r with stalls := r.stalls.filter (fun x => x.1 ≠ what) })
  if (d.fn f).stalls.isEmpty then d.set (R.SEQ_FN_STATUS_STALLED f) 0 else d

end Sys2Proof.Machine
end

