-- ==== Sys2Proof/Machine/Path.lean ====
section
/-! DEFINITION. The data path: granules, channels and credits (R31 to R33), what every engine has in common
(R93, R94, R211), and the Pond (R125 to R128). -/

namespace Sys2Proof.Machine

/-! ## Granules -/

/-- A sample's bytes as granules of up to 256 bytes. -/
def granulesOf (pos tok idx : Nat) (b : Bytes) (last : Bool) : List Granule :=
  let cs := chunks 256 b
  let cs := if cs.isEmpty && last then [[]] else cs
  ((List.range cs.length).zip cs).map (fun x =>
    ⟨pos, tok, idx, x.2, last && x.1 + 1 == cs.length, 0⟩)

/-- The mark that closes a defective sample's stream (R211). -/
def defectMark (pos tok idx : Nat) (st : Status) : Granule := ⟨pos, tok, idx, [], true, st⟩

def Dev.outQ (d : Dev) (ep : Nat) : List Granule := Map.get [] d.seq.outQ ep
def Dev.inQ (d : Dev) (ep : Nat) : List Granule := Map.get [] d.seq.inQ ep
def Dev.setOutQ (d : Dev) (ep : Nat) (q : List Granule) : Dev :=
  { d with seq := { d.seq with outQ := Map.put [] d.seq.outQ ep q } }
def Dev.setInQ (d : Dev) (ep : Nat) (q : List Granule) : Dev :=
  { d with seq := { d.seq with inQ := Map.put [] d.seq.inQ ep q } }

/-- What stands for the endpoint of an output that no endpoint record names. -/
def noEp : Nat := 65536

/-- Granules given to an output endpoint, where they wait for credit; an output that is not bound drops them. -/
def Dev.pushOut (d : Dev) (ep : Nat) (g : List Granule) : Dev := if ep = noEp then d else d.setOutQ ep (d.outQ ep ++ g)

/-! ## Channels (R31, R32) -/

/-- The function and the record of channel `ch`. -/
def Dev.chanRec (d : Dev) (ch : Nat) : Option (Nat × ChanRec) :=
  d.loadedFns.findSome? (fun fi => (fi.2.chans.find? (fun c => c.no = ch)).map (fun c => (fi.1, c)))

/-- The channel's credits and buffer; an unlisted channel holds all its credits and no granule. -/
def Dev.chan (d : Dev) (c : ChanRec) : Chan := Map.get ⟨c.credits, []⟩ d.seq.chans c.no

def Dev.setChan (d : Dev) (c : ChanRec) (x : Chan) : Dev :=
  { d with seq := { d.seq with chans := Map.put ⟨c.credits, []⟩ d.seq.chans c.no x } }

/-- CHANNEL_GRANULE_WRITE: a producer that holds a credit writes its oldest granule (R32, R468). -/
def Dev.granuleWrite (d : Dev) (ch : Nat) : Dev :=
  match d.chanRec ch with
  | none => d
  | some (f, c) =>
    let x := d.chan c
    match d.outQ c.prod with
    | [] => d
    | g :: r =>
      if x.credits = 0 ∨ d.halted f = true then d else
      (((d.setOutQ c.prod r).setChan c { credits := x.credits - 1, q := x.q ++ [g] }).issue (poolNo 1 f) 1).issue
        (poolNo 2 f) 1

def execChannelGranuleWrite (ch : Nat) (s : State) : Host.Outcome State Fault Refusal :=
  s.act .engine (fun d => d.granuleWrite ch)

/-! ## The Pond -/

/-- The Pond slot of a sample: its address, or none where the sample is not cacheable. -/
def Dev.pondSlot (d : Dev) (f idx : Nat) : Option Nat :=
  let n := d.samplePond f idx
  match (d.img f).region 1 with
  | none => none
  | some r => if n = 0xFFFFFFFF ∨ d.pondSlotBytes f = 0 then none else some (r.base + n * d.pondSlotBytes f)

/-- The Pond tag of a slot says that it holds the sample under the epoch's generation (R127). -/
def Dev.pondHit (d : Dev) (f idx e a : Nat) : Bool :=
  (d.readLe (a + 0x1C) 4).testBit 0 && d.readLe a 8 == d.sampleId f idx && d.readLe (a + 8) 4 == d.sampleRecipe f idx
    && d.readLe (a + 0xC) 4 == d.epochFld f e 4 4

/-- A Pond fill (R126): the slot takes the decoded form, or is left not VALID where the form is too long. -/
def Dev.pondFill (d : Dev) (f : Nat) (l : Live) (data : Bytes) : Dev :=
  let e := d.epochOf f l.pos
  let mode := d.epochFld f e 1 1
  match d.pondSlot f l.idx with
  | none => d
  | some a =>
    if l.hit ∨ ¬(mode = 1 ∨ mode = 3) then d else
    let d := d.write (a + 0x1C) [0, 0, 0, 0]
    if d.pondSlotBytes f - 64 < data.length then d.inc (R.SEQ_FN_POND_MISS_SKIPS f)
    else
      let d := d.write (a + 64) data
      d.write a (le 8 (d.sampleId f l.idx) ++ le 4 (d.sampleRecipe f l.idx) ++ le 4 (d.epochFld f e 4 4)
        ++ le 8 data.length ++ le 4 l.crc ++ le 4 1 ++ List.replicate 32 0)

/-- A granule enters CACHE_ENDPOINT: the decoded form grows, and with its last granule it fills the Pond
(R125, R126). -/
def Dev.pondFeed (d : Dev) (f : Nat) (g : Granule) : Dev :=
  let r := d.fn f
  let old := (r.fills.find? (fun x => x.1 = g.pos && x.2.1 = g.tok)).elim [] (fun x => x.2.2)
  let rest := r.fills.filter (fun x => !(x.1 = g.pos && x.2.1 = g.tok))
  if g.defect ≠ 0 then d.setFn f { r with fills := rest }
  else if g.last then
    let d := d.setFn f { r with fills := rest }
    match d.liveAt f g.pos with
    | some l => if l.tok = g.tok then d.pondFill f l (old ++ g.data) else d
    | none => d
  else d.setFn f { r with fills := rest ++ [(g.pos, g.tok, old ++ g.data)] }

/-! ## Engines -/

def Eng.idle : Eng :=
  { pos := 0, tok := 0, idx := 0, active := false, skip := false, units := 0, buf := [], arrived := false, mark := 0,
    out := [], st := .none }

/-- The key of an engine instance. -/
def engKey (kind inst : Nat) : Nat := 4096 * kind + inst

def Dev.eng (d : Dev) (kind inst : Nat) : Eng := Map.get Eng.idle d.seq.engs (engKey kind inst)

/-- The STATE register of an instance of a kind that has one (R224, R251, R270), 0 otherwise. -/
def engReg (kind inst : Nat) : Nat :=
  match kind with
  | 2 => R.RCX_ENG_STATE inst
  | 3 => R.VDE_STATE inst
  | 4 => R.JPG_STATE inst
  | 5 => R.IMG_STATE inst
  | 6 => R.TOK_BPE_STATE inst
  | 7 => R.TOK_MASK_STATE inst
  | 8 => R.TOK_DTK_STATE inst
  | _ => 0

/-- An engine's state replaced, its BUSY bit with it. -/
def Dev.setEng (d : Dev) (kind inst : Nat) (e : Eng) : Dev :=
  let d := { d with seq := { d.seq with engs := Map.put Eng.idle d.seq.engs (engKey kind inst) e } }
  if engReg kind inst = 0 then d else d.set ⟨engReg kind inst, 0, 0⟩ (b2n e.active)

/-- A defect counted in an engine's registers: LAST_DEFECT and the counter of its status. -/
def Dev.countDefect (d : Dev) (kind inst : Nat) (st : Status) : Dev :=
  let r := engReg kind inst
  if r = 0 then d else
  let d := d.setSt ⟨r, 63, 48⟩ st
  let c := if kind = 2 then r + 0x18 else r + 8
  if st = St.decodeError then d.inc ⟨c, 63, 48⟩
  else if st = St.checkValueMismatch ∧ kind = 2 then d.inc ⟨c, 47, 32⟩
  else if st = St.outputLimit then d.inc ⟨c, 31, 16⟩
  else if st = St.workCap then d.inc ⟨c, 15, 0⟩
  else d

/-- The lowest (position, candidate, index) among granules. -/
def lowest : List Granule → Option (Nat × Nat × Nat)
  | [] => none
  | g :: r =>
    match lowest r with
    | none => some (g.pos, g.tok, g.idx)
    | some (p, t, i) => if g.pos < p || (g.pos == p && g.tok < t) then some (g.pos, g.tok, g.idx) else some (p, t, i)

/-- Whether an instance may begin a position: no lower position in flight, other than one that waits for a
substitute, still has work at the instance's stage (R93). -/
def Dev.mayBegin (d : Dev) (f kind inst pos : Nat) : Bool :=
  match d.stageOf f kind inst with
  | none => true
  | some k => (d.fn f).live.all (fun l => pos ≤ l.pos || l.waiting || l.stageDone k)

/-- An engine takes what has arrived for its sample at an input endpoint; an idle one begins the lowest sample
there (R93). -/
def Dev.feed (d : Dev) (f kind inst ep : Nat) : Dev :=
  let e := d.eng kind inst
  let q := d.inQ ep
  let cur := if e.active then some (e.pos, e.tok, e.idx) else
    match lowest q with
    | some (p, t, i) => if d.mayBegin f kind inst p then some (p, t, i) else none
    | none => none
  match cur with
  | none => d
  | some (p, t, i) =>
    let mine := q.filter (fun g => g.pos = p && g.tok = t)
    let e := if e.active then e else { Eng.idle with
      pos := p
      tok := t
      idx := i
      active := true }
    let bytes := mine.flatMap (fun g => g.data)
    let e := { e with
      buf := if e.skip then [] else e.buf ++ bytes
      arrived := e.arrived || mine.any (fun g => g.last)
      mark := mine.foldl (fun m g => if g.defect = 0 then m else g.defect) e.mark }
    let d := if kind = 2 then d.addWord (R.RCX_ENG_IN inst) bytes.length else d
    (d.setEng kind inst e).setInQ ep (q.filter (fun g => !(g.pos = p && g.tok = t)))

/-- An engine's output bytes cut into granules; the rest of under 256 bytes waits. -/
def Dev.putOut (d : Dev) (kind inst ep : Nat) (b : Bytes) : Dev :=
  let e := d.eng kind inst
  let all := e.out ++ b
  let n := all.length / 256 * 256
  let d := if kind = 2 then d.addWord (R.RCX_ENG_OUT inst) b.length else d
  let d := d.setEng kind inst { e with out := all.drop n }
  if n = 0 then d else d.pushOut ep (granulesOf e.pos e.tok e.idx (all.take n) false)

/-- An engine has finished its sample: the last granule of the output goes, and the stage is complete. -/
def Dev.finish (d : Dev) (f kind inst ep : Nat) : Dev :=
  let e := d.eng kind inst
  let d := (d.setEng kind inst Eng.idle).pushOut ep (granulesOf e.pos e.tok e.idx e.out true)
  d.stageComplete f kind inst e.pos e.tok

/-- What is left of an engine whose sample has been closed: idle, or discarding the rest of its input (R211). -/
def Eng.closed (e : Eng) : Eng :=
  if e.arrived then Eng.idle else { Eng.idle with
    pos := e.pos
    tok := e.tok
    idx := e.idx
    active := true
    skip := true }

/-- A sample ends at an instance with a defect mark: the mark goes on at the outputs (R211), and the instance has
finished with the sample. Where no output is bound the mark ends here, and the defect is declared. -/
def Dev.markOut (d : Dev) (f kind inst : Nat) (outs : List Nat) (pos tok idx : Nat) (st : Status) : Dev :=
  let outs := outs.filter (fun o => o ≠ noEp)
  let d := outs.foldl (fun d o => d.pushOut o [defectMark pos tok idx st]) d
  (if outs.isEmpty then d.declareDefect f pos tok st else d).stageComplete f kind inst pos tok

/-- An engine whose sample is defective closes its output with a mark and discards the rest of its input
(R211). -/
def Dev.failSample (d : Dev) (f kind inst ep : Nat) (st : Status) : Dev :=
  let e := d.eng kind inst
  let d := (d.setEng kind inst e.closed).countDefect kind inst st
  d.markOut f kind inst [ep] e.pos e.tok e.idx st

/-- The input of an engine instance with its function, fed; `body` works on the sample in progress, given the
function and the output endpoint. A sample that arrives with a defect mark is closed with that mark, and one
being skipped ends with its last granule. -/
def Dev.engine (d : Dev) (kind inst : Nat) (body : Dev → Nat → Nat → Eng → Dev) : Dev :=
  match d.epOf kind inst false 0 with
  | some (f, ei) =>
    let eo := (d.epOf kind inst true 0).elim noEp (fun x => x.2.ep)
    if d.halted f then d else
    let d := d.feed f kind inst ei.ep
    let e := d.eng kind inst
    if !e.active then d
    else if e.skip then (if e.arrived then d.setEng kind inst Eng.idle else d)
    else if e.mark ≠ 0 ∧ e.arrived then
      (d.setEng kind inst Eng.idle).markOut f kind inst [eo] e.pos e.tok e.idx e.mark
    else body d f eo e
  | none => d

/-- The work cap of the engine's sample (R94). -/
def Dev.capOf (d : Dev) (f kind inst : Nat) (e : Eng) : Option Nat := d.workCap f kind inst e.idx

/-- Whether `n` units stay within a cap. -/
def withinCap (cap : Option Nat) (n : Nat) : Bool :=
  match cap with
  | none => true
  | some c => n ≤ c

/-! ## Transport staging and credit return -/

/-- Transport staging takes a granule: a unit of work (R87), and with the last one its stage is complete. No rule says
what it forwards, so it forwards nothing (log entry 52). -/
def Dev.stagingTake (d : Dev) (f : Nat) (g : Granule) : Dev :=
  let e := d.eng 0xB f
  let n := if e.pos = g.pos ∧ e.tok = g.tok then e.units + 1 else 1
  let d := d.setEng 0xB f { Eng.idle with
    pos := g.pos
    tok := g.tok
    units := n }
  if g.defect ≠ 0 then (d.declareDefect f g.pos g.tok g.defect).stageComplete f 0xB f g.pos g.tok
  else if !withinCap (d.workCap f 0xB f g.idx) n then
    (d.declareDefect f g.pos g.tok St.workCap).stageComplete f 0xB f g.pos g.tok
  else if g.last then d.stageComplete f 0xB f g.pos g.tok else d

/-- CHANNEL_CREDIT_RETURN: the consumer takes the oldest granule out of the buffer and returns its credit
(R32). At CACHE_ENDPOINT the granule passes into the Pond as well. -/
def Dev.creditReturn (d : Dev) (ch : Nat) : Dev :=
  match d.chanRec ch with
  | none => d
  | some (f, c) =>
    let x := d.chan c
    match x.q with
    | [] => d
    | g :: r =>
      if d.halted f then d else
      let d := d.setChan c { credits := x.credits + 1, q := r }
      let d := (d.retire (poolNo 1 f) 1).retire (poolNo 2 f) 1
      let d := if d.cacheEp f = c.cons then d.pondFeed f g else d
      if (((d.img f).ep c.cons).map (fun e => e.kind)) = some 0xB then d.stagingTake f g
      else d.setInQ c.cons (d.inQ c.cons ++ [g])

def execChannelCreditReturn (ch : Nat) (s : State) : Host.Outcome State Fault Refusal :=
  s.act .engine (fun d => d.creditReturn ch)

end Sys2Proof.Machine
end

