-- ==== Sys2Proof/Machine/Med.lean ====
section
/-! DEFINITION. The media engine (spec 05): geometry, superblocks, correction, relocation, garbage collection, start-up
and health. -/

namespace Sys2Proof.Machine

/-! ## Geometry and addresses (R142 to R148) -/

def Dev.mDies (d : Dev) : Nat := d.get R.MED_GEOM_DIES
def Dev.mPlanes (d : Dev) : Nat := d.get R.MED_GEOM_PLANES
def Dev.mBlocks (d : Dev) : Nat := d.get R.MED_GEOM_BLOCKS
def Dev.mPages (d : Dev) : Nat := d.get R.MED_GEOM_PAGES

/-- Sectors of a superblock. -/
def Dev.sbSectors (d : Dev) : Nat := 124 * d.mPages

/-- Fields of a block address, PCA[35:12]. -/
def blkChan (a : Nat) : Nat := a / 2 ^ 19
def blkDie (a : Nat) : Nat := bits a 18 14
def blkPlane (a : Nat) : Nat := bits a 13 12
def blkNo (a : Nat) : Nat := a % 4096

/-- A block address that the geometry maps. -/
def Dev.blkMapped (d : Dev) (a : Nat) : Bool :=
  blkChan a < 32 && blkDie a < d.mDies && blkPlane a < d.mPlanes && blkNo a < d.mBlocks

/-- Blocks 0 to 3 of plane 0 of die 0: the metadata area (R147). -/
def blkMeta (a : Nat) : Bool := blkDie a == 0 && blkPlane a == 0 && blkNo a < 4

def pcaOf (block page cw : Nat) : Nat := block * 4096 + page * 4 + cw

/-- MED_STATUS.STATE is ONLINE. -/
def Dev.mOnline (d : Dev) : Bool := d.get R.MED_STATUS_STATE == 2

/-- Page, member and codeword of sector `q` of a superblock (R148). -/
def placeOf (q : Nat) : Nat × Nat × Nat :=
  let page := q / 124
  let r := q % 124
  let slot := r / 4
  (page, if slot < page % 32 then slot else slot + 1, r % 4)

/-- The sector of a superblock that lies at a page, member and codeword; none on the parity member. -/
def sectorAt (page m cw : Nat) : Option Nat :=
  let p := page % 32
  if m = p then none else some (124 * page + 4 * (if m < p then m else m - 1) + cw)

/-- The number of a place in the write buffer. -/
def placeNo (sb page m cw : Nat) : Nat := ((sb * 1024 + page) * 32 + m) * 4 + cw

/-- The media profile that boot has taken (R143, R517): the body of the MEDIA record. -/
def Dev.profile (d : Dev) : Bytes := d.sec.bootMedia.drop 64

def Dev.readLimit (d : Dev) : Nat := d.get R.MED_READ_LIMIT_LIMIT
def Dev.endurance (d : Dev) : Nat := fld d.profile 0x14 4

/-! ## Parts of the map state -/

def Dev.modMed (d : Dev) (f : Med → Med) : Dev := { d with med := f d.med }
def Dev.modLive (d : Dev) (f : MedMeta → MedMeta) : Dev := d.modMed (fun m => { m with live := f m.live })

def Dev.blk (d : Dev) (a : Nat) : Blk := Map.get ⟨0, 0, 0⟩ d.med.live.blks a
def Dev.setBlk (d : Dev) (a : Nat) (b : Blk) : Dev :=
  d.modLive (fun m => { m with blks := Map.put ⟨0, 0, 0⟩ m.blks a b })
def Dev.setBlkSt (d : Dev) (a st : Nat) : Dev := d.setBlk a { d.blk a with st := st }

def SupBlk.none : SupBlk := ⟨0, [], [], []⟩
def Dev.sb (d : Dev) (k : Nat) : SupBlk := (Map.find d.med.live.sbs k).getD SupBlk.none
def Dev.setSb (d : Dev) (k : Nat) (b : SupBlk) : Dev := d.modLive (fun m => { m with sbs := Map.insert m.sbs k b })

def Dev.ns (d : Dev) (n : Nat) : Option Ns := Map.find d.med.live.ns n
def Dev.setNs (d : Dev) (n : Nat) (x : Ns) : Dev := d.modLive (fun m => { m with ns := Map.insert m.ns n x })

/-- Counters of the health log, in their order (R179). -/
def cwRead : Nat := 0
def cwHard : Nat := 1
def cwRetry : Nat := 2
def cwSoft : Nat := 3
def cwCrcCatch : Nat := 4
def cwRebuilt : Nat := 5
def cwReplica : Nat := 6
def cwUncorrectable : Nat := 7
def pagePrograms : Nat := 8
def programFails : Nat := 9
def blockErases : Nat := 10
def eraseFails : Nat := 11
def refreshes : Nat := 12
def repairs : Nat := 13
def overlimitReads : Nat := 14
def gcCopies : Nat := 15
def gcTargetFails : Nat := 16

/-- A health counter raised; it saturates at 8 bytes. -/
def Dev.hlth (d : Dev) (c : Nat) (n : Nat := 1) : Dev :=
  d.modLive (fun m => { m with counters := modNth m.counters c (fun x => min (x + n) (2 ^ 64 - 1)) })

/-! ## Dies (R154) -/

def Dev.dieFailed (d : Dev) (ch die : Nat) : Bool := (d.word (R.MED_DIE_FAIL (ch / 2))).getLsbD (32 * (ch % 2) + die)

def Dev.blkFailed (d : Dev) (a : Nat) : Bool := d.dieFailed (blkChan a) (blkDie a)

/-- A die becomes FAILED. -/
def Dev.failDie (d : Dev) (ch die : Nat) : Dev :=
  if d.dieFailed ch die then d else
  let d := d.set ⟨R.MED_DIE_FAIL (ch / 2), 32 * (ch % 2) + die, 32 * (ch % 2) + die⟩ 1
  (d.inc R.MED_STATUS_DIES_FAILED).raise 130 (ch * 32 + die)

/-- A codeword of a die has needed step 5; 4,096 of them within one second fail the die. -/
def Dev.countRebuild (d : Dev) (a : Nat) : Dev :=
  let key := blkChan a * 32 + blkDie a
  let (t, n) := match Map.find d.med.rebuilds key with
    | some (t, n) => if d.clk < t + ms 1000 then (t, n + 1) else (d.clk, 1)
    | none => (d.clk, 1)
  let d := d.modMed (fun m => { m with rebuilds := Map.insert m.rebuilds key (t, n) })
  if 4096 ≤ n then d.failDie (blkChan a) (blkDie a) else d

/-! ## Resolution (R166) -/

/-- Live entries with EPOCH above P followed from a block address; each entry is followed at most once. -/
def resolveIn (rs : List Reloc) (p : Nat) : Nat → Nat → Nat
  | 0, a => a
  | n + 1, a =>
    match rs.find? (fun x => x.old = a && p < x.epoch) with
    | some x => resolveIn rs p n x.new
    | none => a

def Dev.resolve (d : Dev) (a p : Nat) : Nat := resolveIn d.med.live.reloc p d.med.live.reloc.length a

/-- The longest chain of live entries that ends at a block (R169). -/
def chainTo (rs : List Reloc) : Nat → Nat → Nat
  | 0, _ => 0
  | n + 1, a =>
    match rs.find? (fun x => x.new = a) with
    | some x => 1 + chainTo rs n x.old
    | none => 0

/-- MED_RELOC and the flags of R167 brought up to the table. -/
def Dev.relocRegs (d : Dev) : Dev :=
  let n := d.med.live.reloc.length
  let d := d.set R.MED_RELOC_LIVE n
  let d := if 786432 ≤ n then d.set R.MED_STATUS_RELOC_STALE 1 else if n ≤ 524288 then d.set R.MED_STATUS_RELOC_STALE 0 else d
  let d := d.set R.MED_STATUS_RELOC_FULL (b2n (1048576 ≤ n))
  let d := d.set R.MED_RELOC_OVERLIMIT (min (d.med.queue.length) (2 ^ 20 - 1))
  (d.set R.MED_MAP_EPOCH_EPOCH d.med.live.epoch).set R.MED_MAP_FLOOR_FLOOR d.med.live.floor

/-! ## Read counts (R170, R171) -/

/-- Whether a block belongs to a sealed namespace. -/
def Dev.blkSealed (d : Dev) (a : Nat) : Bool :=
  d.med.live.sbs.any (fun e =>
    (match Map.find d.med.live.ns e.2.ns with
      | some n => n.isSealed
      | none => false) && e.2.members.any (fun b => d.resolve b 0 == a))

/-- `n` page senses of a block counted; at READ_LIMIT a block of a sealed namespace is queued for refresh. -/
def Dev.sense_ (d : Dev) (a n : Nat) : Dev :=
  let b := d.blk a
  let r := min (b.reads + n) (2 ^ 32 - 1)
  let d := d.setBlk a { b with reads := r }
  let lim := d.readLimit
  if b.reads < lim ∧ lim ≤ r ∧ !d.med.queue.contains a ∧ d.blkSealed a = true then
    (d.modMed (fun m => { m with queue := m.queue ++ [a] })).relocRegs
  else d

/-! ## Reading a codeword (R150) -/

/-- What one step makes of a stored payload: the bytes it passes, or whether a miscorrection is caught. -/
def senseOf (stored : Option Bytes) (s : Sense) : Option Bytes × Bool :=
  match s, stored with
  | .stored, x => (x, false)
  | .wrong p, some x => if crc32c p = crc32c x then (some p, false) else (none, true)
  | .wrong _, none => (none, true)
  | .fails, _ => (none, false)

def xorBytes (a b : Bytes) : Bytes := (a.zip b).map (fun x => x.1 ^^^ x.2)

/-- Step 5: the payload as the XOR of the other members' payloads, where each can be read (R148, R150). -/
def Dev.rebuild (d : Dev) (members : List Nat) (m page cw p : Nat) (bad : List Nat) : Option Bytes × Dev :=
  let others := (List.range 32).filter (· != m)
  let d := others.foldl (fun d j => d.sense_ (d.resolve (members.getD j 0) p) 1) d
  let parts := others.map (fun j =>
    let a := d.resolve (members.getD j 0) p
    if bad.contains j || d.blkFailed a then none else Map.find d.med.nand (pcaOf a page cw))
  if parts.any (·.isNone) then (none, d)
  else (some (parts.foldl (fun acc x => xorBytes acc (x.getD [])) (List.replicate 3840 0)), d)

/-- Steps 1 to 5 for one codeword of a stripe: the payload and whether it came from step 5. -/
def Dev.readCw (d : Dev) (members : List Nat) (m page cw p : Nat) (o : CwOutcome) : Option (Bytes × Bool) × Dev :=
  let a := d.resolve (members.getD m 0) p
  let d := d.hlth cwRead
  let overLim := d.med.queue.contains a
  let d := if overLim then d.hlth overlimitReads else d
  let stored := Map.find d.med.nand (pcaOf a page cw)
  let five := fun (d : Dev) =>
    match d.rebuild members m page cw p o.badMembers with
    | (some b, d) =>
      let d := (d.hlth cwRebuilt).countRebuild a
      let d := if d.med.repair.contains a then d else d.modMed (fun x => { x with repair := x.repair ++ [a] })
      (some (b, true), d)
    | (none, d) => (none, d)
  if d.blkFailed a then five d else
  let d := d.sense_ a 1
  match senseOf stored o.hard with
  | (some b, _) => (some (b, false), d.hlth cwHard)
  | (none, true) => five (d.hlth cwCrcCatch)
  | (none, false) =>
    let d := d.sense_ a (if overLim then 16 else min o.tries (fld d.profile 0xE 1))
    match senseOf stored o.retry with
    | (some b, _) => (some (b, false), d.hlth cwRetry)
    | (none, true) => five (d.hlth cwCrcCatch)
    | (none, false) =>
      let d := d.sense_ a 2
      match senseOf stored o.soft with
      | (some b, _) => (some (b, false), d.hlth cwSoft)
      | (none, true) => five (d.hlth cwCrcCatch)
      | (none, false) => five d

/-! ## The MAP section (R158) -/

def secMap : Nat := 8

/-- A field of extent record `i`. -/
def Dev.extFld (d : Dev) (f i off n : Nat) : Nat := d.sfld f secMap (d.sfld f secMap 0x10 8 + 32 * i + off) n

/-- A field of namespace entry `i`. -/
def Dev.mapNs (d : Dev) (f i off n : Nat) : Nat := d.sfld f secMap (0x40 + 32 * i + off) n

/-- The members of superblock `k` of namespace entry `i`. -/
def Dev.mapSb (d : Dev) (f i k : Nat) : List Nat :=
  let o := d.mapNs f i 0x10 8 + 128 * k
  (List.range 32).map (fun m => d.sfld f secMap (o + 4 * m) 4)

/-- Codewords of extent `x` (R152). -/
def Dev.extCount (d : Dev) (f x : Nat) : Nat := cdiv (d.extFld f x 4 2 + d.extFld f x 8 4) 3840

/-- The stripe place of codeword `i` of extent `x`: members, member, page, codeword. -/
def Dev.extPlace (d : Dev) (f x i : Nat) : List Nat × Nat × Nat × Nat :=
  let s := d.extFld f x 0x10 8 + i
  let n := d.sbSectors
  let (page, m, cw) := placeOf (s % n)
  (d.mapSb f (d.extFld f x 0 2) (s / n), m, page, cw)

/-- The media channel that delivers extent `x` (R558). -/
def Dev.extChannel (d : Dev) (f x : Nat) : Nat := (d.extPlace f x 0).2.1

/-! ## Planned reads (R150 to R153, R558) -/

def FnRun.readOf (r : FnRun) (pos tok : Nat) : Option MediaRead := r.reads.find? (fun x => x.pos = pos && x.tok = tok)

/-- A function's read of a position set; reads of positions no longer in flight are dropped. -/
def Dev.setRead (d : Dev) (f : Nat) (x : MediaRead) : Dev :=
  d.modFn f (fun r =>
    let keep := r.reads.filter (fun y => !(y.pos = x.pos && y.tok = x.tok) && r.live.any (fun l => l.pos = y.pos && l.tok = y.tok))
    { r with reads := keep ++ [x] })

/-- An extent whose bytes have been proven leaves the media channel (R153, R558). -/
def Dev.deliverExtent (d : Dev) (f ch ep : Nat) (l : Live) (x : MediaRead) (b : Bytes) : Dev :=
  let d := d.setRead f { x with
    fin := true
    failed := 0 }
  let d := d.retire (poolNo 6 f) 1
  let d := d.setFn f ((d.fn f).setLive { l with crc := crc32c b })
  let d := d.pushOut ep (granulesOf l.pos l.tok l.idx b true)
  let d := if x.failed ≠ 0 then d.unstall f l.pos else d
  d.stageComplete f 1 ch l.pos l.tok

/-- Step 6, and step 7 where it fails too (R150, R151, R160). -/
def Dev.lastSteps (d : Dev) (f ch ep : Nat) (l : Live) (x : MediaRead) (replica : Remote) : Dev :=
  let e := d.sampleExtent f l.idx
  let ok := match replica with
    | .data b => if d.extFld f e 2 2 ≠ 0xFFFF ∧ b.length = d.extFld f e 8 4 ∧ crc32c b = d.extFld f e 0xC 4 then some b else none
    | _ => none
  match ok with
  | some b => (d.hlth cwReplica).deliverExtent f ch ep l x b
  | none =>
    let d := (d.hlth cwUncorrectable).setRead f { x with failed := 1 }
    if x.failed ≠ 0 then d else (d.raise 129 f).stall f l.pos St.mediaUncorrectable

/-- Every codeword of an extent has been corrected: the extent's CRC decides (R150). -/
def Dev.extentCheck (d : Dev) (f ch ep : Nat) (l : Live) (x : MediaRead) (bad : List Nat) (replica : Remote) : Dev :=
  let e := d.sampleExtent f l.idx
  let off := d.extFld f e 4 2
  let len := d.extFld f e 8 4
  let want := d.extFld f e 0xC 4
  let p := d.mapNs f (d.extFld f e 0 2) 4 4
  let bytes := fun (cws : List (Bytes × Bool)) => slice (cws.flatMap (·.1)) off len
  if crc32c (bytes x.cws) = want then d.deliverExtent f ch ep l x (bytes x.cws)
  else
    let (cws, ok, d) := (List.range x.cws.length).foldl (fun (acc : List (Bytes × Bool) × Bool × Dev) i =>
      let (cws, ok, d) := acc
      let c := x.cws.getD i ([], false)
      if c.2 then (cws ++ [c], ok, d) else
      let (ms, m, page, cw) := d.extPlace f e i
      match d.rebuild ms m page cw p bad with
      | (some b, d) => (cws ++ [(b, true)], ok, d.hlth cwRebuilt)
      | (none, d) => (cws ++ [c], false, d)) ([], true, d)
    if ok && crc32c (bytes cws) = want then d.deliverExtent f ch ep l x (bytes cws)
    else d.lastSteps f ch ep l x replica

/-- MEDIA_CODEWORD_READ: the next codeword of a position's extent, or, where the read has failed and a boundary of the
function has passed, steps 5 and 6 again (R150 to R152). -/
def Dev.codewordRead (d : Dev) (f pos : Nat) (o : CwOutcome) (replica : Remote) : Dev :=
  match d.liveAt f pos with
  | none => d
  | some l =>
    if l.waiting ∨ l.hit ∨ !d.mOnline then d else
    let e := d.sampleExtent f l.idx
    let ch := d.extChannel f e
    match (d.img f).eps.find? (fun x => x.kind = 1 && x.inst = ch && x.out && x.port = d.samplePort f l.idx) with
    | none => d
    | some ep =>
      let r := d.fn f
      let busy := (r.reads.filter (fun x => !x.fin && r.live.any (fun y => y.pos = x.pos && y.tok = x.tok))).length
      let x? := r.readOf pos l.tok
      let slots := (d.img f).medSlots.foldl (· + ·) 0
      if x?.isNone ∧ slots ≤ busy then d else
      let d := if x?.isNone then d.issue (poolNo 6 f) 1 else d
      let x := x?.getD ⟨pos, l.tok, [], 0, false⟩
      let n := d.extCount f e
      let i := x.cws.length
      if x.fin ∨ x.failed = 1 then d
      else if i < n ∧ ¬ withinCap (d.workCap f 1 ch l.idx) (i + 1) then
        let d := (d.setRead f { x with fin := true }).retire (poolNo 6 f) 1
        d.markOut f 1 ch [ep.ep] pos l.tok l.idx St.workCap
      else if i < n then
        let (ms, m, page, cw) := d.extPlace f e i
        let p := d.mapNs f (d.extFld f e 0 2) 4 4
        let (got, d) :=
          if x.failed = 2 then
            (match d.rebuild ms m page cw p o.badMembers with
              | (some b, d) => (some (b, true), d.hlth cwRebuilt)
              | (none, d) => (none, d))
          else d.readCw ms m page cw p o
        match got with
        | none => d.lastSteps f ch ep.ep l x replica
        | some c =>
          let x := { x with cws := x.cws ++ [c] }
          if i + 1 < n then d.setRead f x else d.extentCheck f ch ep.ep l x o.badMembers replica
      else d.extentCheck f ch ep.ep l x o.badMembers replica

def execMediaCodewordRead (f : FnId) (pos : Nat) (o : CwOutcome) (replica : Remote) (s : State) :
    Host.Outcome State Fault Refusal :=
  s.act .engine (fun d => if d.halted f then d else d.codewordRead f pos o replica)

/-! ## The media window (R147) -/

/-- The superblock members and member of a block address, as its own or as what a member resolves to. -/
def Dev.stripeOf (d : Dev) (a : Nat) : List Nat × Nat :=
  match d.med.live.sbs.findSome? (fun e => (e.2.members.findIdx? (fun b => b = a || d.resolve b 0 = d.resolve a 0)).map
      (fun m => (e.2.members, m))) with
  | some x => x
  | none => (List.replicate (blkChan a) 0 ++ [a], blkChan a)

/-- A read of `len` bytes at media-window address `addr`: its bytes, or its status. -/
def Dev.windowRead (d : Dev) (addr len : Nat) (o : CwOutcome) : (Status × Bytes) × Dev :=
  let off := addr - mediaBase
  let pca := off / 4096
  let k := off % 4096
  let a := pca / 4096
  if !d.mOnline then ((St.mediaOffline, []), d)
  else if 3840 < k + len ∨ !d.blkMapped a ∨ blkMeta a = true ∨ d.mPages ≤ bits pca 11 2 then ((St.addressUnmapped, []), d)
  else
    let (ms, m) := d.stripeOf a
    match d.readCw ms m (bits pca 11 2) (pca % 4) 0 o with
    | (some (b, _), d) => ((St.ok, slice b k len), d)
    | (none, d) => ((St.mediaUncorrectable, []), d.hlth cwUncorrectable)

/-! ## Failed dies -/

def execNandCommandTimeout (ch die : Nat) (resetFails : Bool) (s : State) : Host.Outcome State Fault Refusal :=
  s.act .live (fun d => if resetFails && ch < 32 && die < d.mDies then d.failDie ch die else d)

/-! ## Blocks and superblocks (R148, R149, R156, R176) -/

/-- Every block address of a channel outside the metadata area. -/
def Dev.chanBlocks (d : Dev) (ch : Nat) : List Nat :=
  ((List.range d.mDies).flatMap (fun die => (List.range d.mPlanes).flatMap (fun pl => (List.range d.mBlocks).map (fun b =>
    ((ch * 32 + die) * 4 + pl) * 4096 + b)))).filter (fun a => !blkMeta a)

/-- Erased blocks of a channel on dies that work. -/
def Dev.erased (d : Dev) (ch : Nat) : List Nat := (d.chanBlocks ch).filter (fun a => (d.blk a).st == 0 && !d.blkFailed a)

/-- The spare reserve of a channel at its initial size. -/
def Dev.spareSize (d : Dev) : Nat := d.mDies * d.mPlanes * d.mBlocks * fld d.profile 0x24 2 / 1000

/-- What is left of a channel's spare reserve. -/
def Dev.spareLeft (d : Dev) (ch : Nat) : Nat := d.spareSize - Map.get 0 d.med.live.spareUsed ch

/-- One of a list of blocks; which one the manual leaves open. -/
def Dev.pickBlock (d : Dev) (l : List Nat) : Option Nat × Dev :=
  if l.isEmpty then (none, d) else
  let (w, d) := d.draw
  (l[w.toNat % l.length]?, d)

/-- A block of the spare reserve taken into use: `a` where it is erased and of the channel. -/
def Dev.useSpare (d : Dev) (ch a : Nat) : Dev :=
  (d.setBlk a { d.blk a with
    st := 1
    reads := 0 }).modLive (fun m => { m with spareUsed := Map.upd 0 m.spareUsed ch (· + 1) })

/-- A freed block erased and back in the free pool; the spare reserve fills first (R176). -/
def Dev.returnBlock (d : Dev) (a : Nat) : Dev :=
  let b := d.blk a
  let worn := d.endurance ≠ 0 ∧ d.endurance ≤ b.erases + 1
  let d := d.setBlk a ⟨if worn then 3 else 0, b.erases + 1, 0⟩
  let d := d.hlth blockErases
  if worn then d else d.modLive (fun m => { m with spareUsed := Map.upd 0 m.spareUsed (blkChan a) (· - 1) })

/-- A new superblock of one erased block on every channel beyond the spare reserve; its number is `k`. -/
def Dev.newSb (d : Dev) (k ns : Nat) : Option Dev :=
  (List.range 32).foldl (fun (o : Option Dev) ch =>
    o.bind (fun d =>
      let l := d.erased ch
      if l.length ≤ d.spareLeft ch then none else
      match d.pickBlock l with
      | (some a, d) =>
        let d := d.setBlk a { d.blk a with
          st := 1
          reads := 0 }
        some (d.setSb k { d.sb k with members := (d.sb k).members ++ [a] })
      | (none, _) => none)) (some (d.setSb k ⟨ns, [], [], []⟩))

/-- Superblocks that the writable region may hold: its user capacity and one eighth more (R155). -/
def Dev.writableSbs (d : Dev) : Nat := cdiv (286331153 + 286331153 / 8) d.sbSectors

/-- The writable region's superblocks. -/
def Dev.wSbs (d : Dev) : List (Nat × SupBlk) := d.med.live.sbs.filter (fun e => e.1 < 2 ^ 20)

/-- A member block replaced by an erased block of the same channel, its programmed pages copied (R156, R175): the old
block is retired. -/
def Dev.replaceMember (d : Dev) (k m : Nat) : Option Dev :=
  let b := d.sb k
  let old := b.members.getD m 0
  match d.pickBlock (d.erased m) with
  | (none, _) => none
  | (some new, d) =>
    if d.spareLeft m = 0 then none else
    let moved := (d.med.nand.filter (fun e => e.1 / 4096 = old)).map (fun e => (e.1 % 4096 + new * 4096, e.2))
    let d := d.modMed (fun x => { x with nand := moved.foldl (fun l e => Map.insert l e.1 e.2) (x.nand.filter (fun e => e.1 / 4096 ≠ old)) })
    let d := ((d.useSpare m new).setBlkSt old 3).hlth programFails
    some (d.setSb k { b with members := setNth b.members m new })

/-- The namespaces with a sector on a superblock. -/
def Dev.nsOn (d : Dev) (k : Nat) : List Nat :=
  let n := d.sbSectors
  (d.med.live.pmap.filter (fun e => e.2 / n = k)).foldl (fun l e => insNat (e.1 / 2 ^ 48) l) []

/-- Namespaces become read-only (R175, R176). -/
def Dev.readOnly (d : Dev) (l : List Nat) : Dev :=
  let d := l.foldl (fun d n => match d.ns n with
    | some x => d.setNs n { x with ro := true }
    | none => d) d
  if l.isEmpty then d else d.raise 133 0

/-- A page of a superblock that failed to program: the member is replaced; with none left in the writable region GC halts
and the namespaces on the superblock become read-only (R156, R175). -/
def Dev.programFailed (d : Dev) (k m : Nat) : Dev :=
  match d.replaceMember k m with
  | some d => d
  | none =>
    let d := d.hlth programFails
    if (d.sb k).ns = 0 then (d.modLive (fun x => { x with gcHalted := true })).readOnly (d.nsOn k)
    else d.readOnly [(d.sb k).ns]

/-- Whether power state P0 holds: in P1 to P3 NAND stands by (R196). -/
def Dev.inP0 (d : Dev) : Bool := d.get R.STC_POWER_STATUS_CURRENT == 0

/-- PAGE_PROGRAM: a data page whose four codewords are in the write buffer (R149). -/
def Dev.pageProgram (d : Dev) (k page m : Nat) (ok : Bool) : Dev :=
  let b := d.sb k
  let cws := (List.range 4).map (fun c => Map.find d.med.wbuf (placeNo k page m c))
  if !d.mOnline ∨ b.members.length ≠ 32 ∨ 31 < m ∨ m = page % 32 ∨ b.data.contains (32 * page + m) ∨ cws.any (·.isNone) = true then d
  else if !ok then d.programFailed k m
  else
    let a := b.members.getD m 0
    let d := d.modMed (fun x => { x with
      nand := ((List.range 4).zip cws).foldl (fun l e => Map.insert l (pcaOf a page e.1) (e.2.getD [])) x.nand })
    (d.setSb k { b with data := insNat (32 * page + m) b.data }).hlth pagePrograms

def execPageProgram (sb page member : Nat) (ok : Bool) (s : State) : Host.Outcome State Fault Refusal :=
  s.act .live (fun d => d.pageProgram sb page member ok)

/-- PARITY_PROGRAM: the parity page of a stripe whose data pages are all programmed; the stripe becomes protected and
leaves the write buffer (R149). -/
def Dev.parityProgram (d : Dev) (k page : Nat) (ok : Bool) : Dev :=
  let b := d.sb k
  let p := page % 32
  let others := (List.range 32).filter (· != p)
  if !d.mOnline ∨ b.members.length ≠ 32 ∨ b.prot.contains page ∨ !others.all (fun m => b.data.contains (32 * page + m)) then d
  else if !ok then d.programFailed k p
  else
    let par := (List.range 4).map (fun c => others.foldl (fun acc m =>
      xorBytes acc ((Map.find d.med.nand (pcaOf (b.members.getD m 0) page c)).getD [])) (List.replicate 3840 (0 : Byte)))
    let a := b.members.getD p 0
    let d := d.modMed (fun x => { x with
      nand := ((List.range 4).zip par).foldl (fun l e => Map.insert l (pcaOf a page e.1) e.2) x.nand
      wbuf := x.wbuf.filter (fun e => e.1 / 128 ≠ k * 1024 + page) })
    (d.setSb k { b with prot := insNat page b.prot }).hlth pagePrograms

def execParityProgram (sb page : Nat) (ok : Bool) (s : State) : Host.Outcome State Fault Refusal :=
  s.act .live (fun d => d.parityProgram sb page ok)

/-- BLOCK_ERASE (R163, R176): a freed block that no live entry names as OLD. -/
def Dev.blockErase (d : Dev) (a : Nat) (ok : Bool) : Dev :=
  if (d.blk a).st ≠ 2 ∨ d.med.live.reloc.any (fun x => x.old = a) = true ∨ d.med.freeing.contains a then d else
  let d := d.modMed (fun x => { x with nand := x.nand.filter (fun e => e.1 / 4096 ≠ a) })
  if ok then d.returnBlock a else (d.setBlkSt a 3).hlth eraseFails

def execBlockErase (block : Nat) (ok : Bool) (s : State) : Host.Outcome State Fault Refusal :=
  s.act .live (fun d => if d.inP0 then d.blockErase block ok else d)

/-! ## Relocation (R161 to R169, R172) -/

/-- Media read slots of a channel that no function owns (R172). -/
def Dev.unowned (d : Dev) (ch : Nat) : Nat := 64 - d.loadedFns.foldl (fun n fi => n + fi.2.medSlots.getD ch 0) 0

/-- Whether a block may be moved to `new` now. -/
def Dev.mayMove (d : Dev) (old new : Nat) : Bool :=
  let ch := blkChan old
  d.mOnline && d.inP0 && d.med.move.isNone && !d.has R.MED_STATUS_RELOC_FULL && 0 < d.spareLeft ch && 0 < d.unowned ch
    && blkChan new == ch && d.blkMapped new && !blkMeta new && (d.blk new).st == 0 && !d.blkFailed new
    && chainTo d.med.live.reloc d.med.live.reloc.length old < 4

/-- A block's pages copied to an erased block of the channel, or the copy failing to program. -/
def Dev.moveBlock (d : Dev) (old new counter : Nat) (ok : Bool) : Dev :=
  if !d.mayMove old new then d
  else if !ok then (d.setBlkSt new 3).hlth programFails
  else
    let pages := (d.med.nand.filter (fun e => e.1 / 4096 = old)).map (fun e => (e.1 % 4096 + new * 4096, e.2))
    let d := d.sense_ old (pages.length / 4)
    let d := d.modMed (fun x => { x with
      nand := pages.foldl (fun l e => Map.insert l e.1 e.2) x.nand
      move := some (old, new) })
    (d.useSpare (blkChan old) new).hlth counter

/-- BLOCK_REFRESH: the block at the head of the refresh queue (R171, R172). -/
def execBlockRefresh (newBlock : Nat) (ok : Bool) (s : State) : Host.Outcome State Fault Refusal :=
  s.act .live (fun d => match d.med.queue with
    | [] => d
    | old :: _ => d.moveBlock old newBlock refreshes ok)

/-- BLOCK_REPAIR: the oldest block queued for repair (R150). A block outside the sealed namespaces is replaced in its
superblock and makes no entry (R156). -/
def execBlockRepair (newBlock : Nat) (ok : Bool) (s : State) : Host.Outcome State Fault Refusal :=
  s.act .live (fun d => match d.med.repair with
    | [] => d
    | old :: rest =>
      if d.blkSealed old then d.moveBlock old newBlock repairs ok
      else
        match d.med.live.sbs.findSome? (fun e => (e.2.members.findIdx? (· == old)).map (fun m => (e.1, m))) with
        | none => d.modMed (fun m => { m with repair := rest })
        | some (k, m) =>
          match (if ok then d.replaceMember k m else none) with
          | some d => (d.modMed (fun m => { m with repair := rest })).hlth repairs
          | none => d)

/-- RELOCATION_COMMIT: the entry is in the metadata area and live (R162, R164). -/
def Dev.relocCommit (d : Dev) : Dev :=
  match d.med.move with
  | none => d
  | some (old, new) =>
    let raise_ := d.med.live.exported && !d.med.live.raised
    let d := d.modLive (fun m =>
      let ep := if raise_ then m.epoch + 1 else m.epoch
      { m with
        epoch := ep
        raised := m.raised || raise_
        reloc := m.reloc ++ [⟨old, new, ep⟩] })
    let d := d.modMed (fun m => { m with
      move := none
      queue := m.queue.filter (· != old)
      repair := m.repair.filter (· != old)
      saved := { m.saved with
        reloc := m.live.reloc
        epoch := m.live.epoch
        raised := m.live.raised
        blks := m.live.blks
        spareUsed := m.live.spareUsed } })
    d.relocRegs

def execRelocationCommit (s : State) : Host.Outcome State Fault Refusal := s.act .live (fun d => d.relocCommit)

/-- The lowest self MAP_EPOCH among loaded functions' MAP sections. -/
def Dev.mapEpochs (d : Dev) : List Nat :=
  d.loadedFns.flatMap (fun fi =>
    if (fi.2.sect secMap).isNone then [] else
    ((List.range (d.sfld fi.1 secMap 4 4)).filter (fun i => d.mapNs fi.1 i 0 2 = 0xFFF)).map (fun i => d.mapNs fi.1 i 4 4))

/-- MAP_FLOOR_WRITE (R168). -/
def Dev.floorWrite (d : Dev) (v : Nat) : Dev :=
  let st := if v < d.med.live.floor ∨ d.med.live.epoch < v then St.mapFloorInvalid
    else if d.mapEpochs.any (fun e => e < v) then St.mapFloorInUse else St.ok
  let d := d.setSt R.MED_MAP_FLOOR_STATUS st
  if st ≠ St.ok then d else
  let gone := d.med.live.reloc.filter (fun x => x.epoch ≤ v)
  let d := d.modLive (fun m => { m with
    floor := v
    reloc := m.reloc.filter (fun x => v < x.epoch)
    sbs := m.sbs.map (fun e => (e.1, { e.2 with members := e.2.members.map (fun a => resolveIn gone 0 gone.length a) })) })
  let d := d.modMed (fun m => { m with
    freeing := m.freeing ++ gone.map (·.old)
    saved := { m.saved with
      floor := v
      reloc := m.live.reloc
      sbs := m.saved.sbs.map (fun e => (e.1, { e.2 with members := e.2.members.map (fun a => resolveIn gone 0 gone.length a) })) } })
  d.relocRegs

def execMapFloorWrite (v : Word) (s : State) : Host.Outcome State Fault Refusal :=
  s.act .live (fun d => (d.floorWrite (getBits v 31 0)).reply St.ok)

/-- MAP_FLOOR_FREE_DONE: the OLD blocks are erased and returned (R168). -/
def execMapFloorFreeDone (s : State) : Host.Outcome State Fault Refusal :=
  s.act .live (fun d =>
    let l := d.med.freeing
    let d := d.modMed (fun m => { m with
      freeing := []
      nand := m.nand.filter (fun e => !l.contains (e.1 / 4096)) })
    l.foldl (fun d a => d.returnBlock a) d)

def execReadCountSave (s : State) : Host.Outcome State Fault Refusal :=
  s.act .live (fun d => if d.mOnline then d.modMed (fun m => { m with saved := { m.saved with blks := m.live.blks } }) else d)

/-! ## Garbage collection (R173 to R175) -/

/-- The next place of the writable region, a new superblock opened where the last one is full; none where no erased block
is left. -/
def Dev.wPlace (d : Dev) : Option (Nat × Dev) :=
  let n := d.sbSectors
  match d.med.live.wNext with
  | some i =>
    let nx := if (i + 1) % n = 0 then none else some (i + 1)
    some (i, d.modLive (fun m => { m with wNext := nx }))
  | none =>
    let k := Map.fresh d.wSbs d.writableSbs 0
    if d.writableSbs ≤ k then none else
    (d.newSb k 0).map (fun d => (k * n, d.modLive (fun m => { m with wNext := some (k * n + 1) })))

/-- The write-buffer place of an index of the writable region, or of a superblock's sector. -/
def Dev.placeOfIndex (d : Dev) (i : Nat) : Nat :=
  let (page, m, cw) := placeOf (i % d.sbSectors)
  placeNo (i / d.sbSectors) page m cw

/-- The payload at a sector of a superblock as the device holds it: from the write buffer, or from the page. -/
def Dev.payloadAt (d : Dev) (k q : Nat) : Bytes :=
  let (page, m, cw) := placeOf q
  match Map.find d.med.wbuf (placeNo k page m cw) with
  | some b => b
  | none => (Map.find d.med.nand (pcaOf (d.resolve ((d.sb k).members.getD m 0) 0) page cw)).getD (List.replicate 3840 0)

/-- Valid sectors of writable superblock `k`: page-map entries that name it. -/
def Dev.validIn (d : Dev) (k : Nat) : List (Nat × Nat) := d.med.live.pmap.filter (fun e => e.2 / d.sbSectors = k)

/-- The superblock that GC takes: one with a FAILED member, else the fewest valid sectors, ties to the lowest number. -/
def Dev.gcChoice (d : Dev) : Option Nat :=
  let opened := d.med.live.wNext.map (fun i => i / d.sbSectors)
  let l := (d.wSbs.filter (fun e => some e.1 ≠ opened)).map (fun e => (e.1, (d.validIn e.1).length, e.2.members.any d.blkFailed))
  match l.find? (fun e => e.2.2) with
  | some e => some e.1
  | none => (l.foldl (fun (best : Option (Nat × Nat)) e => match best with
      | none => some (e.1, e.2.1)
      | some b => if e.2.1 < b.2 then some (e.1, e.2.1) else some b) none).map (·.1)

/-- The metadata area brought up to the map state (R190, R191): an entry whose payload still waits in the write buffer
keeps what was durable before. -/
def Dev.saveMeta (d : Dev) : Dev :=
  let m := d.med
  let waits := fun (i : Nat) => (Map.find m.wbuf (d.placeOfIndex i)).isSome
  let pmap := m.live.pmap.filterMap (fun e =>
    if waits e.2 then (Map.find m.saved.pmap e.1).map (fun v => (e.1, v)) else some e)
  let nss := m.live.ns.map (fun e =>
    let pend := ((List.range e.2.sbs.length).zip e.2.sbs).flatMap (fun x =>
      (m.wbuf.filter (fun w => w.1 / 131072 = x.2)).filterMap (fun w =>
        (sectorAt (w.1 / 128 % 1024) (w.1 / 4 % 32) (w.1 % 4)).map (fun q => x.1 * d.sbSectors + q)))
    (e.1, { e.2 with wp := pend.foldl min e.2.wp }))
  d.modMed (fun m => { m with saved := { m.live with
    pmap := pmap
    ns := nss
    counters := m.saved.counters
    gcHalted := m.saved.gcHalted
    temps := m.saved.temps } })

/-- A collected superblock without a valid sector, live or durable, is freed: its blocks are to be erased. -/
def Dev.gcFree (d : Dev) (k : Nat) : Dev :=
  if !(d.validIn k).isEmpty ∨ d.med.saved.pmap.any (fun e => e.2 / d.sbSectors = k) = true then d else
  let d := (d.sb k).members.foldl (fun d a => d.setBlkSt a 2) d
  d.modLive (fun m => { m with sbs := Map.erase m.sbs k })

/-- GC_RUN (R173). -/
def Dev.gcRun (d : Dev) : Dev :=
  let low := d.writableSbs - d.wSbs.length < 4 || d.wSbs.any (fun e => e.2.members.any d.blkFailed)
  if !d.mOnline ∨ !d.inP0 ∨ d.med.gcSb.isSome = true ∨ d.med.live.gcHalted = true ∨ !low ∨
      !(List.range 32).all (fun c => 0 < d.unowned c) then d else
  match d.gcChoice with
  | none => d
  | some k =>
    let d := d.modMed (fun m => { m with gcSb := some k })
    let d := (d.validIn k).foldl (fun d e =>
      match d.wPlace with
      | none => d
      | some (dst, d) =>
        let b := d.payloadAt (e.2 / d.sbSectors) (e.2 % d.sbSectors)
        d.modMed (fun m => { m with
          wbuf := Map.insert m.wbuf (d.placeOfIndex dst) b
          gc := m.gc ++ [⟨e.1, e.2, dst⟩] })) d
    if d.med.gc.isEmpty then (d.gcFree k).modMed (fun m => { m with gcSb := none }) else d

def execGcRun (s : State) : Host.Outcome State Fault Refusal := s.act .live (fun d => d.gcRun)

/-- GC_MAP_UPDATE: the oldest copy's target page has programmed, or has failed to (R174, R175). -/
def Dev.gcUpdate (d : Dev) (ok : Bool) : Dev :=
  match d.med.gc with
  | [] => d
  | c :: rest =>
    let (page, m, _) := placeOf (c.dst % d.sbSectors)
    let k := c.dst / d.sbSectors
    if !ok then (d.programFailed k m).hlth gcTargetFails
    else if !(d.sb k).data.contains (32 * page + m) then d
    else
      let d := if Map.find d.med.live.pmap c.key = some c.src then
          (d.modLive (fun x => { x with pmap := Map.insert x.pmap c.key c.dst })).hlth gcCopies
        else d
      let d := d.modMed (fun x => { x with gc := rest })
      if rest.isEmpty then
        (match d.med.gcSb with
          | some k => ((d.saveMeta).gcFree k).saveMeta.modMed (fun x => { x with gcSb := none })
          | none => d)
      else d

def execGcMapUpdate (ok : Bool) (s : State) : Host.Outcome State Fault Refusal := s.act .live (fun d => d.gcUpdate ok)

/-! ## Start-up (R143, R178) -/

/-- A row of bits with the bits of a circulant row added: row `r` of a 32 × 32 identity shifted right by `s`. -/
def circBit (r s : Nat) : Nat := (r + s) % 32

/-- Row `i` of the parity part (the last 63 block columns) of the parity-check matrix, as a number. -/
def parityRow (base : Bytes) (i : Nat) : Nat :=
  (List.range 63).foldl (fun acc c =>
    let e := (base.getD ((i / 32) * 1024 + 961 + c) 0).toNat
    if e = 255 then acc else acc + 2 ^ (32 * c + circBit (i % 32) e)) 0

/-- Elimination over GF(2): whether rows of `n` columns have full rank. -/
def fullRank : Nat → List Nat → Bool
  | 0, _ => true
  | n + 1, rows =>
    match rows.findIdx? (fun r => r.testBit n) with
    | none => false
    | some i =>
      let p := rows.getD i 0
      fullRank n ((rows.eraseIdx i).map (fun r => if r.testBit n then r ^^^ p else r))

/-- A base matrix of the form R144 allows that yields a systematic encoder (R143). -/
def matrixOk (base : Bytes) : Bool :=
  base.length == 64512 && base.all (fun b => b.toNat < 32 || b.toNat == 255) && fullRank 2016 ((List.range 2016).map (parityRow base))

/-- The media profile keeps to R142 and R143; its signatures were checked with the record (R517). -/
def profileOk (p : Bytes) : Bool :=
  p.length == 0xFD00 && p.take 8 == [0x47, 0x4C, 0x4D, 0x50, 0x52, 0x4F, 0x46, 0x31]
    && 1 ≤ fld p 8 1 && fld p 8 1 ≤ 32 && (fld p 9 1 == 1 || fld p 9 1 == 2 || fld p 9 1 == 4)
    && 1 ≤ fld p 0xA 2 && fld p 0xA 2 ≤ 4096 && 32 ≤ fld p 0xC 2 && fld p 0xC 2 ≤ 1024 && fld p 0xC 2 % 32 == 0
    && 1 ≤ fld p 0xE 1 && fld p 0xE 1 ≤ 16 && 1000 ≤ fld p 0x10 4 && fld p 0x10 4 ≤ 10000000
    && 10 ≤ fld p 0x24 2 && fld p 0x24 2 ≤ 200 && matrixOk ((p.drop 0xC0).take 64512)

/-- MEDIA_STARTUP (R178). -/
def Dev.mediaStartup (d : Dev) (x : MediaFound) : Dev :=
  if d.mOnline then d else
  let p := d.profile
  let fits := profileOk p && x.dies == fld p 8 1 && x.planes == fld p 9 1 && x.blocks == fld p 0xA 2 && x.pages == fld p 0xC 2
  if !fits ∨ !x.trained then (d.set R.MED_STATUS_STATE 0).setSt R.MED_STATUS_STATUS St.mediaProfile
  else if !x.metaOk then (d.set R.MED_STATUS_STATE 3).setSt R.MED_STATUS_STATUS St.metadataCorrupt
  else
    let add := if d.med.lost then fld p 0x10 4 / 16 else 0
    let d := d.modMed (fun m => { Med.reset with
      live := { m.saved with blks := m.saved.blks.map (fun e => (e.1, { e.2 with reads := min (e.2.reads + add) (2 ^ 32 - 1) })) }
      saved := m.saved
      nand := m.nand })
    let d := (((d.set R.MED_GEOM_DIES x.dies).set R.MED_GEOM_PLANES x.planes).set R.MED_GEOM_BLOCKS x.blocks).set
      R.MED_GEOM_PAGES x.pages
    let d := d.set R.MED_READ_LIMIT_LIMIT (fld p 0x10 4)
    let d := (List.range 16).foldl (fun d k => d.setWord (R.MED_DIE_FAIL k) 0) (d.set R.MED_STATUS_DIES_FAILED 0)
    let d := x.failedDies.foldl (fun d e => d.failDie e.1 e.2) d
    let overLim := (d.med.live.blks.filter (fun e => fld p 0x10 4 ≤ e.2.reads && d.blkSealed e.1)).map (·.1)
    let d := d.modMed (fun m => { m with queue := overLim })
    ((d.setSt R.MED_STATUS_STATUS St.ok).set R.MED_STATUS_STATE 2).relocRegs

def execMediaStartup (found : MediaFound) (s : State) : Host.Outcome State Fault Refusal :=
  s.act .live (fun d => d.mediaStartup found)

/-! ## Health (R179) -/

def execHealthLogSave (s : State) : Host.Outcome State Fault Refusal :=
  s.act .live (fun d => if d.mOnline then d.modMed (fun m => { m with saved := { m.saved with
    counters := m.live.counters
    gcHalted := m.live.gcHalted
    temps := m.live.temps } }) else d)

/-- Fabric-time seconds. -/
def Dev.ftSeconds (d : Dev) : Nat := d.ftNs / 1000000000

/-- TEMP_HISTORY_RECORD: one entry a minute, 1,440 kept. -/
def Dev.tempRecord (d : Dev) (hi lo : BitVec 8) : Dev :=
  let (tj, d) := match d.med.tj with
    | some x => (le 1 (wrap 8 x.1) ++ le 1 (wrap 8 x.2), d)
    | none => d.drawBytes 2
  let e := le 4 (d.ftSeconds / 60) ++ [hi, lo] ++ tj
  let d := d.modMed (fun m => { m with tj := none })
  d.modLive (fun m => { m with temps := (m.temps ++ [e]).drop (m.temps.length + 1 - 1440) })

def execTempHistoryRecord (nandMax nandMin : BitVec 8) (s : State) : Host.Outcome State Fault Refusal :=
  s.act .live (fun d => d.tempRecord nandMax nandMin)

/-- The health log. TEMP_MAX and SPARE_BLOCKS of a die are values the manual gives no source for: they are free. -/
def Dev.healthLog (d : Dev) : Bytes × Dev :=
  let m := d.med.live
  let init := d.spareSize
  let spare := (List.range 32).map d.spareLeft
  let pct := if init = 0 then 0 else spare.foldl (fun a x => min a (x * 100 / init)) 100
  let blks := m.blks
  let maxErase := blks.foldl (fun a e => max a e.2.erases) 0
  let wear := if d.endurance = 0 then 0 else min 255 (maxErase * 100 / d.endurance)
  let flags := b2n (d.has R.MED_STATUS_RELOC_STALE) + 2 * b2n (d.has R.MED_STATUS_RELOC_FULL) + 4 * b2n m.gcHalted
    + 8 * b2n (spare.any (· == 0))
  let ro := m.ns.foldl (fun a e => if e.2.ro then a + 2 ^ (e.1 - 1) else a) 0
  let hdr := [0x47, 0x4C, 0x48, 0x4C, 0x54, 0x48, 0x30, 0x31] ++ le 2 1 ++ le 2 (32 * d.mDies) ++ le 1 pct ++ le 1 wear
    ++ le 1 flags ++ [0] ++ le 8 d.ftSeconds ++ le 4 m.epoch ++ le 4 m.floor ++ le 4 m.reloc.length ++ le 4 d.med.queue.length
    ++ le 8 ro ++ m.counters.flatMap (fun c => le 8 c) ++ List.replicate 328 0
  let perDie := d.mPlanes * d.mBlocks
  let (dies, d) := (List.range (32 * d.mDies)).foldl (fun (acc : Bytes × Dev) i =>
    let (out, d) := acc
    let ch := i / d.mDies
    let die := i % d.mDies
    let mine := (blks.filter (fun e => blkChan e.1 = ch && blkDie e.1 = die)).map (·.2)
    let (free_, d) := d.drawBytes 3
    (out ++ le 1 (b2n (d.dieFailed ch die)) ++ free_.take 1 ++ le 2 (mine.filter (fun b => b.st = 3)).length ++ free_.drop 1 ++ [0, 0]
      ++ le 4 (mine.foldl (fun a b => max a b.erases) 0)
      ++ le 4 (if perDie = 0 then 0 else mine.foldl (fun a b => a + b.erases) 0 / perDie), d)) ([], d)
  (hdr ++ dies ++ m.temps.flatten ++ List.replicate (8 * (1440 - m.temps.length)) 0, d)

end Sys2Proof.Machine
end

