-- ==== Sys2Proof/Machine/Route.lean ====
section
/-! DEFINITION. The shape of a blend (R64) and the route of a sample through it (R93, R127, R558). -/

namespace Sys2Proof.Machine

/-- The directed graph of a blend: producer and consumer of each channel (R64). -/
def FnImage.edges (i : FnImage) : List ((Nat × Nat) × (Nat × Nat)) :=
  i.chans.filterMap (fun c => match i.ep c.prod, i.ep c.cons with
    | some p, some q => some ((p.kind, p.inst), (q.kind, q.inst))
    | _, _ => none)

/-- The producers of a set of instances joined to it, as often as it grows and `fuel` says. -/
def feeders (edges : List ((Nat × Nat) × (Nat × Nat))) : Nat → List (Nat × Nat) → List (Nat × Nat)
  | 0, s => s
  | n + 1, s =>
    let t := (s ++ (edges.filter (fun e => s.contains e.2)).map (·.1)).eraseDups
    if t.length = s.length then s else feeders edges n t

/-- The instances upstream of an input endpoint. -/
def FnImage.upstream (i : FnImage) (e : Nat) : List (Nat × Nat) :=
  match (i.chanTo e).bind (fun c => i.ep c.prod) with
  | some p => feeders i.edges 512 [(p.kind, p.inst)]
  | none => []

/-- The instance of an input endpoint and every instance downstream of it. -/
def FnImage.downstream (i : FnImage) (e : Nat) : List (Nat × Nat) :=
  match i.ep e with
  | some p => feeders (i.edges.map Prod.swap) 512 [(p.kind, p.inst)]
  | none => []

/-- The instances that a candidate's data passes: from CACHE_ENDPOINT on for a Pond hit (R127), else from the media
channel and port that deliver its extent (R558); none is known where neither gives it data. -/
def Dev.route (d : Dev) (f : Nat) (l : Live) : Option (List (Nat × Nat)) :=
  let i := d.img f
  if l.hit then some (i.downstream (d.cacheEp f)) else
  if (i.sect secMap).isNone then none else
  let ch := d.extChannel f (d.sampleExtent f l.idx)
  (i.eps.find? (fun x => x.kind = 1 && x.inst = ch && x.out && x.port = d.samplePort f l.idx)).map (fun e =>
    (1, ch) :: ((i.chanFrom e.ep).elim [] (fun c => i.downstream c.cons)))

/-- Whether a candidate's data passes an instance. -/
def Dev.passes (d : Dev) (f : Nat) (l : Live) (kind inst : Nat) : Bool :=
  match d.route f l with
  | some r => r.contains (kind, inst)
  | none => true

/-- The stages that a candidate's data does not pass: it has no work there (DEDUCED, log entry 23). -/
def Dev.offRoute (d : Dev) (f : Nat) (l : Live) : List Nat :=
  match d.route f l with
  | none => []
  | some r => (List.range (d.stageCount f)).filter (fun k =>
    match (d.img f).ep (d.sfld f 3 (0x40 + 16 * k) 2) with
    | some e => !r.contains (e.kind, e.inst)
    | none => false)

end Sys2Proof.Machine
end

