-- ==== Sys2Proof/Machine/Num.lean ====
section
/-! DEFINITION. Number formats (spec 10): layouts, exact values, rounding, conversion, XA, scales, flags and
the statistics block. A value is exact; every rounding names its target and answers the bits with the flags
it sets. -/

namespace Sys2Proof.Machine

/-! ## Flags (R290) -/

def flInvalid : Nat := 1
def flDivZero : Nat := 2
def flOverflow : Nat := 4
def flUnderflow : Nat := 8
def flInexact : Nat := 16
def flSaturated : Nat := 32

/-- A result and the flags that computing it set. -/
structure Num (α : Type) where
  val : α
  fl : Nat
  deriving DecidableEq, Repr

/-! ## Formats (R273 to R275) -/

/-- What the top encodings of a floating-point format are. -/
inductive Special where
  | ieee     -- infinities and NaNs
  | nanOnly  -- one NaN, no infinity (FP8E4M3)
  | plain    -- every encoding is a number
  deriving DecidableEq, Repr

/-- A number format. -/
inductive Fmt where
  | float (e m b : Nat) (sp : Special)
  | int (w : Nat)
  | uint8
  | xa320
  | xa2176
  deriving DecidableEq, Repr

def fp64 : Fmt := .float 11 52 1023 .ieee
def fp32 : Fmt := .float 8 23 127 .ieee
def fp16 : Fmt := .float 5 10 15 .ieee
def bf16 : Fmt := .float 8 7 127 .ieee
def fp8e5m2 : Fmt := .float 5 2 15 .ieee
def fp8e4m3 : Fmt := .float 4 3 7 .nanOnly
def fp6e3m2 : Fmt := .float 3 2 3 .plain
def fp6e2m3 : Fmt := .float 2 3 1 .plain
def fp4e2m1 : Fmt := .float 2 1 1 .plain

/-- The format that a code names (R273). -/
def fmtOf (code : Nat) : Option Fmt :=
  match code with
  | 0x01 => some fp32
  | 0x02 => some fp16
  | 0x03 => some bf16
  | 0x04 => some fp8e4m3
  | 0x05 => some .uint8
  | 0x06 => some (.int 8)
  | 0x07 => some fp8e5m2
  | 0x08 => some fp6e3m2
  | 0x09 => some fp6e2m3
  | 0x0A => some fp4e2m1
  | 0x0B => some (.int 32)
  | 0x0C => some (.int 16)
  | 0x0D => some (.int 4)
  | 0x0E => some fp64
  | 0x0F => some .xa320
  | 0x10 => some .xa2176
  | _ => none

/-- The bits of one element. -/
def Fmt.width : Fmt → Nat
  | .float e m _ _ => 1 + e + m
  | .int w => w
  | .uint8 => 8
  | .xa320 => 320
  | .xa2176 => 2176

def Fmt.isFloat : Fmt → Bool
  | .float .. => true
  | _ => false

/-! ## Exact values (R274, R278) -/

/-- An exact value: a NaN, signalling or quiet; an infinity; or (−1)^neg × m × 2^e. -/
inductive Val where
  | nan (signalling : Bool)
  | inf (neg : Bool)
  | fin (neg : Bool) (m : Nat) (e : Int)
  deriving DecidableEq, Repr

/-- The exact value of an integer. -/
def Val.ofInt (i : Int) : Val := .fin (decide (i < 0)) i.natAbs 0

/-- The value that a floating-point encoding holds (R274). -/
def decodeFloat (e m b : Nat) (sp : Special) (w : Nat) : Val :=
  let s := w.testBit (e + m)
  let x := bits w (e + m - 1) m
  let f := w % 2 ^ m
  let top := x == 2 ^ e - 1
  if sp = .ieee ∧ top then (if f = 0 then .inf s else .nan (!f.testBit (m - 1)))
  else if sp = .nanOnly ∧ top ∧ f = 2 ^ m - 1 then .nan false
  else if x = 0 then .fin s f (1 - (b : Int) - m)
  else .fin s (2 ^ m + f) ((x : Int) - b - m)

/-- The number of value bits and the weight of bit 0 (as 2^-L) of an XA form (R277). -/
def xaBits : Fmt → Nat
  | .xa2176 => 2168
  | _ => 312
def xaL : Fmt → Nat
  | .xa2176 => 1074
  | _ => 149

/-- The value that an element holds. An XA with NAN or both infinities is a NaN, with one it is that infinity. -/
def decode (f : Fmt) (w : Nat) : Val :=
  match f with
  | .float e m b sp => decodeFloat e m b sp w
  | .int n => Val.ofInt (sext n w)
  | .uint8 => .fin false (w % 256) 0
  | x =>
    let n := xaBits x
    let fl := w >>> n
    if fl.testBit 0 ∨ (fl.testBit 1 ∧ fl.testBit 2) then .nan false
    else if fl.testBit 1 then .inf false
    else if fl.testBit 2 then .inf true
    else
      let i := sext n w
      .fin (decide (i < 0)) i.natAbs (-(xaL x : Int))

/-! ## Rounding (R281, R282, R283) -/

/-- m × 2^e rounded to a multiple of 2^q, ties to even, as a count of 2^q; `sticky` says that a positive rest
below one unit of m follows. With the count comes whether it differs from the exact value. -/
def roundAt (m : Nat) (e q : Int) (sticky : Bool) : Nat × Bool :=
  if q ≤ e then (m * 2 ^ (e - q).toNat, sticky)
  else
    let n := (q - e).toNat
    let hi := m >>> n
    let rest := m % 2 ^ n
    let half := 2 ^ (n - 1)
    let up := half < rest || (rest == half && (sticky || hi % 2 == 1))
    (if up then hi + 1 else hi, rest != 0 || sticky)

/-- The exponent of the unit in the last place of a value of `m` × 2^e in a format with `mant` mantissa bits and
least exponent `emin`. -/
def ulpOf (mant : Nat) (emin : Int) (m : Nat) (e : Int) : Int :=
  max ((bitLen m : Int) + e - (mant + 1)) emin

/-- Largest finite encoding of a format, without its sign. -/
def maxEnc (e m : Nat) : Special → Nat
  | .ieee => (2 ^ e - 1) * 2 ^ m - 1
  | .nanOnly => 2 ^ (e + m) - 2
  | .plain => 2 ^ (e + m) - 1

/-- The encoding, without sign, of r × 2^q, where q is the format's unit for that value; it may lie beyond the
largest finite encoding. -/
def encMag (m b : Nat) (r : Nat) (q : Int) : Nat :=
  if r < 2 ^ m then r
  else
    let (r, q) := if 2 ^ (m + 1) ≤ r then (r / 2, q + 1) else (r, q)
    ((q + b + m).toNat) * 2 ^ m + (r - 2 ^ m)

/-- The canonical quiet NaN, or +0 where the format has none (R274, R283). -/
def canonNan (e m : Nat) : Special → Nat
  | .ieee => (2 ^ e - 1) * 2 ^ m + 2 ^ (m - 1)
  | .nanOnly => 2 ^ (e + m) - 1
  | .plain => 0

/-- A finite magnitude (with a sticky rest) rounded to a floating-point format (R281, R282). -/
def roundFin (e m b : Nat) (sp : Special) (neg : Bool) (mg : Nat) (ex : Int) (sticky : Bool) : Num Nat :=
  let sgn := b2n neg * 2 ^ (e + m)
  if mg = 0 ∧ !sticky then ⟨sgn, 0⟩ else
  let emin : Int := 1 - (b : Int) - m
  let q := ulpOf m emin mg ex
  let (r, inexact) := roundAt mg ex q sticky
  let enc := encMag m b r q
  if maxEnc e m sp < enc then
    match sp with
    | .ieee => ⟨sgn + (2 ^ e - 1) * 2 ^ m, flOverflow ||| flInexact⟩
    | s => ⟨sgn + maxEnc e m s, flOverflow ||| flInexact ||| flSaturated⟩
  else
    let (ru, _) := roundAt mg ex ((bitLen mg : Int) + ex - (m + 1)) sticky
    let tiny := (bitLen ru : Int) + ((bitLen mg : Int) + ex - (m + 1)) < emin + m + 1
    ⟨sgn + enc, (if inexact then flInexact else 0) ||| (if inexact && tiny then flUnderflow else 0)⟩

/-- The range of an integer format. -/
def intRange : Fmt → Int × Int
  | .int w => (-(2 ^ (w - 1) : Nat), (2 ^ (w - 1) : Nat) - 1)
  | .uint8 => (0, 255)
  | _ => (0, 0)

/-- An exact integer clamped to an integer format, as its bits; whether it was clamped. -/
def clampInt (f : Fmt) (i : Int) : Nat × Bool :=
  let (lo, hi) := intRange f
  let c := max lo (min hi i)
  (wrap f.width c, c != i)

/-- The value of an exact finite number rounded to the nearest integer, ties to even, and whether that differs. -/
def roundInt (neg : Bool) (m : Nat) (e : Int) : Int × Bool :=
  let (r, x) := roundAt m e 0 false
  (if neg then -(r : Int) else r, x)

/-- An exact value converted to a format (R280, R282, R283). `fromInt` says that the source format is an integer
format, whose clamping sets SATURATED only. Conversion to XA is exact (R278). -/
def convert (f : Fmt) (fromInt : Bool) (v : Val) : Num Nat :=
  match f with
  | .float e m b sp =>
    match v with
    | .nan s => ⟨canonNan e m sp, if s || sp == .plain then flInvalid else 0⟩
    | .inf n =>
      let sgn := b2n n * 2 ^ (e + m)
      if sp = .ieee then ⟨sgn + (2 ^ e - 1) * 2 ^ m, 0⟩ else ⟨sgn + maxEnc e m sp, flSaturated⟩
    | .fin n mg ex => roundFin e m b sp n mg ex false
  | .xa320 | .xa2176 =>
    let k := xaBits f
    match v with
    | .nan _ => ⟨2 ^ k, 0⟩
    | .inf n => ⟨(if n then 4 else 2) * 2 ^ k, 0⟩
    | .fin n mg ex =>
      let (r, _) := roundAt mg ex (-(xaL f : Int)) false
      ⟨wrap k (if n then -(r : Int) else r), 0⟩
  | _ =>
    match v with
    | .nan _ => ⟨0, flInvalid⟩
    | .inf n =>
      let (lo, hi) := intRange f
      ⟨wrap f.width (if n then lo else hi), flInvalid ||| flSaturated⟩
    | .fin n mg ex =>
      let (i, x) := roundInt n mg ex
      let (w, c) := clampInt f i
      ⟨w, (if c then (if fromInt then flSaturated else flInvalid ||| flSaturated) else 0) ||| (if x then flInexact else 0)⟩

/-- Whether a format is an integer format. -/
def Fmt.isInt : Fmt → Bool
  | .int _ => true
  | .uint8 => true
  | _ => false

/-- An XA value converted: its NaN sets INVALID in any target (R280 step 1). -/
def convertXa (f : Fmt) (v : Val) : Num Nat :=
  let r := convert f false v
  match v with
  | .nan _ => ⟨r.val, r.fl ||| flInvalid⟩
  | .fin _ 0 _ => ⟨0, 0⟩
  | _ => r

/-- An element of format `g` converted to format `f`. -/
def convertBits (f g : Fmt) (w : Nat) : Num Nat :=
  match g with
  | .xa320 | .xa2176 => convertXa f (decode g w)
  | _ => convert f g.isInt (decode g w)

/-! ## Stochastic rounding (R284) -/

/-- Whether a format is one that R284 names. -/
def Fmt.isSr : Fmt → Bool
  | .float e m _ _ => 1 + e + m ≤ 8
  | _ => false

/-- An exact value converted to a narrow format with the 16-bit random value `r` (R284). -/
def convertSr (f : Fmt) (v : Val) (r : Nat) : Num Nat :=
  match f, v with
  | .float e m b sp, .fin n mg ex =>
    let emin : Int := 1 - (b : Int) - m
    let top := decodeFloat e m b sp (maxEnc e m sp)
    let big := match top with
      | .fin _ tm te =>
        let d := ex - te
        if 0 ≤ d then tm ≤ mg * 2 ^ d.toNat else tm * 2 ^ (-d).toNat ≤ mg
      | _ => true
    if big || mg == 0 then convert f false v else
    let q := ulpOf m emin mg ex
    let sgn := b2n n * 2 ^ (e + m)
    if q ≤ ex then ⟨sgn + encMag m b (mg * 2 ^ (ex - q).toNat) q, 0⟩ else
    let k := (q - ex).toNat
    let lo := mg >>> k
    let rest := mg % 2 ^ k
    let fr := rest * 65536 / 2 ^ k
    let res := if 65536 ≤ fr + r then lo + 1 else lo
    let tiny := encMag m b res q < 2 ^ m
    ⟨sgn + encMag m b res q,
      if rest = 0 then 0 else flInexact ||| (if tiny then flUnderflow else 0)⟩
  | _, _ => convert f false v

/-! ## Arithmetic (R281) -/

def Val.neg : Val → Val
  | .nan s => .nan s
  | .inf n => .inf (!n)
  | .fin n m e => .fin (!n) m e

def Val.isNan : Val → Bool
  | .nan _ => true
  | _ => false

def Val.isSig : Val → Bool
  | .nan s => s
  | _ => false

def Val.isZero : Val → Bool
  | .fin _ 0 _ => true
  | _ => false

/-- The exact sum of two finite values as an integer count of 2^e. -/
def addExact (n1 : Bool) (m1 : Nat) (e1 : Int) (n2 : Bool) (m2 : Nat) (e2 : Int) : Int × Int :=
  let e := min e1 e2
  let a : Int := (m1 * 2 ^ (e1 - e).toNat : Nat)
  let b : Int := (m2 * 2 ^ (e2 - e).toNat : Nat)
  ((if n1 then -a else a) + (if n2 then -b else b), e)

/-- The exact sum of two values, and the flags of the operation itself: an exact zero of two operands of
different signs is +0. -/
def addVal (a b : Val) : Num Val :=
  match a, b with
  | .nan s, y => ⟨.nan false, if s || y.isSig then flInvalid else 0⟩
  | x, .nan s => ⟨.nan false, if s || x.isSig then flInvalid else 0⟩
  | .inf n, .inf k => if n = k then ⟨.inf n, 0⟩ else ⟨.nan false, flInvalid⟩
  | .inf n, _ => ⟨.inf n, 0⟩
  | _, .inf n => ⟨.inf n, 0⟩
  | .fin n1 m1 e1, .fin n2 m2 e2 =>
    let (i, e) := addExact n1 m1 e1 n2 m2 e2
    if i = 0 then ⟨.fin (n1 && n2) 0 0, 0⟩ else ⟨.fin (decide (i < 0)) i.natAbs e, 0⟩

/-- The exact product of two values: 0 × ∞ is an invalid NaN. -/
def mulVal (a b : Val) : Num Val :=
  match a, b with
  | .nan s, y => ⟨.nan false, if s || y.isSig then flInvalid else 0⟩
  | x, .nan s => ⟨.nan false, if s || x.isSig then flInvalid else 0⟩
  | .inf n, .inf k => ⟨.inf (n != k), 0⟩
  | .inf n, .fin k m _ => if m = 0 then ⟨.nan false, flInvalid⟩ else ⟨.inf (n != k), 0⟩
  | .fin k m _, .inf n => if m = 0 then ⟨.nan false, flInvalid⟩ else ⟨.inf (n != k), 0⟩
  | .fin n1 m1 e1, .fin n2 m2 e2 => ⟨.fin (n1 != n2) (m1 * m2) (e1 + e2), 0⟩

/-- An operation's exact value rounded to a format, its flags joined with those of the rounding. -/
def roundTo (f : Fmt) (x : Num Val) : Num Nat :=
  let r := convert f false x.val
  ⟨r.val, x.fl ||| r.fl⟩

def addF (f : Fmt) (a b : Nat) : Num Nat := roundTo f (addVal (decode f a) (decode f b))
def subF (f : Fmt) (a b : Nat) : Num Nat := roundTo f (addVal (decode f a) (decode f b).neg)
def mulF (f : Fmt) (a b : Nat) : Num Nat := roundTo f (mulVal (decode f a) (decode f b))

/-- Fused multiply-add a × b + c, rounded once. -/
def fmaF (f : Fmt) (a b c : Nat) : Num Nat :=
  let p := mulVal (decode f a) (decode f b)
  let s := addVal p.val (decode f c)
  roundTo f ⟨s.val, p.fl ||| s.fl⟩

/-- The quotient of two finite non-zero magnitudes to `n` bits beyond the point: count, exponent and whether a
rest follows. -/
def divMag (m1 : Nat) (e1 : Int) (m2 : Nat) (e2 : Int) (n : Nat) : Nat × Int × Bool :=
  let k := n + bitLen m2
  ((m1 <<< k) / m2, e1 - e2 - k, (m1 <<< k) % m2 != 0)

/-- Division of exact values, rounded once to a floating-point format. -/
def divVal (f : Fmt) (a b : Val) : Num Nat :=
  match f with
  | .float e m bb sp =>
    match a, b with
    | .nan s, y => ⟨canonNan e m sp, if s || y.isSig then flInvalid else 0⟩
    | x, .nan s => ⟨canonNan e m sp, if s || x.isSig then flInvalid else 0⟩
    | .inf _, .inf _ => roundTo f ⟨.nan false, flInvalid⟩
    | .inf n, .fin k _ _ => roundTo f ⟨.inf (n != k), 0⟩
    | .fin n _ _, .inf k => roundTo f ⟨.fin (n != k) 0 0, 0⟩
    | .fin n m1 e1, .fin k m2 e2 =>
      if m2 = 0 then
        (if m1 = 0 then roundTo f ⟨.nan false, flInvalid⟩ else roundTo f ⟨.inf (n != k), flDivZero⟩)
      else if m1 = 0 then roundTo f ⟨.fin (n != k) 0 0, 0⟩
      else
        let (q, ex, st) := divMag m1 e1 m2 e2 (m + 4)
        roundFin e m bb sp (n != k) q ex st
  | _ => ⟨0, 0⟩

def divF (f : Fmt) (a b : Nat) : Num Nat := divVal f (decode f a) (decode f b)

/-- The square root, rounded once (IEEE 754-2019): −0 keeps its sign, other negatives are invalid. -/
def sqrtF (f : Fmt) (a : Nat) : Num Nat :=
  match f with
  | .float e m bb sp =>
    match decode f a with
    | .nan s => ⟨canonNan e m sp, if s then flInvalid else 0⟩
    | .inf n => if n then ⟨canonNan e m sp, flInvalid⟩ else roundTo f ⟨.inf false, 0⟩
    | .fin n mg ex =>
      if mg = 0 then roundTo f ⟨.fin n 0 0, 0⟩
      else if n then ⟨canonNan e m sp, flInvalid⟩
      else
        let k := 2 * (m + 4)
        let odd := (ex - k) % 2 != 0
        let x := mg <<< (if odd then k + 1 else k)
        let ex' := (if odd then ex - k - 1 else ex - k) / 2
        let r := Nat.sqrt x
        roundFin e m bb sp false r ex' (r * r != x)
  | _ => ⟨0, 0⟩

/-- Order of two values that are not NaN, as the sign of a − b. -/
def cmpVal (a b : Val) : Int :=
  match a, b with
  | .inf n, .inf k => if n = k then 0 else if n then -1 else 1
  | .inf n, _ => if n then -1 else 1
  | _, .inf n => if n then 1 else -1
  | .fin n1 m1 e1, .fin n2 m2 e2 => (addExact n1 m1 e1 (!n2) m2 e2).1.sign
  | _, _ => 0

/-! ## XA sums (R278) -/

/-- An XA under construction: value bits as an exact count of 2^-L, and the flag byte. -/
structure Xa where
  sum : Int
  flags : Nat
  deriving DecidableEq, Repr

def Xa.zero : Xa := ⟨0, 0⟩

/-- A term added. -/
def Xa.add (f : Fmt) (x : Xa) (v : Val) : Xa :=
  match v with
  | .nan _ => { x with flags := x.flags ||| 1 }
  | .inf n => { x with flags := x.flags ||| (if n then 4 else 2) }
  | .fin n m e =>
    let (r, _) := roundAt m e (-(xaL f : Int)) false
    { x with sum := x.sum + (if n then -(r : Int) else r) }

/-- Two XA values combined. -/
def Xa.join (x y : Xa) : Xa := ⟨x.sum + y.sum, x.flags ||| y.flags⟩

/-- The XA that an element of an XA form holds. -/
def Xa.ofBits (f : Fmt) (w : Nat) : Xa := ⟨sext (xaBits f) w, (w >>> xaBits f) % 8⟩

/-- The element of an XA form that holds `x`. -/
def Xa.toBits (f : Fmt) (x : Xa) : Nat := wrap (xaBits f) x.sum + x.flags * 2 ^ xaBits f

/-- The exact value of an XA. -/
def Xa.val (f : Fmt) (x : Xa) : Val := decode f (x.toBits f)

/-! ## Packing (R276) -/

/-- Bytes of a row of `n` elements. -/
def rowBytes (f : Fmt) (n : Nat) : Nat :=
  match f.width with
  | 4 => cdiv n 2
  | 6 => cdiv n 4 * 3
  | w => n * (w / 8)

/-- Element `k` of a row. -/
def elemAt (f : Fmt) (row : Bytes) (k : Nat) : Nat :=
  match f.width with
  | 4 => bits (fld row (k / 2) 1) (4 * (k % 2) + 3) (4 * (k % 2))
  | 6 => bits (fld row (k / 4 * 3) 3) (6 * (k % 4) + 5) (6 * (k % 4))
  | w => fld row (k * (w / 8)) (w / 8)

/-- A row of elements as bytes, element places beyond its end 0. -/
def packRow (f : Fmt) (l : List Nat) : Bytes :=
  match f.width with
  | 4 => (chunks 2 l).map (fun c => BitVec.ofNat 8 (c.getD 0 0 % 16 + 16 * (c.getD 1 0 % 16)))
  | 6 => (chunks 4 l).flatMap (fun c =>
      le 3 (c.getD 0 0 % 64 + 64 * (c.getD 1 0 % 64) + 4096 * (c.getD 2 0 % 64) + 262144 * (c.getD 3 0 % 64)))
  | w => l.flatMap (fun x => le (w / 8) x)

/-! ## Scales (R286) -/

/-- The value of a scale: FP32, or an INT8 exponent where −128 is a NaN. -/
def scaleVal (expo : Bool) (w : Nat) : Val :=
  if expo then
    let e := sext 8 w
    if e = -128 then .nan false else .fin false 1 e
  else decode fp32 w

/-- A value divided by a scale and converted to a format in one rounding (R286): the quotient is computed far
below the target's last place, with a sticky rest. -/
def quotTo (f : Fmt) (v s : Val) (sr : Option Nat) : Num Nat :=
  let conv := fun (x : Val) => match sr with
    | some r => convertSr f x r
    | none => convert f false x
  match v, s with
  | .nan a, _ => conv (.nan a)
  | _, .nan a => conv (.nan a)
  | .inf _, .inf _ => let c := conv (.nan false); ⟨c.val, c.fl ||| flInvalid⟩
  | .inf n, .fin k _ _ => conv (.inf (n != k))
  | .fin n _ _, .inf k => conv (.fin (n != k) 0 0)
  | .fin n m1 e1, .fin k m2 e2 =>
    if m2 = 0 then
      (if m1 = 0 then let c := conv (.nan false); ⟨c.val, c.fl ||| flInvalid⟩
       else let c := conv (.inf (n != k)); ⟨c.val, c.fl ||| flDivZero⟩)
    else
      let (q, ex, st) := divMag m1 e1 m2 e2 400
      conv (.fin (n != k) (if st then 2 * q + 1 else 2 * q) (ex - 1))

/-! ## Matrix unit (R287, R288) -/

/-- The matrix unit's flush of an FP32 rounding. -/
def flush32 (r : Num Nat) : Num Nat :=
  let mag := r.val % 2 ^ 31
  if mag ≠ 0 ∧ mag < 2 ^ 23 then ⟨r.val - mag, r.fl ||| flUnderflow ||| flInexact⟩ else r

/-- One output element with a floating-point accumulator: `prods` are the element pairs in ascending k. -/
def mmaFloat (sa sb : Val) (c : Nat) (prods : List (Val × Val)) : Num Nat :=
  (chunks 32 prods).foldl (fun acc ch =>
    let (x, fl) := ch.foldl (fun (x : Xa × Nat) p =>
      let v := mulVal p.1 p.2
      (Xa.add .xa2176 x.1 v.val, x.2 ||| v.fl)) (Xa.zero, 0)
    let s := Xa.val .xa2176 x
    let bad := match s with
      | .nan _ => flInvalid
      | _ => 0
    let a := mulVal s sa
    let b := mulVal a.val sb
    let v := match b.val with
      | .fin _ 0 _ => .fin false 0 0
      | v => v
    let t := flush32 (roundTo fp32 ⟨v, a.fl ||| b.fl⟩)
    let r := flush32 (addF fp32 acc.val t.val)
    ⟨r.val, acc.fl ||| fl ||| bad ||| t.fl ||| r.fl⟩) ⟨c, 0⟩

/-- One output element with an INT32 accumulator. -/
def mmaInt (c : Nat) (prods : List (Int × Int)) : Num Nat :=
  (chunks 32 prods).foldl (fun acc ch =>
    let s := ch.foldl (fun (x : Int) p => x + p.1 * p.2) 0
    let (w, cl) := clampInt (.int 32) (sext 32 acc.val + s)
    ⟨w, acc.fl ||| (if cl then flSaturated else 0)⟩) ⟨c, 0⟩

/-! ## Reduction tree (R289) -/

/-- One level of the tree. -/
def treeLevel (op : Nat → Nat → Num Nat) : List Nat → List Nat × Nat
  | a :: b :: r =>
    let c := op a b
    let (t, fl) := treeLevel op r
    (c.val :: t, c.fl ||| fl)
  | l => (l, 0)

def treeAux (op : Nat → Nat → Num Nat) : Nat → List Nat → Nat → Num Nat
  | 0, l, fl => ⟨l.headD 0, fl⟩
  | n + 1, l, fl =>
    if l.length ≤ 1 then ⟨l.headD 0, fl⟩
    else
      let (t, f2) := treeLevel op l
      treeAux op n t (fl ||| f2)

/-- A vector reduction in the fixed tree. -/
def treeReduce (op : Nat → Nat → Num Nat) (l : List Nat) : Num Nat := treeAux op (bitLen l.length + 1) l 0

/-! ## The statistics block (R291, R292) -/

/-- The bin of an element as stored. -/
def histBin (f : Fmt) (w : Nat) : Nat :=
  match decode f w with
  | .nan _ => 63
  | .inf _ => 63
  | .fin _ m e =>
    if m = 0 then 0 else
    let k := (bitLen m : Int) - 1 + e
    (min 62 (max 1 (k + 32))).toNat

/-- Whether an element as stored is a subnormal number. -/
def isSubnormal (f : Fmt) (w : Nat) : Bool :=
  match f with
  | .float e m _ _ => bits w (e + m - 1) m == 0 && w % 2 ^ m != 0
  | _ => false

/-- A saturating 8-byte counter at an offset of a block raised by `n`. -/
def bumpAt (b : Bytes) (o n : Nat) : Bytes :=
  b.take o ++ le 8 (min (fld b o 8 + n) (2 ^ 64 - 1)) ++ b.drop (o + 8)

/-- A statistics block after a store of elements (bits and whether each was clamped). -/
def statsUpdate (f : Fmt) (b : Bytes) (els : List (Nat × Bool)) : Bytes :=
  let b := [0x47, 0x4C, 0x53, 0x42] ++ le 2 1 ++ (slice b 0 576).drop 6
  els.foldl (fun b x =>
    let w := x.1
    let b := bumpAt b 8 1
    let b := match decode f w with
      | .nan _ => bumpAt b 0x10 1
      | .inf _ => bumpAt b 0x18 1
      | _ => b
    let b := if isSubnormal f w then bumpAt b 0x20 1 else b
    let b := if x.2 then bumpAt b 0x28 1 else b
    bumpAt b (0x40 + 8 * histBin f w) 1) b

end Sys2Proof.Machine
end

