-- ==== Sys2Proof/Machine/Atom.lean ====
section
/-! DEFINITION. Atomics at the word's home (R312 to R314, R328, R329), shared by threads and by remote requests. -/

namespace Sys2Proof.Machine

/-- The smaller or the larger of two floating-point values, −0 below +0; a NaN gives the canonical quiet NaN, and a
signalling one sets INVALID (R325). -/
def minMaxF (f : Fmt) (larger : Bool) (a b : Nat) : Num Nat :=
  let va := decode f a
  let vb := decode f b
  if va.isNan || vb.isNan then
    ⟨match f with
      | .float e m _ sp => canonNan e m sp
      | _ => 0, if va.isSig || vb.isSig then flInvalid else 0⟩
  else
    let c := cmpVal va vb
    let signA := a.testBit (f.width - 1)
    let aLow := if c = 0 then signA else c < 0
    ⟨if aLow = larger then b else a, 0⟩

/-- The new value of an integer atomic on a word of `w` bits (R328). -/
def atomNew (w aop old opd new : Nat) : Nat :=
  let m := 2 ^ w
  let opd := opd % m
  match aop with
  | 0 => (old + opd) % m
  | 1 => if sext w opd < sext w old then opd else old
  | 2 => if sext w old < sext w opd then opd else old
  | 3 => old &&& opd
  | 4 => old ||| opd
  | 5 => old ^^^ opd
  | 6 => opd
  | _ => if old = opd then new % m else old

/-- The format that FATOM's SZ names (R329). -/
def fatomFmt : Nat → Fmt
  | 0 => fp32
  | 1 => fp16
  | _ => bf16

/-- The new value of a floating-point atomic. -/
def fatomNew (f : Fmt) (aop old opd : Nat) : Nat :=
  let opd := opd % 2 ^ f.width
  match aop with
  | 0 => (addF f old opd).val
  | 1 => (minMaxF f false old opd).val
  | _ => (minMaxF f true old opd).val

/-- The XA form that XADD's FMT selects: 0x0E the 2,176-bit one (R329). -/
def xaForm (fmt : Nat) : Nat := if fmt = 0x0E then 272 else 40

/-- The bytes that an atomic touches: KIND 0 ATOM, 1 FATOM, 2 XADD. -/
def atomSize (kind sz fmt : Nat) : Nat :=
  match kind with
  | 0 => if sz = 0 then 4 else 8
  | 1 => (fatomFmt sz).width / 8
  | _ => xaForm fmt

/-- The alignment that an atomic needs (R312, R314). -/
def atomAlign (kind sz fmt : Nat) : Nat :=
  match kind with
  | 2 => if fmt = 0x0E then 512 else 64
  | _ => atomSize kind sz fmt

/-- Whether the fields of an atomic name one (R328, R329). -/
def atomValid (kind aop sz fmt : Nat) : Bool :=
  match kind with
  | 0 => sz < 2
  | 1 => aop < 3 && sz < 3
  | 2 => 1 ≤ fmt && fmt ≤ 0x0E
  | _ => false

/-- An atomic performed on local memory: the old value, 0 for XADD. -/
def Dev.atomicAt (d : Dev) (kind aop sz fmt opd new a : Nat) : Nat × Dev :=
  let n := atomSize kind sz fmt
  let old := d.readLe a n
  match kind with
  | 0 => (old, d.write a (le n (atomNew (8 * n) aop old opd new)))
  | 1 => (old, d.write a (le n (fatomNew (fatomFmt sz) aop old opd)))
  | _ =>
    let g := if fmt = 0x0E then Fmt.xa2176 else Fmt.xa320
    match fmtOf fmt with
    | some f => (0, d.write a (le n (((Xa.ofBits g old).add g (decode f (opd % 2 ^ f.width))).toBits g)))
    | none => (0, d)

end Sys2Proof.Machine
end

