-- ==== Sys2Proof/Machine/Fab.lean ====
section
/-! DEFINITION. Fabric ports and links (spec 13) and the traffic scheduler of each port (spec 15): the
shared operations. The commands of both families stand in FabCmd.lean. -/

namespace Sys2Proof.Machine

/-! ## Ports -/

def Dev.link (d : Dev) (p : Nat) : Link := Map.get Link.boot d.fab.links p

def Dev.setLink (d : Dev) (p : Nat) (l : Link) : Dev :=
  { d with fab := { d.fab with links := Map.put Link.boot d.fab.links p l } }

/-- FAB_PORT_STATE_p.STATE: 0 DISABLED, 1 TRAINING, 2 INIT, 3 UP, 4 RETRAIN, 5 DOWN (R358). -/
def Dev.pstate (d : Dev) (p : Nat) : Nat := d.get (R.FAB_PORT_STATE_STATE p)

def Dev.setPstate (d : Dev) (p v : Nat) : Dev := d.set (R.FAB_PORT_STATE_STATE p) v

/-- Whether the port's octet runs Ethernet (R345). -/
def Dev.isEth (d : Dev) (p : Nat) : Bool := d.has (R.FAB_OCTET_MODE (p / 8))

/-- Whether lane `p` is a port-start lane (R375). -/
def Dev.isPort (d : Dev) (p : Nat) : Bool := p < 256 && (d.link p).width != 0

/-- Whether lane `p` is a GF port-start lane (R375). -/
def Dev.isGf (d : Dev) (p : Nat) : Bool := d.isPort p && !d.isEth p

/-- Whether the port is a GF port that is UP. -/
def Dev.gfUp (d : Dev) (p : Nat) : Bool := d.isGf p && d.pstate p == 3

/-- The record of virtual lane `v`. -/
def Fab.vl (f : Fab) (v : Nat) : VlRec := f.vls.getD v ⟨0, false, 0⟩

/-- The receive allotment of a port of width `w` on virtual lane `v`. -/
def Fab.allotOf (f : Fab) (w v : Nat) : Nat := w * ((f.vl v).onDie + (f.vl v).overflow)

/-- UNITS of a DATA frame that carries a header and payload of `n` bytes (R351). -/
def unitsOf (n : Nat) : Nat := cdiv (24 + n) 64

def Pkt.units (k : Pkt) : Nat := unitsOf k.bytes.length

/-! ## Units, descriptors and discards (R355, R357, R468) -/

/-- The units of an accepted frame leave the receive buffer of port `p`: they are added to RET and retired. -/
def Dev.freeUnits (d : Dev) (p v n : Nat) : Dev :=
  let l := d.link p
  (d.setLink p { l with ret := modNth l.ret v (fun x => (x + n) % 2 ^ 32) }).retireAt 0x12 p n

/-- A stored packet is gone: its descriptor and its input units return to their pools. -/
def Dev.freePkt (d : Dev) (k : Pkt) : Dev :=
  let d := d.retire (poolNo 0x14 0) 1
  match k.inPort with
  | some ip => d.freeUnits ip k.vl k.inUnits
  | none => d

/-- The head of queue `q`, or none. -/
def Link.head (l : Link) (q : Nat) : Option Pkt := (Map.get [] l.queues q).head?

/-- A packet stored on output queue `q` of port `p`. -/
def Dev.enqueue (d : Dev) (p : Nat) (k : Pkt) : Dev :=
  let l := d.link p
  (d.setLink p { l with queues := Map.upd [] l.queues k.queue (fun x => x ++ [k]) }).issue (poolNo 0x14 0) 1

/-- Every packet queued for port `p`, in ascending queue number. -/
def Link.allPkts (l : Link) : List Pkt := l.queues.flatMap (·.2)

/-- The units in the replay buffer. -/
def Link.replayUnits (l : Link) : Nat := l.replay.foldl (fun n r => n + unitsOf r.2.2.length) 0

/-- Every queued packet and every frame of the replay buffer of `p` is discarded. -/
def Dev.flushPort (d : Dev) (p : Nat) : Dev :=
  let l := d.link p
  let d := d.setLink p { l with queues := [], replay := [], deficit := [], ptr := [], resends := 0 }
  let d := l.allPkts.foldl Dev.freePkt d
  (d.retireAt 0x13 p l.replayUnits).disarm (.replay p)

/-! ## Shaper credit (R404) -/

/-- A bucket's credit at `t` ns, accrued at `rate` Mb/s up to the cap of `burst` bytes. -/
def Bucket.at (b : Bucket) (rate burst t : Nat) : Nat :=
  min (burst * 8000) (b.amount + rate * (t - b.atNs))

/-- The shaper credit of queue `q` of port `p` now; an unlisted bucket stands at its cap. -/
def Dev.qCredit (d : Dev) (p q : Nat) : Nat :=
  let burst := d.get (R.TSH_Q_BURST_BURST p q)
  match Map.find (d.link p).bucket q with
  | none => burst * 8000
  | some b => b.at (d.get (R.TSH_Q_CFG_RATE p q)) burst d.ftNs

/-- OVERHEAD of queue `q` of port `p`. -/
def Dev.qOverhead (d : Dev) (p q : Nat) : Int := sext 9 (d.get (R.TSH_Q_CFG_OVERHEAD p q))

/-- A frame's bytes on the wire: units on GF; on Ethernet the frame from destination MAC to FCS. -/
def Dev.wireLen (d : Dev) (p : Nat) (k : Pkt) : Nat := if d.isEth p then k.bytes.length else k.units * 64

/-- Counted length L of a frame on its queue. -/
def Dev.countedLen (d : Dev) (p : Nat) (k : Pkt) : Nat :=
  ((d.wireLen p k : Int) + d.qOverhead p k.queue).toNat

/-! ## Gates (R410, R411) -/

/-- The entries of the gate list in force on port `p`: (GATES, INTERVAL). -/
def Dev.gateList (d : Dev) (p : Nat) : List (Nat × Nat) :=
  ((List.range 256).map (fun e =>
    let w := d.word (R.TSH_GATE_ACTIVE p e); (getBits w 31 0, getBits w 63 32))).filter (fun x => x.2 != 0)

/-- Transmission time of a frame of `n` wire bytes, in ns (R411). -/
def Dev.txNs (d : Dev) (p n : Nat) : Nat :=
  let w := (d.link p).width
  if d.isEth p then cdiv ((n + 20) * 8) (100 * w) else cdiv (n * 8) (128 * w)

/-- The entry of a list at offset `pos` of its cycle, and the offset at which it ends. -/
def gateAt : List (Nat × Nat) → Nat → Nat → Nat → Nat × Nat
  | [], _, i, acc => (i, acc)
  | (_, n) :: r, pos, i, acc => if pos < acc + n then (i, acc + n) else gateAt r pos (i + 1) (acc + n)

/-- How far the window of queue `q` runs on over the entries after entry `i`, cyclically. -/
def windowRest (l : List (Nat × Nat)) (q : Nat) : Nat → Nat → Nat
  | 0, _ => 0
  | n + 1, i =>
    let e := l.getD (i % l.length) (0, 0)
    if e.1.testBit q then e.2 + windowRest l q n (i + 1) else 0

/-- How long queue `q`'s window still lasts at `t`: none where it is always open; 0 where it is closed. -/
def Dev.windowLeft (d : Dev) (p q t : Nat) : Option Nat :=
  if q ≥ 32 then none
  else if !d.has (R.TSH_GATE_CTRL_ACTIVE p) then none
  else
    let l := d.gateList p
    if l.all (fun e => e.1.testBit q) then none else
    let cyc := l.foldl (fun n e => n + e.2) 0
    if cyc = 0 then none else
    let base := (d.word (R.TSH_GATE_BASE p)).toNat
    let pos := (t - base) % cyc
    let (i, fin) := gateAt l pos 0 0
    if (l.getD i (0, 0)).1.testBit q then some (fin - pos + windowRest l q (l.length - 1) (i + 1))
    else some 0

/-! ## Which frame goes next (R405) -/

/-- Whether the head frame's gate is open and the frame fits (R411). -/
def Dev.gateFits (d : Dev) (p : Nat) (k : Pkt) : Bool :=
  match d.windowLeft p k.queue d.ftNs with
  | none => true
  | some w => w != 0 && d.txNs p (d.wireLen p k) ≤ w

/-- Whether a frame at the head of its queue on port `p` is eligible. -/
def Dev.eligibleFrame (d : Dev) (p : Nat) (k : Pkt) : Bool :=
  let l := d.link p
  let linkOk :=
    if d.isEth p then !l.paused.contains k.queue
    else k.units ≤ l.credit.getD k.vl 0 && l.replayUnits + k.units ≤ 1024 * l.width
  linkOk && d.gateFits p k &&
    (!d.has (R.TSH_Q_CFG_SHAPED p k.queue) || d.countedLen p k * 8000 ≤ d.qCredit p k.queue)

def Dev.eligible (d : Dev) (p q : Nat) : Bool :=
  match (d.link p).head q with
  | none => false
  | some k => d.eligibleFrame p k

/-- The queues of port `p` at a level, ascending. -/
def Dev.levelQueues (d : Dev) (p level : Nat) : List Nat :=
  (List.range 34).filter (fun q => d.get (R.TSH_Q_CFG_PRIO p q) = level)

/-- The next queue after `q` in an ascending list, wrapping. -/
def nextAfter (qs : List Nat) (q : Nat) : Nat :=
  match qs.find? (fun x => q < x) with
  | some x => x
  | none => qs.headD 0

/-- The deficit round robin of one level: pointer and deficits until a queue is picked. -/
def pickLoop (qs : List Nat) (elig : Nat → Bool) (len quantum : Nat → Nat) :
    Nat → Nat → List (Nat × Nat) → Option (Nat × Nat × List (Nat × Nat))
  | 0, _, _ => none
  | n + 1, q, dfs =>
    if elig q then
      let df := Map.get 0 dfs q
      if len q ≤ df then some (q, q, Map.put 0 dfs q (df - len q))
      else pickLoop qs elig len quantum n (nextAfter qs q) (Map.put 0 dfs q (df + quantum q))
    else pickLoop qs elig len quantum n (nextAfter qs q) dfs

/-- pick() over the levels from `level` (R405): the queue, its level, pointer and deficits. -/
def Dev.pickFrom (d : Dev) (p : Nat) : Nat → Nat → Option (Nat × Link)
  | 0, _ => none
  | n + 1, level =>
    let l := d.link p
    let qs := d.levelQueues p level
    if qs.any (fun q => d.eligible p q) then
      let q0 := Map.get 0 l.ptr level
      let q0 := if qs.contains q0 then q0 else nextAfter qs q0
      let len := fun q => match l.head q with | some k => d.countedLen p k | none => 0
      match pickLoop qs (fun q => d.eligible p q) len (fun q => d.get (R.TSH_Q_CFG_QUANTUM p q)) 8192 q0 l.deficit with
      | some (q, ptr, dfs) => some (q, { l with ptr := Map.put 0 l.ptr level ptr, deficit := dfs })
      | none => none
    else d.pickFrom p n (level + 1)

/-! ## Frames on the wire -/

/-- The bytes of an 80-bit time field (R444). -/
def timeField (t : Nat) : Bytes := le 8 (t / 65536) ++ le 2 (t % 65536)

/-- The time that a 10-byte field holds, in 2^-16 ns. -/
def timeOf (b : Bytes) (o : Nat) : Nat := fld b o 8 * 65536 + fld b (o + 8) 2

/-- `b` with the bytes from offset `o` replaced by `x`. -/
def patch (b : Bytes) (o : Nat) (x : Bytes) : Bytes := b.take o ++ x ++ b.drop (o + x.length)

/-- A packet as it leaves: T_A of SYNC, DELAY_REQ and heartbeats is the timestamp (R445, R482); T_A of a
BAR_RELEASE is the countdown that remains (R453). -/
def Dev.stamp (d : Dev) (vl : Nat) (b : Bytes) : Bytes :=
  if vl = 6 ∧ fld b 6 1 = 3 then
    let kind := fld b 32 1
    if kind = 1 ∨ kind = 2 ∨ kind = 0x20 then patch b 40 (timeField d.tim.ft.toNat)
    else if kind = 0x11 then
      let bar := Map.get ⟨[], false, none, 0⟩ d.tim.bars (fld b 36 1)
      patch b 40 (timeField (bar.countdown.getD 0).toNat)
    else b
  else b

/-- A DATA frame (R351). -/
def dataFrame (vl seq ack : Nat) (b : Bytes) (xor : Nat) : Bytes :=
  let u := unitsOf b.length
  let body := [1, BitVec.ofNat 8 vl] ++ le 2 u ++ le 4 seq ++ le 4 ack ++ [0, 0, 0, 0] ++ b
  let body := body ++ List.replicate (64 * u - 8 - body.length) 0
  body ++ le 4 (crc32c body ^^^ xor) ++ [0, 0, 0, 0]

/-- A CONTROL frame (R351). -/
def controlFrame (ack : Nat) (nak init : Bool) (words : List Nat) (tail : Bytes) : Bytes :=
  let body := [2, 0] ++ le 2 1 ++ le 4 0 ++ le 4 ack ++ [BitVec.ofNat 8 (b2n nak + 2 * b2n init), 0, 0, 0]
    ++ words.flatMap (le 4) ++ tail
  body ++ le 4 (crc32c body) ++ [0, 0, 0, 0]

/-- A CONTROL frame sent by port `p` while UP: RET and ACK (R356). -/
def Dev.sendControl (d : Dev) (p : Nat) (nak : Bool) : Dev :=
  let l := d.link p
  d.emit (.frame p (controlFrame l.rxSeq nak false l.ret (List.replicate 8 0)))

/-- A CONTROL frame with INIT set (R358). -/
def Dev.sendInit (d : Dev) (p : Nat) : Dev :=
  let l := d.link p
  d.emit (.frame p (controlFrame l.rxSeq false true
    ((List.range 8).map (fun v => d.fab.allotOf l.width v))
    (le 2 d.node ++ le 1 p ++ le 1 l.width ++ [0, 0, 0, 0])))

/-- One frame put on the wire; a DELAY_REQ that leaves gives the port its t3 (R446). -/
def Dev.sendData (d : Dev) (p seq vl : Nat) (b : Bytes) : Dev :=
  let x := d.stamp vl b
  let d := d.emit (.frame p (dataFrame vl seq (d.link p).rxSeq x 0))
  if vl = 6 ∧ fld b 6 1 = 3 ∧ fld b 32 1 = 2 then
    let ports := Map.upd ⟨none, none, 0, 0, 0, false⟩ d.tim.ports p (fun t => { t with reqAt := some d.tim.ft.toNat })
    { d with tim := { d.tim with ports := ports } }
  else d

/-- The shaper pays for a frame that starts (R405). -/
def Dev.pay (d : Dev) (p : Nat) (k : Pkt) : Dev :=
  if d.has (R.TSH_Q_CFG_SHAPED p k.queue) then
    let l := d.link p
    let c := d.qCredit p k.queue - d.countedLen p k * 8000
    d.setLink p { l with bucket := Map.insert l.bucket k.queue ⟨c, d.ftNs⟩ }
  else d

/-- Port `p` starts sending packet `k`, which has left its queue. -/
def Dev.startFrame (d : Dev) (p : Nat) (k : Pkt) : Dev :=
  let d := d.pay p k
  let l := d.link p
  let fin := d.clk + 8 * d.txNs p (d.wireLen p k)
  if d.isEth p then
    ((d.setLink p { l with freeAt := fin }).emit (.eth p k.queue k.dst k.what k.bytes)).freePkt k
  else
    let u := k.units
    let d := d.setLink p { l with
      freeAt := fin
      txSeq := (l.txSeq + 1) % 2 ^ 32
      credit := modNth l.credit k.vl (fun c => c - u)
      replay := l.replay ++ [(l.txSeq, k.vl, k.bytes)] }
    let d := (d.issueAt 0x13 p u).sendData p l.txSeq k.vl k.bytes
    let d := if l.replay.isEmpty then d.arm (.replay p) (us 4) else d
    d.freePkt k

/-- GATE_WAITS: every head frame whose gate holds it back for a later window is counted once (R411). -/
def Dev.countWaits (d : Dev) (p : Nat) : Dev :=
  (d.link p).queues.foldl (fun d e =>
    match e.2 with
    | k :: r =>
      if !k.waited && !d.gateFits p k then
        let l := d.link p
        (d.setLink p { l with queues := Map.put [] l.queues e.1 ({ k with waited := true } :: r) }).inc
          (R.TSH_PORT_CNT_GATE_WAITS p)
      else d
    | [] => d) d

/-- A free port that is UP picks a queue and starts its head frame. -/
def Dev.transmit (d : Dev) (p : Nat) : Dev :=
  if d.isPort p && d.pstate p == 3 && (d.link p).freeAt ≤ d.clk then
    let d := d.countWaits p
    match d.pickFrom p 8 0 with
    | none => d
    | some (q, l) =>
      match Map.get [] l.queues q with
      | [] => d
      | k :: r =>
        let l := { l with queues := Map.put [] l.queues q r
                          deficit := if r.isEmpty then Map.erase l.deficit q else l.deficit }
        (d.setLink p l).startFrame p k
  else d

/-! ## Sending -/

/-- The ports of a route entry (R363). -/
def routePorts (e : Nat) : List Nat :=
  ([bits e 39 32, bits e 47 40, bits e 55 48, bits e 63 56]).take (min (bits e 2 0) 4)

/-- Bytes queued on virtual lane `v` of port `p`. -/
def Dev.queuedBytes (d : Dev) (p v : Nat) : Nat :=
  ((d.link p).allPkts.filter (fun k => k.vl = v)).foldl (fun n k => n + k.bytes.length) 0

/-- Units queued on virtual lane `v` of port `p`. -/
def Dev.queuedUnits (d : Dev) (p v : Nat) : Nat :=
  ((d.link p).allPkts.filter (fun k => k.vl = v)).foldl (fun n k => n + k.units) 0

/-- The live list of the active route to `dst` (R364). -/
def Dev.liveList (d : Dev) (dst : Nat) : List Nat :=
  (routePorts (d.word (R.FAB_ROUTE_ACTIVE dst)).toNat).filter (fun p => d.gfUp p)

/-- The earliest element with the least measure. -/
def argMin (f : Nat → Nat) : List Nat → Option Nat
  | [] => none
  | x :: r => match argMin f r with
    | none => some x
    | some y => if f y < f x then some y else some x

/-- The port on which a packet leaves (R364), or none. -/
def Dev.routePort (d : Dev) (dst src flow vl : Nat) : Option Nat :=
  let live := d.liveList dst
  if live.isEmpty then none
  else if d.det || !((d.word (R.FAB_ROUTE_ACTIVE dst)).getLsbD 8) then
    live[(src + flow) % live.length]?
  else argMin (fun p => d.queuedBytes p vl) live

/-- The virtual lane of a traffic class (R368). -/
def Fab.vlOf (f : Fab) (tc : Nat) : Nat := f.tcMap.getD tc 0

/-- A network header (R360). -/
def netHeader (dst src tc hops typ payLen flow epoch : Nat) : Bytes :=
  le 2 dst ++ le 2 src ++ le 1 tc ++ le 1 hops ++ le 1 typ ++ [0] ++ le 2 payLen ++ [0, 0] ++ le 4 flow
    ++ le 4 epoch ++ List.replicate 12 0

/-- A packet that this device originates to another node: TYPE 0x01 transport, 0x02 collective. One with no
live port is lost (R361 row 6). -/
def Dev.originate (d : Dev) (dst typ tc flow : Nat) (payload : Bytes) : Dev :=
  let vl := d.fab.vlOf tc
  match d.routePort dst d.node flow vl with
  | none => d
  | some p =>
    let h := netHeader dst d.node tc d.fab.maxHops typ payload.length flow (d.get R.FAB_NODE_ID_ADMIT_EPOCH)
    d.enqueue p ⟨vl, tc, h ++ payload, none, 0, false, 0, 0⟩

/-- A link-local control message (TYPE 0x03, VL6) on port `p` (R444). -/
def Dev.sendTime (d : Dev) (p : Nat) (payload : Bytes) : Dev :=
  let h := netHeader 0xFFF d.node 0 d.fab.maxHops 3 payload.length 0 (d.get R.FAB_NODE_ID_ADMIT_EPOCH)
  d.enqueue p ⟨6, 32, h ++ payload, none, 0, false, 0, 0⟩

/-- A transaction as bytes: the header of R499 and its payload. -/
def txnBytes (t : Txn) : Bytes :=
  [t.kind, t.index] ++ le 2 t.tag.toNat ++ le 2 t.status.toNat ++ [if t.rsv then 1 else 0, 0]
    ++ le 8 t.addr.toNat ++ le 4 t.len.toNat ++ le 4 0 ++ le 8 t.arg.toNat ++ t.payload

/-- The transaction that bytes hold; `rsv` says whether a reserved byte is not 0. -/
def txnOf (b : Bytes) : Txn :=
  { kind := b.getD 0 0, index := b.getD 1 0, tag := BitVec.ofNat 16 (fld b 2 2), status := BitVec.ofNat 16 (fld b 4 2),
    rsv := fld b 6 2 != 0 || fld b 0x14 4 != 0 || (b.getD 1 0).toNat / 64 != 0,
    addr := BitVec.ofNat 64 (fld b 8 8), len := BitVec.ofNat 32 (fld b 0x10 4), arg := BitVec.ofNat 64 (fld b 0x18 8),
    payload := b.drop 32 }

/-- A transaction queued on VL7 of port `p` (R372). -/
def Dev.sendRelay (d : Dev) (p : Nat) (t : Txn) : Dev :=
  d.enqueue p ⟨7, 33, txnBytes t, none, 0, false, 0, 0⟩

/-! ## Link states (R358, R359) -/

/-- The relay slot that names port `p`, where MGT_RELAY_TABLE has a VALID one (R47): its number, 1 to 7. -/
def Dev.relaySlot (d : Dev) (p : Nat) : Option Nat :=
  let w := (d.word R.MGT_RELAY_TABLE).toNat
  (List.range 7).findSome? (fun i =>
    if w.testBit (56 + i) && bits w (8 * i + 7) (8 * i) == p then some (i + 1) else none)

/-- RELAY_OPEN sent on port `p` for slot `j` (R502). -/
def Dev.relayOpen (d : Dev) (p j : Nat) : Dev :=
  d.sendRelay p { kind := 9, index := 0, tag := 0, status := 0, rsv := false, addr := 0, len := 0,
                  arg := BitVec.ofNat 64 (d.get R.MGT_HOST_INDEX + j), payload := [] }

/-- Time and barrier traffic flows while TIM_CTRL.ENABLE is 1 (R466). -/
def Dev.timOn (d : Dev) : Bool := d.has R.TIM_CTRL_ENABLE

/-- The node enters HOLDOVER (R448). -/
def Dev.holdover (d : Dev) : Dev :=
  let st := d.get R.TIM_STATUS_STATE
  if st = 0 ∨ st = 3 then d
  else
    let d := (d.set R.TIM_STATUS_STATE 3).disarm .syncLoss
    { d with tim := { d.tim with inBound := 0 } }.arm .accurate (ms 1)

/-- Whether `p` is the port from which this node takes time. -/
def Dev.upstream (d : Dev) (p : Nat) : Bool :=
  d.timOn && !d.has R.TIM_CTRL_ROOT && d.get R.TIM_CTRL_UPSTREAM == p

/-- Port `p` leaves UP: an upstream port takes the node to HOLDOVER (R448); a relay port loses the host
path (R502). -/
def Dev.leaveUp (d : Dev) (p : Nat) : Dev :=
  if d.pstate p ≠ 3 then d else
  let d := ((d.disarm (.linkRx p)).disarm (.heartbeat p)).disarm (.heartbeatSend p)
  let d := d.disarm (.exchange p)
  let d := if d.upstream p then d.holdover else d
  if d.mgt.relayPort = some p then
    { d with mgt := { d.mgt with
      relayPort := none
      heldReqs := []
      completions := [] } }.set R.MGT_HOST_LINK 0
  else d

/-- Port `p` enters UP (R358): counters, time calibration (R447), heartbeats (R482), shaper credit (R404)
and, on a relay slot's port, RELAY_OPEN (R502). -/
def Dev.enterUp (d : Dev) (p : Nat) : Dev :=
  let d := ((d.setPstate p 3).inc (R.FAB_PORT_STATE_UP_COUNT p)).raise 512 p
  let l := d.link p
  let d := d.setLink p { l with bucket := [], deficit := [], ptr := [], freeAt := d.clk }
  if d.isEth p then d else
  let d := d.arm (.linkRx p) (us 10)
  let d := (d.arm (.heartbeat p) (ms 4)).set (R.LGR_NBR_HEARD p) 0
  let d := (d.arm (.heartbeatSend p) (ms 1)).arm (.exchange p) (us 125)
  let d := d.set (R.TIM_PORT_DELAY_VALID p) 0
  let d := { d with tim := { d.tim with ports := Map.erase d.tim.ports p } }
  match d.relaySlot p with
  | some j => if d.has R.MGT_HOST_VALID && !d.has R.MGT_HOST_RELAYED then d.relayOpen p j else d
  | none => d

/-- Fresh link-layer state on entry to INIT (R358): SEQ, ACK, RET and credits restart at 0. -/
def Dev.enterInit (d : Dev) (p : Nat) : Dev :=
  let l := d.link p
  let z := List.replicate 8 0
  let d := d.setLink p { Link.boot with
    width := l.width, relay := l.relay, precode := l.precode, cr := l.cr, gatePend := l.gatePend, gateEntry := l.gateEntry,
    credit := z, allot := z, lastRet := z, ret := z }
  (d.setPstate p 2).sendInit p

/-- Port `p` enters RETRAIN (R358). -/
def Dev.enterRetrain (d : Dev) (p : Nat) : Dev :=
  let d := d.leaveUp p
  ((d.setPstate p 4).disarm (.replay p)).arm (.retrain p) (ms 1)

/-- Port `p` enters DOWN (R359): what it holds is discarded and counted. -/
def Dev.enterDown (d : Dev) (p : Nat) : Dev :=
  let d := d.leaveUp p
  let l := d.link p
  let n := l.allPkts.length + l.replay.length
  let d := (d.flushPort p).add (R.FAB_PORT_DISC_DOWN p) n
  let d := d.setLink p { d.link p with attempt := false }
  (((d.setPstate p 5).disarm (.retrain p)).arm (.down p) (ms 100)).raise 513 p

/-- Port `p` enters DISABLED: what it holds is discarded (R358, R357). -/
def Dev.enterDisabled (d : Dev) (p : Nat) : Dev :=
  let d := (d.leaveUp p).flushPort p
  (((d.setPstate p 0).disarm (.retrain p)).disarm (.down p))

/-- Port `p` takes a configuration and trains from the beginning (R358, R375). -/
def Dev.startPort (d : Dev) (p width : Nat) (relay precode cr : Bool) : Dev :=
  let l := d.link p
  let d := d.setLink p { Link.boot with width := width, relay := relay, precode := precode, cr := cr, ret := l.ret }
  d.setPstate p 1

/-! ## Acknowledgement, resending -/

/-- Whether SEQ `a` lies before `b` in the modulo-2^32 order of a window below 2^31. -/
def seqBefore (a b : Nat) : Bool := a != b && (b + 2 ^ 32 - a) % 2 ^ 32 < 2 ^ 31

/-- ACK arrives at port `p`: every frame with a lower SEQ leaves the replay buffer (R353). -/
def Dev.linkAck (d : Dev) (p ack : Nat) : Dev :=
  let l := d.link p
  let gone := l.replay.filter (fun r => seqBefore r.1 ack)
  if gone.isEmpty then d else
  let rest := l.replay.filter (fun r => !seqBefore r.1 ack)
  let n := gone.foldl (fun n r => n + unitsOf r.2.2.length) 0
  let d := (d.setLink p { l with replay := rest, acked := ack, resends := 0 }).retireAt 0x13 p n
  if rest.isEmpty then d.disarm (.replay p) else d.arm (.replay p) (us 4)

/-- Every unacknowledged frame is sent again in SEQ order; after 16 resends in a row the port retrains
(R353). -/
def Dev.resend (d : Dev) (p : Nat) : Dev :=
  let l := d.link p
  if l.replay.isEmpty then d else
  let d := (d.setLink p { l with resends := l.resends + 1 }).inc (R.FAB_PORT_ERR_REPLAYS p)
  let d := l.replay.foldl (fun d r => d.sendData p r.1 r.2.1 r.2.2) d
  if l.resends + 1 ≥ 16 then d.enterRetrain p else d.arm (.replay p) (us 4)

/-- RET values arrive: credit rises by what each lane gained, never above ALLOT (R355). -/
def Dev.linkRet (d : Dev) (p : Nat) (ret : List Nat) : Dev :=
  (List.range 8).foldl (fun d v =>
    let l := d.link p
    let gain := (ret.getD v 0 + 2 ^ 32 - l.lastRet.getD v 0) % 2 ^ 32
    let c := l.credit.getD v 0 + gain
    let cap := l.allot.getD v 0
    let d := d.setLink p { l with credit := setNth l.credit v (min c cap)
                                  lastRet := setNth l.lastRet v (ret.getD v 0) }
    if cap < c then d.add (R.FAB_PORT_MISC_EXCESS_CREDIT p) (c - cap) else d) d

/-! ## The network layer (R361) -/

/-- A packet of an accepted frame of `units` units on VL `v` of port `p` leaves the receive buffer at once. -/
def Dev.drop (d : Dev) (p v units : Nat) : Dev := d.freeUnits p v units

/-- The policer's bucket of input port `p` and class `t` (R409): whether a frame of `len` wire bytes passes. -/
def Dev.police (d : Dev) (p t len : Nat) : Bool × Dev :=
  let k := 32 * p + t
  match Map.find d.fab.policers k with
  | none => (true, d)
  | some pol =>
    let cost := ((len : Int) + pol.overhead).toNat * 8000
    let have_ := match Map.find d.fab.polBucket k with
      | none => pol.cbs * 8000
      | some b => b.at pol.cir pol.cbs d.ftNs
    if cost ≤ have_ then
      (true, { d with fab := { d.fab with polBucket := Map.insert d.fab.polBucket k ⟨have_ - cost, d.ftNs⟩ } })
    else (false, d)

/-- Whether units of virtual lane `v` received on port `p` stand beyond its on-die share (R366). -/
def Dev.overflowHolds (d : Dev) (p v : Nat) : Bool :=
  let held := d.fab.links.foldl (fun n e =>
    e.2.allPkts.foldl (fun n k => if k.inPort = some p ∧ k.vl = v then n + k.inUnits else n) n) 0
  (d.fab.vl v).onDie * (d.link p).width < held

/-- Whether a packet may be forwarded by cut-through from `ip` to `op` (R367, R407). -/
def Dev.cutThrough (d : Dev) (ip op : Nat) (k : Pkt) : Bool :=
  d.gfUp ip && d.gfUp op && (d.link ip).width ≤ (d.link op).width && ((d.link op).head k.queue).isNone
    && !d.overflowHolds ip k.vl && (d.link op).freeAt ≤ d.clk && d.eligibleFrame op k

/-- A network packet `b` of an accepted frame on VL `vl` of port `p` (R361). -/
def Dev.netHandle (d : Dev) (p vl units : Nat) (b : Bytes) : Dev :=
  let dst := fld b 0 2; let src := fld b 2 2; let tc := fld b 4 1; let hops := fld b 5 1
  let typ := fld b 6 1; let payLen := fld b 8 2; let flow := fld b 0xC 4; let epoch := fld b 0x10 4
  let gone := d.drop p vl units
  let rsvBad := dst ≥ 4096 || src ≥ 4096 || fld b 7 1 != 0 || fld b 0xA 2 != 0 || !allZero (slice b 0x14 12)
    || tc ≥ 32
  let vlBad := if typ = 3 then vl != 6 || tc != 0 else vl != d.fab.vlOf tc
  if rsvBad || typ = 0 || typ > 3 || payLen > 4096 || units != unitsOf (32 + payLen) || vlBad then
    gone.inc (R.FAB_PORT_MISC_BAD_TYPE p)
  else if d.fenced src epoch then gone.inc (R.FAB_PORT_DISC_FENCED p)
  else
    let rx : RxPkt := ⟨p, d.tim.ft.toNat, src, tc, flow, epoch, slice b 32 payLen⟩
    if dst = d.node ∧ dst ≠ 0xFFF then
      { gone with fab :=
          if typ = 1 then { gone.fab with xptRx := gone.fab.xptRx ++ [rx] }
          else if typ = 2 then { gone.fab with colRx := gone.fab.colRx ++ [rx] }
          else { gone.fab with timRx := gone.fab.timRx ++ [rx] } }
    else if dst = 0xFFF ∧ typ = 3 then
      { gone with fab := { gone.fab with timRx := gone.fab.timRx ++ [rx] } }
    else if dst = 0xFFF then gone.inc (R.FAB_PORT_DISC_NO_ROUTE p)
    else if hops = 0 then gone.inc (R.FAB_PORT_MISC_HOPS p)
    else
      match d.routePort dst src flow vl with
      | none => gone.inc (R.FAB_PORT_DISC_NO_ROUTE p)
      | some op =>
        let lossy := (d.fab.vl vl).lossy
        let k : Pkt := ⟨vl, if typ = 3 then 32 else tc, patch (b.take (32 + payLen)) 5 [BitVec.ofNat 8 (hops - 1)],
          some p, units, false, 0, 0⟩
        let (pass, d) := if lossy ∧ typ ≠ 3 then d.police p tc (units * 64) else (true, d)
        if !pass then (d.drop p vl units).inc (R.TSH_PORT_CNT_POLICED p)
        else if lossy && (d.fab.vl vl).onDie * (d.link op).width ≤ d.queuedUnits op vl then
          (d.drop p vl units).inc (R.FAB_PORT_DISC_LOSSY p)
        else if d.cutThrough p op k then (d.issue (poolNo 0x14 0) 1).startFrame op k
        else d.enqueue op k

/-- A relay frame on VL7 of port `p` (R372). A direct GL9 passes what a relayed one sends to the host on to it (R502). -/
def Dev.relayHandle (d : Dev) (p units : Nat) (b : Bytes) : Dev :=
  let gone := d.drop p 7 units
  let t := txnOf b
  if !(d.link p).relay ∨ t.len.toNat > 4096 ∨ units ≠ unitsOf (32 + t.len.toNat) then
    gone.inc (R.FAB_PORT_MISC_BAD_TYPE p)
  else if (t.kind = 7 ∨ t.kind = 8) ∧ d.mgt.hostUp = true ∧ (d.relaySlot p).isSome = true then
    gone.emit (.host { t with payload := t.payload.take t.len.toNat })
  else { gone with fab := { gone.fab with
      relayRx := gone.fab.relayRx ++ [(p, { t with payload := t.payload.take t.len.toNat })] } }

/-- Copies the values of `n` registers of 8 bytes from `src` to `dst`. -/
def copyRegs (regs : List (Nat × Word)) (src dst n : Nat) : List (Nat × Word) :=
  let keep := regs.filter (fun e => e.1 < dst || dst + 8 * n ≤ e.1)
  (regs.filter (fun e => src ≤ e.1 && e.1 < src + 8 * n)).foldl
    (fun acc e => Map.put 0 acc (e.1 - src + dst) e.2) keep

/-- The shadow route bank is copied into the active bank (R365). -/
def Dev.routeCopy (d : Dev) : Dev :=
  let d := { d with regs := copyRegs d.regs (R.FAB_ROUTE_SHADOW 0) (R.FAB_ROUTE_ACTIVE 0) 4096 }
  (d.set R.FAB_ROUTE_CTRL_PENDING 0).set R.FAB_ROUTE_CTRL_DONE 1

/-- Every port that starts a lane and is enabled. -/
def Dev.portList (d : Dev) : List Nat := (List.range 256).filter (fun p => d.isPort p)

/-- Every fabric port goes to DISABLED (R475). -/
def Dev.disableAll (d : Dev) : Dev :=
  d.portList.foldl (fun d p => if d.pstate p = 0 then d else d.enterDisabled p) d

/-- Whether port `p` of width `w` lies in R345's form and crosses no other enabled port. -/
def Dev.portFits (d : Dev) (p w : Nat) : Bool :=
  (w == 1 || w == 2 || w == 4 || w == 8) && p % w == 0 &&
    (List.range 8).all (fun i =>
      let q := p / 8 * 8 + i
      let wq := (d.link q).width
      q == p || wq == 0 || d.pstate q == 0 || q + wq ≤ p || p + w ≤ q)

end Sys2Proof.Machine
end

