-- ==== Sys2Proof/Machine/Xpt.lean ====
section
/-! DEFINITION. The transport engine (spec 14): queue pairs, their cache, windows, requests, the responder's checks. -/

namespace Sys2Proof.Machine

/-! ## Parts of the state -/

def Dev.modXpt (d : Dev) (f : Xpt → Xpt) : Dev := { d with xpt := f d.xpt }
def Dev.qp (d : Dev) (q : Nat) : Option Qp := Map.find d.xpt.qps q
def Dev.setQp (d : Dev) (q : Nat) (x : Qp) : Dev := d.modXpt (fun t => { t with qps := Map.insert t.qps q x })
def Dev.modQp (d : Dev) (q : Nat) (f : Qp → Qp) : Dev := d.modXpt (fun t => { t with qps := Map.mod t.qps q f })

/-- The owner of a queue pair: the function whose range holds it, 16 for a device queue pair (R376). -/
def Dev.qpOwner (d : Dev) (q : Nat) : Nat :=
  (d.loadedFns.findSome? (fun fi =>
    if fi.2.qpBase ≤ q ∧ q < fi.2.qpBase + fi.2.qpCount then some fi.1 else none)).getD 16

/-- Whether a traffic class runs in credit mode. -/
def Dev.creditClass (d : Dev) (tc : Nat) : Bool := d.has (R.XPT_TC_MODE tc)

def Dev.cwndMax (d : Dev) (tc : Nat) : Nat := d.get (R.XPT_TC_CWND_MAX tc) * 1024

/-- Whether a queue pair runs in credit mode: GF, in a credit-mode class. -/
def Dev.credited (d : Dev) (x : Qp) : Bool := x.setup.mode == 0 && d.creditClass x.setup.tc

/-- PSN order of a queue pair: 32 bits on GF, 24 on RoCEv2. -/
def psnMod (x : Qp) : Nat := if x.setup.mode = 1 then 2 ^ 24 else 2 ^ 32
def psnBefore (x : Qp) (a b : Nat) : Bool :=
  let m := psnMod x
  let dlt := (b + m - a % m) % m
  dlt != 0 && dlt < m / 2
def psnAdd (x : Qp) (a n : Nat) : Nat := (a + n) % psnMod x

/-- HBM is reached in P2 or P3: it leaves self-refresh, and returns 1 ms after the last access (R197). -/
def Dev.touchHbm (d : Dev) : Dev :=
  if 2 ≤ d.get R.STC_POWER_STATUS_CURRENT then
    { d with med := { d.med with accessed := true } }.arm .selfRefresh (ms 1)
  else d

/-! ## Queue-pair cache and miss buffer (R384 to R386) -/

/-- Credits granted to the peer and not yet seen used. -/
def Qp.held (x : Qp) : Nat := x.grants - x.grantsUsed

def Dev.missReserved (d : Dev) : Nat := d.xpt.reserved.foldl (fun n e => n + e.2) 0
/-- Miss-buffer entries neither taken nor reserved. -/
def Dev.missFree (d : Dev) : Nat := 512 - d.xpt.miss.length - d.missReserved

def Dev.onDie (d : Dev) (q : Nat) : Bool := d.xpt.cached.contains q

/-- Whether a cached state may not be evicted (R384, R386). -/
def Dev.pinned (d : Dev) (q : Nat) : Bool :=
  d.xpt.miss.any (fun e => e.1 = q) ||
    (match d.qp q with
      | none => false
      | some x => !x.reqs.isEmpty || (d.credited x && d.missFree < x.held))

/-- A state leaves the die; a credit-mode queue pair reserves its entries. -/
def Dev.evict (d : Dev) (q : Nat) : Dev :=
  let d := d.modXpt (fun t => { t with cached := t.cached.filter (· != q) })
  match d.qp q with
  | none => d
  | some x =>
    if d.credited x && 0 < x.held then
      (d.modXpt (fun t => { t with reserved := Map.put 0 t.reserved q x.held })).issue (poolNo 0x10 0) x.held
    else d

/-- A queue pair's reservation lapses. -/
def Dev.unreserve (d : Dev) (q : Nat) : Dev :=
  let n := Map.get 0 d.xpt.reserved q
  (d.modXpt (fun t => { t with reserved := Map.erase t.reserved q })).retire (poolNo 0x10 0) n

/-- A state brought on die, evicting the least recently used unpinned one; none while all are pinned. -/
def Dev.bringIn (d : Dev) (q : Nat) : Option Dev :=
  if d.onDie q then some (d.modXpt (fun t => { t with cached := t.cached.filter (· != q) ++ [q] })) else
  let room := if d.xpt.cached.length < 4096 then some d else (d.xpt.cached.find? (fun j => !d.pinned j)).map d.evict
  room.map (fun d => (d.unreserve q).modXpt (fun t => { t with
    cached := t.cached ++ [q]
    fetching := t.fetching.filter (· != q) }))

/-- A queue pair's state is needed: used now where it is on die, else its fetch starts. -/
def Dev.wantQp (d : Dev) (q : Nat) : Dev :=
  if d.onDie q then (d.bringIn q).getD d
  else if d.xpt.fetching.contains q then d
  else d.modXpt (fun t => { t with fetching := t.fetching ++ [q] })

/-! ## Packets (R380) -/

/-- The transport header. -/
def xptHeader (op flags synd qp psn handle addr remain stamp : Nat) : Bytes :=
  le 1 op ++ le 1 flags ++ le 2 synd ++ le 4 qp ++ le 4 psn ++ le 4 handle ++ le 8 addr ++ le 4 remain ++ le 4 stamp

/-- A transport packet of queue pair `q` to its peer. -/
def Dev.xptOut (d : Dev) (q : Nat) (x : Qp) (payload : Bytes) : Dev :=
  d.originate x.setup.peerNode 1 x.setup.tc q payload

/-- The STAMP of this moment. -/
def Dev.xptStamp (d : Dev) : Nat := d.ftNs % 2 ^ 32

/-! ## Receive-store credits (R394) -/

/-- Credits granted up to CREDIT_MAX as far as the receive store reaches. -/
def Dev.topUp (d : Dev) (q : Nat) : Dev :=
  match d.qp q with
  | none => d
  | some x =>
    if x.st ≠ 1 ∨ !d.credited x ∨ !d.onDie q then d else
    let n := min (x.setup.creditMax - x.held) (8192 - d.xpt.store)
    if n = 0 then d else
    let x := { x with grants := x.grants + n }
    let d := ((d.setQp q x).modXpt (fun t => { t with store := t.store + n })).issue (poolNo 0x11 0) n
    d.xptOut q x (xptHeader 8 0 0 x.setup.peerQp (x.grants % 2 ^ 32) 0 0 0 0)

/-- A credited packet has been handled: its slot is free, and the credit is granted again. -/
def Dev.creditUsed (d : Dev) (q : Nat) : Dev :=
  match d.qp q with
  | none => d
  | some x =>
    if x.held = 0 then d else
    (((d.setQp q { x with grantsUsed := x.grantsUsed + 1 }).modXpt (fun t => { t with store := t.store - 1 })).retire
      (poolNo 0x11 0) 1).topUp q

/-- The slots that a queue pair's unused credits hold are freed: it grants nothing any more. -/
def Dev.dropCredits (d : Dev) (q : Nat) : Dev :=
  match d.qp q with
  | none => d
  | some x =>
    let n := x.held
    ((d.setQp q { x with grantsUsed := x.grants }).modXpt (fun t => { t with store := t.store - n })).retire
      (poolNo 0x11 0) n

/-! ## Completions (R397, R398) -/

/-- A completion goes to its issuer. -/
def Dev.pushDone (d : Dev) (c : Completion) : Dev :=
  d.modXpt (fun t => if c.issuer = .command then { t with records := t.records ++ [c] } else { t with done := t.done ++ [c] })

/-- A request that ends without a packet. -/
def Dev.endNow (d : Dev) (iss : Issuer) (token : Nat) (st : Status) (parts : List Status) : Dev :=
  d.pushDone ⟨iss, token, st, 0, parts, [], 0⟩

/-- The first status of a list that is not OK. -/
def firstBad (l : List Status) : Status := (l.find? (· != 0)).getD 0

/-- A read's staged data in order. -/
def Req.staged (r : Req) : Bytes :=
  ((List.range r.parts.length).zip r.parts).flatMap (fun e =>
    let mine := r.data.filter (fun x => x.1 = e.1)
    mine.foldl (fun (acc : Bytes) x => patch acc x.2.1 x.2.2) (List.replicate e.2.len 0))

/-- A request all of whose parts have ended. -/
def Dev.finishReq (d : Dev) (r : Req) : Dev :=
  let sts := r.parts.map (fun p => p.status)
  let st := firstBad sts
  let total := r.parts.foldl (fun n p => n + p.len) 0
  let ok := st = 0
  let d := if ok ∧ r.kind = 1 ∧ r.issuer = .command then
      (r.parts.foldl (fun (acc : Dev × Nat) p =>
        (acc.1.write (p.buf % 2 ^ 52) (slice r.staged acc.2 p.len), acc.2 + p.len)) (d, 0)).1
    else d
  d.pushDone ⟨r.issuer, r.token, st, if ok then total else 0, sts, if ok ∧ r.kind = 1 then r.staged else [], r.result⟩

/-- Whether nothing of a request is still to come. -/
def Qp.reqEnded (x : Qp) (r : Req) : Bool :=
  !x.flight.any (fun t => t.req = r.id) && r.parts.all (fun p => p.status != 0 || p.done == p.len)

/-- Requests that have ended complete. -/
def Dev.settleReqs (d : Dev) (q : Nat) : Dev :=
  match d.qp q with
  | none => d
  | some x =>
    let gone := x.reqs.filter x.reqEnded
    let d := d.setQp q { x with reqs := x.reqs.filter (fun r => !x.reqEnded r) }
    gone.foldl Dev.finishReq d

/-- The queue pair goes to ERROR: its outstanding requests complete with the status (R378, R392, R400). -/
def Dev.qpError (d : Dev) (q : Nat) (st : Status) : Dev :=
  match d.qp q with
  | none => d
  | some x =>
    if x.st ≠ 1 then d else
    let d := d.dropCredits q
    let d := d.unreserve q
    let d := ((d.disarm (.retransmit q)).disarm (.rnr q)).disarm (.roceAck q)
    let d := d.modQp q (fun x => { x with
      st := 2
      err := st
      reqs := []
      flight := []
      rnrFrom := none })
    let d := x.reqs.foldl (fun d r =>
      d.pushDone ⟨r.issuer, r.token, st, 0, r.parts.map (fun p => if p.status = 0 then st else p.status), [], 0⟩) d
    d.raise 577 (q % 65536)

/-- The queue pair goes to RESET. -/
def Dev.qpReset (d : Dev) (q : Nat) : Dev :=
  let d := (d.dropCredits q).unreserve q
  let d := ((d.disarm (.retransmit q)).disarm (.rnr q)).disarm (.roceAck q)
  d.modXpt (fun t => { t with qps := Map.erase t.qps q })

/-! ## Ethernet packets (R399, R400) -/

/-- A RoCEv2 packet on its port. Its payload is, in this order: the port's MAC and VLAN word, the queue pair's PEER_IP,
UDP_SRC and DSCP, then the transport packet from the base transport header to its data. `op` is the RC opcode. -/
def Dev.roceOut (d : Dev) (x : Qp) (op psn : Nat) (ackReq : Bool) (body : Bytes) : Dev :=
  let p := x.setup.port
  let padding := (4 - body.length % 4) % 4
  let bth := le 1 op ++ le 1 (padding * 16) ++ be 2 0xFFFF ++ be 4 (x.setup.peerQp % 2 ^ 24)
    ++ be 4 (psn % 2 ^ 24 + (if ackReq then 2 ^ 31 else 0))
  let head := le 8 (d.word (R.XPT_ETH_MAC p)).toNat ++ be 16 x.setup.peerIp ++ le 2 x.setup.udpSrc ++ le 1 x.setup.dscp
  d.emit (.eth p x.setup.prio x.setup.peerMac (0x100 + op) (head ++ bth ++ body ++ List.replicate padding 0))

/-- MTU of a RoCEv2 queue pair in bytes. -/
def QpSetup.mtuBytes (u : QpSetup) : Nat := 512 * 2 ^ u.mtu

/-! ## The requester (R380, R383, R393, R394, R396) -/

/-- Wire length of a request packet as congestion control counts it. -/
def reqLen (kind len : Nat) : Nat := match kind with
  | 0 => 32 + len
  | 1 => 32
  | _ => 48

/-- The bytes of a WRITE's packet: given by value, or read from the local buffer. -/
def Dev.sourceBytes (d : Dev) (r : Req) (part : Nat) (p : PartSt) (off len : Nat) : Bytes :=
  if r.source.isEmpty then d.read (p.buf % 2 ^ 52 + off) len
  else
    let base := (r.parts.take part).foldl (fun n y => n + y.len) 0
    slice r.source (base + off) len

/-- The opcode of a RoCEv2 WRITE packet. -/
def roceWriteOp (first last imm : Bool) : Nat :=
  match first, last with
  | true, false => 0x06
  | false, false => 0x07
  | false, true => if imm then 0x09 else 0x08
  | true, true => if imm then 0x0B else 0x0A

/-- One request packet put on the wire. -/
def Dev.sendReq (d : Dev) (q : Nat) (x : Qp) (t : TxPkt) : Dev :=
  match x.reqs.find? (fun r => r.id = t.req) with
  | none => d
  | some r =>
    match r.parts[t.part]? with
    | none => d
    | some p =>
      if x.setup.mode = 1 then
        let reth := be 8 p.addr ++ be 4 p.handle ++ be 4 p.len
        if r.kind = 1 then d.roceOut x 0x0C t.psn true reth
        else
          let lst := t.off + t.len == p.len
          let imm := lst && x.setup.imm && t.part + 1 == r.parts.length
          d.roceOut x (roceWriteOp (t.off == 0) lst imm) t.psn lst
            ((if t.off = 0 then reth else []) ++ (if imm then be 4 (r.token % 2 ^ 32) else []) ++ d.sourceBytes r t.part p t.off t.len)
      else
        let flags := b2n p.addrForm + 2 * b2n (d.credited x)
        let addr := if r.kind = 2 then p.addr else p.addr + t.off
        let op := match r.kind with
          | 0 => 1
          | 1 => 2
          | _ => 4
        let rem := if r.kind = 2 then r.ctl else p.len - t.off
        let data := match r.kind with
          | 0 => d.sourceBytes r t.part p t.off t.len
          | 1 => []
          | _ => le 8 r.op1 ++ le 8 r.op2
        d.xptOut q x (xptHeader op flags 0 x.setup.peerQp t.psn (if p.addrForm then 0 else p.handle) addr rem d.xptStamp ++ data)

/-- The retransmission timer of a queue pair. -/
def Dev.armRetx (d : Dev) (q : Nat) (x : Qp) : Dev :=
  if x.setup.mode = 1 then d.arm (.roceAck q) 524288 else d.arm (.retransmit q) (us 16)

def Dev.disarmRetx (d : Dev) (q : Nat) : Dev := (d.disarm (.roceAck q)).disarm (.retransmit q)

/-- The next bytes to send: request, part number, part. -/
def Qp.nextPart (x : Qp) : Option (Req × Nat × PartSt) :=
  x.reqs.findSome? (fun r => ((List.range r.parts.length).zip r.parts).findSome? (fun e =>
    if e.2.status = 0 ∧ e.2.sent < e.2.len then some (r, e.1, e.2) else none))

/-- Part `i` of request `id` changed. -/
def Qp.modPart (x : Qp) (id i : Nat) (f : PartSt → PartSt) : Qp :=
  { x with reqs := x.reqs.map (fun r => if r.id = id then { r with parts := modNth r.parts i f } else r) }

def Qp.unacked (x : Qp) : Nat :=
  (x.flight.filter (fun t => !t.acked)).foldl (fun n t =>
    n + reqLen (((x.reqs.find? (fun r => r.id = t.req)).map (fun r => r.kind)).getD 0) t.len) 0

/-- Whether a packet of `n` bytes may leave now. -/
def Dev.maySend (d : Dev) (x : Qp) (kind n : Nat) : Bool :=
  x.st == 1 && x.rnrFrom.isNone &&
    (kind != 2 || (x.flight.filter (fun t => ((x.reqs.find? (fun r => r.id = t.req)).map (fun r => r.kind)) = some 2)).length < 16) &&
    (if d.credited x then 0 < x.unused else x.flight.all (fun t => t.acked) || x.unacked + n ≤ x.cwnd)

/-- Request packets sent as long as R393 or R394 lets them. -/
def Dev.pump (d : Dev) (q : Nat) : Nat → Dev
  | 0 => d
  | fuel + 1 =>
    match d.qp q with
    | none => d
    | some x =>
      if !d.onDie q then d else
      match x.nextPart with
      | none => d
      | some (r, i, p) =>
        let len := match r.kind with
          | 0 => min (if x.setup.mode = 1 then x.setup.mtuBytes else 4064) (p.len - p.sent)
          | 1 => if x.setup.mode = 1 then p.len else min 4064 (p.len - p.sent)
          | _ => p.len
        if !d.maySend x r.kind (reqLen r.kind len) then d else
        let t : TxPkt := ⟨x.psnTx, r.id, i, p.sent, len, d.ftNs, d.tim.stepped, false, false⟩
        let used := if x.setup.mode = 1 ∧ r.kind = 1 then cdiv len x.setup.mtuBytes else 1
        let was := x.flight.isEmpty
        let x := x.modPart r.id i (fun p => { p with sent := p.sent + len })
        let x := { x with
          psnTx := psnAdd x x.psnTx used
          flight := x.flight ++ [t]
          unused := if d.credited x then x.unused - 1 else x.unused }
        let d := (d.setQp q x).sendReq q x t
        let d := if was then d.armRetx q x else d
        d.pump q fuel

/-- The pump run until it stops: no more packets can leave than there are bytes to send. -/
def Dev.xptSend (d : Dev) (q : Nat) : Dev :=
  match d.qp q with
  | none => d
  | some x => d.pump q (x.reqs.foldl (fun n r => r.parts.foldl (fun n p => n + (p.len - p.sent) / 1024 + 1) n) 1)

/-- Packets from PSN `from_` on sent again, each with a new STAMP. -/
def Dev.resendFrom (d : Dev) (q from_ : Nat) : Dev :=
  match d.qp q with
  | none => d
  | some x =>
    let again := fun (t : TxPkt) => !psnBefore x t.psn from_
    let x := { x with
      flight := x.flight.map (fun t => if again t then { t with stamp := d.ftNs, steps := d.tim.stepped } else t)
      rnrFrom := none }
    let d := d.setQp q x
    let d := (x.flight.filter again).foldl (fun d t => d.sendReq q x t) d
    if x.flight.isEmpty then d else d.armRetx q x

/-- cwnd halved (R393). -/
def Dev.cutHalf (d : Dev) (q : Nat) : Dev := d.modQp q (fun x => { x with cwnd := max 4096 (x.cwnd / 2) })

/-- An acknowledgement's effect on cwnd (R393). -/
def Dev.onRtt (d : Dev) (q acked rtt : Nat) : Dev :=
  match d.qp q with
  | none => d
  | some x =>
    if d.credited x then d else
    let target := d.get (R.XPT_TC_TARGET x.setup.tc)
    if rtt ≤ target then
      d.setQp q { x with cwnd := min (d.cwndMax x.setup.tc) (x.cwnd + 4096 * acked / x.cwnd) }
    else if x.lastCut + rtt ≤ d.ftNs then
      d.setQp q { x with
        cwnd := max 4096 (x.cwnd - x.cwnd * (rtt - target) / (2 * rtt))
        lastCut := d.ftNs }
    else d

/-- Flight entries that `gone` accepts are handled; the timer follows the rest. -/
def Dev.flightDrop (d : Dev) (q : Nat) (gone : TxPkt → Bool) : Dev :=
  match d.qp q with
  | none => d
  | some x =>
    let x := { x with flight := x.flight.filter (fun t => !gone t) }
    let d := d.setQp q x
    if x.flight.isEmpty then d.disarmRetx q else d

/-- The kind of a packet's request. -/
def Qp.kindOf (x : Qp) (t : TxPkt) : Nat := ((x.reqs.find? (fun r => r.id = t.req)).map (fun r => r.kind)).getD 0

/-- Every PSN below `n` is acknowledged (R383); `rtt` as its echo gives it. -/
def Dev.onAck (d : Dev) (q n : Nat) (rtt : Option Nat) : Dev :=
  match d.qp q with
  | none => d
  | some x =>
    let new_ := x.flight.filter (fun t => !t.acked && psnBefore x t.psn n)
    let bytes := new_.foldl (fun a t => a + reqLen (x.kindOf t) t.len) 0
    let steady := new_.all (fun t => t.steps = d.tim.stepped)
    let x := new_.foldl (fun x t => if x.kindOf t = 0 then x.modPart t.req t.part (fun p => { p with done := p.done + t.len }) else x) x
    let x := { x with
      flight := x.flight.map (fun t => if psnBefore x t.psn n then { t with acked := true } else t)
      retries := if new_.isEmpty then x.retries else 7
      rnrRetries := if new_.isEmpty then x.rnrRetries else 7 }
    let d := d.setQp q x
    let d := if new_.isEmpty then d else d.armRetx q x
    let d := d.flightDrop q (fun t => t.acked && (t.answered || x.kindOf t == 0))
    let d := match rtt with
      | some r => if steady then d.onRtt q bytes r else d
      | none => d
    (d.settleReqs q).xptSend q

/-- The packet of PSN `n` has been refused with `st`: its part fails (R397). -/
def Dev.onRefused (d : Dev) (q n : Nat) (st : Status) : Dev :=
  match d.qp q with
  | none => d
  | some x =>
    match x.flight.find? (fun t => t.psn = n && !t.answered) with
    | none => d
    | some t =>
      let x := x.modPart t.req t.part (fun p => { p with status := if p.status = 0 then st else p.status })
      let d := (d.setQp q x).armRetx q x
      let d := d.flightDrop q (fun y => y.psn = n)
      (d.settleReqs q).xptSend q

/-- READ data for the packet of PSN `n`. -/
def Dev.onReadData (d : Dev) (q n : Nat) (data : Bytes) : Dev :=
  match d.qp q with
  | none => d
  | some x =>
    match x.flight.find? (fun t => t.psn = n && x.kindOf t = 1 && !t.answered) with
    | none => d
    | some t =>
      if data.length ≠ t.len then d else
      let x := x.modPart t.req t.part (fun p => { p with done := p.done + t.len })
      let x := { x with
        reqs := x.reqs.map (fun r => if r.id = t.req then { r with data := r.data ++ [(t.part, t.off, data)] } else r)
        flight := x.flight.map (fun y => if y.psn = n then { y with answered := true } else y) }
      let d := (d.setQp q x).flightDrop q (fun y => y.acked && y.answered)
      (d.settleReqs q).xptSend q

/-- The old value for the atomic of PSN `n`. -/
def Dev.onAtomicData (d : Dev) (q n old : Nat) : Dev :=
  match d.qp q with
  | none => d
  | some x =>
    match x.flight.find? (fun t => t.psn = n && x.kindOf t = 2 && !t.answered) with
    | none => d
    | some t =>
      let x := x.modPart t.req t.part (fun p => { p with done := p.len })
      let x := { x with
        reqs := x.reqs.map (fun r => if r.id = t.req then { r with result := old } else r)
        flight := x.flight.map (fun y => if y.psn = n then { y with answered := true } else y) }
      let d := (d.setQp q x).flightDrop q (fun y => y.acked && y.answered)
      (d.settleReqs q).xptSend q

/-! ## Issue (R41, R42, R379, R396) -/

/-- A local buffer of an issuer checked under R43 to R45; `wr` where bytes go to it. -/
def Dev.bufCheck (d : Dev) (owner a n : Nat) (wr : Bool) : Status :=
  let node := a / 2 ^ 52
  let l := a % 2 ^ 52
  if node ≠ 0xFFF ∧ node ≠ d.node then St.addressUnmapped else
  match d.classOf l, d.classOf (l + (n - 1)) with
  | .hbm, .hbm =>
    if owner < 16 ∧ !(d.img owner).regions.any (fun r => r.holds l n) then St.domainMismatch else St.ok
  | .scratch, .scratch => St.ok
  | .control, _ => St.accessDenied
  | .fixed, _ => St.accessDenied
  | .hbm, .fixed => St.accessDenied
  | .media, _ => if wr then St.readOnlyRegion else St.accessDenied
  | _, _ => St.addressUnmapped

/-- A request of a unit of `owner` to `node`. Requests that cannot be sent complete at once. -/
def Dev.xptIssue (d : Dev) (owner node : Nat) (iss : Issuer) (token kind ctl op1 op2 : Nat) (parts : List PartSt)
    (source : Bytes) : Dev :=
  let chk := parts.map (fun p =>
    if p.len = 2 ^ 64 - 1 then St.lengthReserved
    else if p.len = 0 ∨ kind = 2 ∨ iss ≠ .command then St.ok
    else d.bufCheck owner p.buf p.len (kind = 1))
  let total := parts.foldl (fun n p => n + p.len) 0
  let e := ⟨R.XPT_PEER owner node, 63, 0⟩
  let w := d.get e
  let q := w % 2 ^ 20
  let all := fun (d : Dev) (st : Status) => d.endNow iss token st (parts.map (fun _ => st))
  if firstBad chk ≠ 0 then d.endNow iss token (firstBad chk) chk
  else if kind = 1 ∧ 16777216 < total then all d St.lengthExceedsBuffer
  else if total = 0 then all d St.ok
  else if d.node = 0xFFF then all d St.nodeIdUnassigned
  else if d.has R.LGR_STATUS_SELF_FENCED then all d St.fenced
  else if w < 2 ^ 63 then all d St.addressUnmapped
  else match d.qp q with
  | none => all d St.addressUnmapped
  | some x =>
    if kind = 2 ∧ x.setup.mode = 1 then all d St.addressUnmapped
    else if x.st = 2 then all d x.err
    else
      let r : Req := ⟨d.xpt.nextReq, iss, token, kind, ctl, op1, op2, parts.map (fun p => { p with status := 0, sent := 0, done := 0 }), [], 0, source⟩
      let d := d.modXpt (fun t => { t with nextReq := t.nextReq + 1 })
      let d := (d.setQp q { x with reqs := x.reqs ++ [r] }).wantQp q
      d.xptSend q

/-! ## The responder (R381 to R383) -/

def Dev.winSt (d : Dev) (w : Nat) : Nat := d.get (R.XPT_WIN_STATE_STATE w)

/-- Rows 3 to 7 of R382: the status, the window and the local address. -/
def Dev.xptCheck (d : Dev) (x : Qp) (need : Nat) (addrForm : Bool) (handle addr remain : Nat) (lenBad : Bool) : Status × Nat × Nat :=
  let fail := fun (s : Status) => (s, 0, 0)
  let covers := fun (w : Win) => w.base ≤ addr % 2 ^ 52 && addr % 2 ^ 52 < w.base + w.size
  let found : Status × Nat :=
    if addrForm then
      match d.xpt.windows.find? (fun e => d.winSt e.1 = 1 && e.2.pd = x.setup.pd && covers e.2) with
      | some e => (0, e.1)
      | none => (if d.xpt.windows.any (fun e => d.winSt e.1 != 0 && covers e.2) then St.windowClosed else St.addressUnmapped, 0)
    else
      let w := handle % 65536
      if d.winSt w = 1 ∧ d.get (R.XPT_WIN_STATE_GEN w) = handle / 65536 then (0, w) else (St.windowClosed, 0)
  if found.1 ≠ 0 then fail found.1 else
  match Map.find d.xpt.windows found.2 with
  | none => fail St.windowClosed
  | some w =>
    let off := if addrForm then addr % 2 ^ 52 - w.base else addr
    let isMedia := mediaBase ≤ w.base
    if w.pd ≠ x.setup.pd then fail St.domainMismatch
    else if !w.access.testBit need ∨ (need ≠ 0 ∧ isMedia) then fail (if need = 0 then St.accessDenied else St.readOnlyRegion)
    else if lenBad then fail St.lengthReserved
    else if w.size < off + remain then fail St.lengthExceedsBuffer
    else (0, found.2, w.base + off)

/-- The PSN below which every packet has been handled. -/
def Qp.handled (x : Qp) : Nat := x.unhandled.foldl (fun a p => if psnBefore x p a then p else a) x.psnRx

/-- An ACK to a GF peer, answering a packet of stamp `stamp`. -/
def Dev.sendAck (d : Dev) (q stamp : Nat) : Dev :=
  match d.qp q with
  | none => d
  | some x => d.xptOut q x (xptHeader 6 0 0 x.setup.peerQp x.handled 0 0 0 stamp)

/-- A NAK to a GF peer: kind 0 ERROR, 1 RNR, 2 SEQUENCE. -/
def Dev.sendNak (d : Dev) (q kind : Nat) (synd : Status) (psn stamp : Nat) : Dev :=
  match d.qp q with
  | none => d
  | some x => d.xptOut q x (xptHeader 7 (4 * kind) synd.toNat x.setup.peerQp psn 0 0 0 stamp)

/-- A refusal counted. -/
def Dev.countRefused (d : Dev) (st : Status) : Dev :=
  if st = St.windowClosed then d.inc R.XPT_DISC_WIN_CLOSED
  else if st = St.domainMismatch then d.inc R.XPT_DISC_DOMAIN else d

/-- Whether the local memory of an admitted access exists. -/
def Dev.homeCheck (d : Dev) (a n : Nat) : Status :=
  match d.classOf a, d.classOf (a + (n - 1)) with
  | .hbm, .hbm => St.ok
  | .scratch, .scratch => St.ok
  | .media, _ => St.ok
  | .fixed, _ => St.accessDenied
  | .control, _ => St.accessDenied
  | _, _ => St.addressUnmapped

/-- The fields of a transport packet. -/
structure XptHdr where
  op : Nat
  flags : Nat
  synd : Status
  qp : Nat
  psn : Nat
  handle : Nat
  addr : Nat
  remain : Nat
  stamp : Nat
  deriving DecidableEq, Repr

def xptHdr (b : Bytes) : XptHdr :=
  ⟨fld b 0 1, fld b 1 1, BitVec.ofNat 16 (fld b 2 2), fld b 4 4, fld b 8 4, fld b 0xC 4, fld b 0x10 8, fld b 0x18 4, fld b 0x1C 4⟩

/-- The atomic that REMAIN names: AOP, KIND, SZ, FMT. -/
def XptHdr.atom (h : XptHdr) : Nat × Nat × Nat × Nat := (bits h.remain 2 0, bits h.remain 4 3, bits h.remain 6 5, bits h.remain 10 7)

/-- Whether a transport packet keeps to R380. -/
def xptWf (b : Bytes) : Bool :=
  let h := xptHdr b
  let n := b.length - 32
  let (aop, kind, sz, fmt) := h.atom
  32 ≤ b.length && 1 ≤ h.op && h.op ≤ 8 && h.flags < 16 && h.qp < 2 ^ 20 &&
    (match h.op with
      | 1 => n == min 4064 h.remain
      | 3 => n ≤ 4064
      | 4 => n == 16 && h.remain < 2 ^ 11 && (sz == 3 || atomValid kind aop sz fmt)
      | 5 => n == 8
      | _ => n == 0)

/-- What a request packet asks of the checks: the right it needs, its extent, and whether its length is all ones. -/
def XptHdr.asks (h : XptHdr) : Nat × Nat × Bool :=
  match h.op with
  | 1 => (1, h.remain, h.remain == 2 ^ 32 - 1)
  | 2 => (0, h.remain, h.remain == 2 ^ 32 - 1)
  | _ =>
    let (_, kind, sz, fmt) := h.atom
    (2, atomSize kind sz fmt, sz == 3)

/-- An admitted packet performed at this node: its status and the answer's data, or none where a media read must come
first (R147). -/
def Dev.performAt (d : Dev) (h : XptHdr) (data : Bytes) (a : Nat) : Option (Status × Bytes) × Dev :=
  let d := if a < hbmSize then d.touchHbm else d
  match h.op with
  | 1 =>
    let st := d.homeCheck a data.length
    (some (st, []), if st = 0 then d.write a data else d)
  | 2 =>
    let n := min 4064 h.remain
    let st := d.homeCheck a n
    if st = 0 ∧ mediaBase ≤ a then (none, d) else (some (st, if st = 0 then d.read a n else []), d)
  | _ =>
    let (aop, kind, sz, fmt) := h.atom
    let st := d.homeCheck a (atomSize kind sz fmt)
    if st ≠ 0 then (some (st, []), d)
    else if a % atomAlign kind sz fmt ≠ 0 then (some (St.misaligned, []), d)
    else if kind = 1 ∧ d.det then (some (St.detForbidden, []), d)
    else
      let (old, d) := d.atomicAt kind aop sz fmt (fld data 0 8) (fld data 8 8) a
      (some (0, le 8 old), d)

/-- A refused request packet: NAK of kind ERROR, then the ACK that passes it. -/
def Dev.refuse (d : Dev) (q : Nat) (h : XptHdr) (st : Status) : Dev :=
  ((d.countRefused st).sendNak q 0 st h.psn h.stamp).sendAck q h.stamp

/-- The answer of an admitted READ_REQ or ATOMIC. -/
def Dev.answer (d : Dev) (q : Nat) (h : XptHdr) (data : Bytes) : Dev :=
  match d.qp q with
  | none => d
  | some x => d.xptOut q x (xptHeader (h.op + 1) 0 0 x.setup.peerQp h.psn 0 0 0 h.stamp ++ data)

/-- A request packet checked from row 3 on and performed. `fresh` where it is not a duplicate. -/
def Dev.serve (d : Dev) (q : Nat) (x : Qp) (h : XptHdr) (data : Bytes) (fresh : Bool) : Dev :=
  let (need, ext, lenBad) := h.asks
  let (st, win, a) := d.xptCheck x need (h.flags.testBit 0) h.handle h.addr ext lenBad
  if st ≠ 0 then d.refuse q h st else
  match d.performAt h data a with
  | (none, d) =>
    let d := d.add (R.XPT_WIN_STATE_ADMITTED win) 1
    let d := if fresh then d.modQp q (fun x => { x with unhandled := x.unhandled ++ [h.psn] }) else d
    { d with med := { d.med with asks := d.med.asks ++ [.remote q h.psn win a (min 4064 h.remain) h.stamp] } }
  | (some (st, out), d) =>
    if st ≠ 0 then d.refuse q h st else
    let d := if h.op = 4 ∧ fresh then d.modQp q (fun x => { x with atomics := ((h.psn, unle out) :: x.atomics).take 16 }) else d
    let d := if h.op = 1 then d else d.answer q h out
    d.sendAck q h.stamp

/-- A request packet of a queue pair whose state is on die (R381, R382). -/
def Dev.onRequest (d : Dev) (q : Nat) (m : RxPkt) : Dev :=
  let h := xptHdr m.payload
  let data := m.payload.drop 32
  match d.qp q with
  | none => d.inc R.XPT_DISC_BAD_QP
  | some x =>
    if x.st ≠ 1 ∨ x.setup.mode ≠ 0 ∨ x.setup.peerNode ≠ m.src then d.inc R.XPT_DISC_BAD_QP
    else if h.psn = x.psnRx then
      let d := d.setQp q { x with
        psnRx := psnAdd x x.psnRx 1
        seqNaked := false
        rnrAt := none }
      let d := d.serve q x h data true
      if h.flags.testBit 1 then d.creditUsed q else d
    else if psnBefore x x.psnRx h.psn then
      if x.rnrAt.isSome || x.seqNaked then d
      else ((d.setQp q { x with seqNaked := true }).inc R.XPT_MISS_SEQ_NAKS).sendNak q 2 0 x.psnRx h.stamp
    else
      let d := d.inc R.XPT_DISC_DUPLICATES
      match h.op with
      | 2 => d.serve q x h data false
      | 4 =>
        let d := match x.atomics.find? (fun e => e.1 = h.psn) with
          | some e => d.answer q h (le 8 e.2)
          | none => d
        d.sendAck q h.stamp
      | _ => d.sendAck q h.stamp

/-- A request packet that arrives (R385, R386). -/
def Dev.arriveRequest (d : Dev) (m : RxPkt) : Dev :=
  let h := xptHdr m.payload
  let q := h.qp
  let waiting := d.xpt.miss.any (fun e => e.1 = q)
  if d.onDie q && !waiting then ((d.bringIn q).getD d).onRequest q m
  else
    let take := fun (d : Dev) =>
      ((d.modXpt (fun t => { t with miss := t.miss ++ [(q, m)] })).inc R.XPT_MISS_MISSES).wantQp q
    let res := Map.get 0 d.xpt.reserved q
    if h.flags.testBit 1 && 0 < res then take (d.modXpt (fun t => { t with reserved := Map.put 0 t.reserved q (res - 1) }))
    else
      match d.qp q with
      | some x =>
        if x.rnrAt.isSome && x.rnrAt != some h.psn then d
        else if 0 < d.missFree then take ((d.setQp q { x with rnrAt := none }).issue (poolNo 0x10 0) 1)
        else ((d.setQp q { x with rnrAt := some h.psn }).inc R.XPT_MISS_RNR_SENT).sendNak q 1 0 h.psn h.stamp
      | none => if 0 < d.missFree then take (d.issue (poolNo 0x10 0) 1) else d

/-- A queue pair's state has come on die: its waiting packets are checked in order of arrival (R385). -/
def Dev.fetched (d : Dev) (q : Nat) : Dev :=
  if !d.xpt.fetching.contains q then d else
  match d.bringIn q with
  | none => d
  | some d =>
    let mine := d.xpt.miss.filter (fun e => e.1 = q)
    let d := mine.foldl (fun d e =>
      (((d.modXpt (fun t => { t with miss := t.miss.erase e })).retire (poolNo 0x10 0) 1)).onRequest q e.2) d
    ((d.modXpt (fun t => { t with fetching := t.fetching.filter (· != q) })).topUp q).xptSend q

/-- A response that arrives (R383, R394). -/
def Dev.arriveResponse (d : Dev) (m : RxPkt) : Dev :=
  let h := xptHdr m.payload
  let q := h.qp
  match d.qp q with
  | none => d
  | some x =>
    if x.st ≠ 1 ∨ x.setup.mode ≠ 0 ∨ x.setup.peerNode ≠ m.src then d else
    let rtt := (d.xptStamp + 2 ^ 32 - h.stamp) % 2 ^ 32
    match h.op with
    | 3 => d.onReadData q h.psn (m.payload.drop 32)
    | 5 => d.onAtomicData q h.psn (fld m.payload 32 8)
    | 6 => d.onAck q h.psn (some rtt)
    | 7 =>
      match bits h.flags 3 2 with
      | 0 => d.onRefused q h.psn h.synd
      | 1 =>
        if !x.flight.any (fun t => t.psn = h.psn) then d else
        let d := ((d.modQp q (fun x => { x with rnrFrom := some h.psn })).cutHalf q).disarmRetx q
        d.arm (.rnr q) (Machine.ns (100 * max 1 (d.get (R.XPT_TC_RNR_WAIT x.setup.tc))))
      | 2 => (d.cutHalf q).resendFrom q h.psn
      | _ => d
    | 8 =>
      let gain := (h.psn + 2 ^ 32 - x.granted % 2 ^ 32) % 2 ^ 32
      if gain = 0 ∨ 2 ^ 31 ≤ gain ∨ !d.credited x then d else
      let excess := x.unused + gain - x.setup.creditMax
      let d := d.setQp q { x with
        granted := x.granted + gain
        unused := min (x.unused + gain) x.setup.creditMax }
      (d.add R.XPT_GRANT_EXCESS_GRANT excess).xptSend q
    | _ => d

/-! ## What other blocks do to queue pairs and windows -/

/-- Node `n` is fenced: its queue pairs go to ERROR and its waiting packets leave the miss buffer (R385, R392). -/
def Dev.xptFence (d : Dev) (n : Nat) : Dev :=
  let qs := (d.xpt.qps.filter (fun e => e.2.setup.peerNode = n && e.2.st = 1)).map (·.1)
  let gone := d.xpt.miss.filter (fun e => e.2.src = n)
  let d := (d.modXpt (fun t => { t with miss := t.miss.filter (fun e => e.2.src ≠ n) })).retire (poolNo 0x10 0) gone.length
  qs.foldl (fun d q => d.qpError q St.fenced) d

/-- A function is KILLed: its queue pairs with requests outstanding go to ERROR (R378). -/
def Dev.xptKill (d : Dev) (f : Nat) : Dev :=
  let qs := (d.xpt.qps.filter (fun e => d.qpOwner e.1 = f && !e.2.reqs.isEmpty)).map (·.1)
  qs.foldl (fun d q => d.qpError q St.functionStopped) d

/-- A range of queue pairs is released (R378). -/
def Dev.xptRelease (d : Dev) (base count : Nat) : Dev :=
  ((d.xpt.qps.map (·.1)).filter (fun q => base ≤ q && q < base + count)).foldl (fun d q => d.qpReset q) d

/-- An ACTIVE window goes to DRAINING (R389). -/
def Dev.revokeWin (d : Dev) (w : Nat) : Dev := if d.winSt w = 1 then d.set (R.XPT_WIN_STATE_STATE w) 2 else d

/-- Every window whose range lies in freed regions is revoked (R391). -/
def Dev.revokeRegions (d : Dev) (rs : List Region) : Dev :=
  (d.xpt.windows.filter (fun e => rs.any (fun r => e.2.base < r.base + r.size && r.base < e.2.base + e.2.size))).foldl (fun d e => d.revokeWin e.1) d

/-- An admitted packet has landed or has been answered. -/
def Dev.winDone (d : Dev) (w : Nat) : Dev := d.set (R.XPT_WIN_STATE_ADMITTED w) (d.get (R.XPT_WIN_STATE_ADMITTED w) - 1)

/-! ## Ethernet: the responder's and requester's side of RoCEv2 (R400) -/

/-- The NAK syndrome of a refusal. -/
def roceSynd (st : Status) : Nat :=
  if st = St.addressUnmapped ∨ (0x0401 ≤ st.toNat ∧ st.toNat ≤ 0x0404) then 0x62
  else if st = St.lengthExceedsBuffer ∨ st = St.lengthReserved then 0x61 else 0x63

/-- The status of a NAK syndrome received. -/
def roceStatus (synd : Nat) : Status :=
  if synd = 0x62 then St.accessDenied else if synd = 0x61 then St.lengthExceedsBuffer else St.mediaUncorrectable

/-- An acknowledgement header. -/
def aeth (synd : Nat) (x : Qp) : Bytes := le 1 synd ++ be 3 (x.msn % 2 ^ 24)

/-- An RC acknowledgement of PSN `psn`. -/
def Dev.roceAck (d : Dev) (q synd psn : Nat) : Dev :=
  match d.qp q with
  | none => d
  | some x => d.roceOut x 0x11 psn false (aeth synd x)

/-- The responses of an RDMA READ. -/
def Dev.roceReadOut (d : Dev) (q psn : Nat) (data : Bytes) : Dev :=
  match d.qp q with
  | none => d
  | some x =>
    let cs := chunks x.setup.mtuBytes data
    let n := cs.length
    ((List.range n).zip cs).foldl (fun d e =>
      let op := if n = 1 then 0x10 else if e.1 = 0 then 0x0D else if e.1 + 1 = n then 0x0F else 0x0E
      d.roceOut x op (psnAdd x psn e.1) false ((if op = 0x0E then [] else aeth 0x1F x) ++ e.2)) d

/-- A record appended to the receive ring; its status. -/
def Dev.ringAppend (d : Dev) (q : Nat) (x : Qp) (op imm len : Nat) (payload : Bytes) : Status × Dev :=
  let rec_ := padTo 64 (le 4 len ++ le 4 imm ++ le 1 op ++ List.replicate 7 0 ++ payload)
  let h := x.setup.recvHandle
  if h = 0 then (St.lengthExceedsBuffer, d) else
  let size := ((Map.find d.xpt.windows (h % 65536)).map (fun w => w.size)).getD 0
  let off := if size < x.ringAt + rec_.length then 0 else x.ringAt
  let (st, _, a) := d.xptCheck x 1 false h off rec_.length false
  if st ≠ 0 then (st, d) else
  let st := d.homeCheck a rec_.length
  if st ≠ 0 then (st, d) else
  (0, (d.write a rec_).modQp q (fun x => { x with ringAt := off + rec_.length }))

/-- One packet of a SEND or RDMA WRITE taken in PSN order: its status. -/
def Dev.roceTake (d : Dev) (q : Nat) (x : Qp) (op : RoceOp) : Status × Dev :=
  match op with
  | .write rkey va dmaLen first last imm data =>
    let (st, d) : Status × Dev :=
      if first then
        let (st, _, a) := d.xptCheck x 1 false rkey.toNat va.toNat dmaLen (dmaLen == 2 ^ 32 - 1)
        (st, d.modQp q (fun x => { x with msg := if st = 0 then some (a, dmaLen) else none }))
      else (if x.msg.isSome then 0 else St.lengthExceedsBuffer, d)
    if st ≠ 0 then (st, d) else
    match (d.qp q).bind (fun x => x.msg) with
    | none => (St.lengthExceedsBuffer, d)
    | some (a, left) =>
      if left < data.length then (St.lengthExceedsBuffer, d.modQp q (fun x => { x with msg := none })) else
      let st := if data.isEmpty then 0 else d.homeCheck a data.length
      if st ≠ 0 then (st, d.modQp q (fun x => { x with msg := none })) else
      let d := (if a < hbmSize then d.touchHbm else d).write a data
      let d := d.modQp q (fun x => { x with msg := if last then none else some (a + data.length, left - data.length) })
      if !last then (0, d) else
      match imm with
      | none => (0, d)
      | some i => d.ringAppend q x (if first then 0x0B else 0x09) i.toNat dmaLen []
  | .send first last imm data =>
    let buf := if first then data else x.sendBuf ++ data
    if x.setup.recvHandle = 0 then (St.lengthExceedsBuffer, d)
    else if !last then (0, d.modQp q (fun x => { x with sendBuf := buf }))
    else
      let d := d.modQp q (fun x => { x with sendBuf := [] })
      let o := match first, imm with
        | true, none => 0x04
        | true, some _ => 0x05
        | false, none => 0x02
        | false, some _ => 0x03
      d.ringAppend q x o ((imm.map (·.toNat)).getD 0) buf.length buf
  | _ => (0, d)

/-- Whether a request packet ends its message. -/
def roceEnds : RoceOp → Bool
  | .write _ _ _ _ last _ _ => last
  | .send _ last _ _ => last
  | _ => true

/-- An RDMA READ served: data, or a NAK. -/
def Dev.roceServeRead (d : Dev) (q : Nat) (x : Qp) (psn rkey va len : Nat) (fresh : Bool) : Dev :=
  let (st, win, a) := d.xptCheck x 0 false rkey va len (len == 2 ^ 32 - 1)
  if st ≠ 0 then (d.countRefused st).roceAck q (roceSynd st) psn else
  let d := if a < hbmSize then d.touchHbm else d
  let st := if len = 0 then 0 else d.homeCheck a len
  if st ≠ 0 then d.roceAck q (roceSynd st) psn
  else if mediaBase ≤ a then
    let d := d.add (R.XPT_WIN_STATE_ADMITTED win) 1
    let d := if fresh then d.modQp q (fun x => { x with unhandled := x.unhandled ++ [psn] }) else d
    { d with med := { d.med with asks := d.med.asks ++ [.remote q psn win a len 0] } }
  else d.roceReadOut q psn (d.read a len)

/-- A received RoCEv2 request. -/
def Dev.roceRequest (d : Dev) (q : Nat) (x : Qp) (pkt : RocePkt) : Dev :=
  let psn := pkt.psn.toNat
  if psnBefore x x.psnRx psn then
    if x.seqNaked then d
    else ((d.setQp q { x with seqNaked := true }).inc R.XPT_MISS_SEQ_NAKS).roceAck q 0x60 x.psnRx
  else
    let fresh := psn == x.psnRx
    let d := if fresh then d else d.inc R.XPT_DISC_DUPLICATES
    match pkt.op with
    | .read rkey va len =>
      let used := max 1 (cdiv len x.setup.mtuBytes)
      let d := if fresh then d.setQp q { x with
          psnRx := psnAdd x psn used
          seqNaked := false
          msn := x.msn + 1 } else d
      d.roceServeRead q x psn rkey.toNat va.toNat len fresh
    | op =>
      if !fresh then d.roceAck q 0x1F psn else
      let (st, d) := d.roceTake q x op
      let d := d.modQp q (fun x => { x with
        psnRx := psnAdd x psn 1
        seqNaked := false
        msn := if st = 0 ∧ roceEnds op = true then x.msn + 1 else x.msn })
      if st = 0 then d.roceAck q 0x1F psn else (d.countRefused st).roceAck q (roceSynd st) psn

/-- One retry more of a RoCEv2 queue pair, or its end (R400). -/
def Dev.roceRetry (d : Dev) (q from_ : Nat) : Dev :=
  match d.qp q with
  | none => d
  | some x =>
    if x.retries = 0 then d.qpError q St.timeout
    else ((d.setQp q { x with retries := x.retries - 1 }).cutHalf q).resendFrom q from_

/-- A received RoCEv2 response. -/
def Dev.roceResponse (d : Dev) (q : Nat) (x : Qp) (pkt : RocePkt) : Dev :=
  let psn := pkt.psn.toNat
  let rtt := (x.flight.find? (fun t => t.psn = psn)).map (fun t => d.ftNs - t.stamp)
  match pkt.op with
  | .ack => d.onAck q (psnAdd x psn 1) rtt
  | .readResp data _ =>
    match x.flight.find? (fun t => x.kindOf t = 1 && !t.answered && !psnBefore x psn t.psn
        && psnBefore x psn (psnAdd x t.psn (cdiv t.len x.setup.mtuBytes))) with
    | none => d
    | some t =>
      let off := (psn + psnMod x - t.psn) % psnMod x * x.setup.mtuBytes
      let have_ := ((x.reqs.find? (fun r => r.id = t.req)).map (fun r => r.data.any (fun y => y.1 = t.part && y.2.1 = off))).getD true
      if have_ || t.len < off + data.length then d else
      let x := x.modPart t.req t.part (fun p => { p with done := p.done + data.length })
      let whole := ((x.reqs.find? (fun r => r.id = t.req)).bind (fun r => (r.parts[t.part]?).map (fun p => p.done == p.len))).getD false
      let x := { x with
        reqs := x.reqs.map (fun r => if r.id = t.req then { r with data := r.data ++ [(t.part, off, data)] } else r)
        flight := x.flight.map (fun y => if y.psn = t.psn then { y with answered := whole } else y) }
      ((d.setQp q x).onAck q (psnAdd x psn 1) rtt).settleReqs q
  | .nakSeq => (d.onAck q psn none).roceRetry q psn
  | .nakRnr =>
    let d := d.onAck q psn none
    if x.rnrRetries = 0 then d.qpError q St.timeout else
    let d := ((d.modQp q (fun x => { x with
      rnrRetries := x.rnrRetries - 1
      rnrFrom := some psn })).cutHalf q).disarmRetx q
    d.arm (.rnr q) (us 10)
  | .nakErr synd => (d.onAck q psn none).onRefused q psn (roceStatus synd.toNat)
  | _ => d

/-- Whether an IP address is one of port `p`'s own (R399). -/
def Dev.ownIp (d : Dev) (p : Nat) (ip : Nat) : Bool :=
  let v4 := d.get (R.XPT_ETH_IP4_IP4 p)
  let v6 := (d.word (R.XPT_ETH_IP6_HI p)).toNat * 2 ^ 64 + (d.word (R.XPT_ETH_IP6_LO p)).toNat
  (v4 != 0 && ip == 0xFFFF * 2 ^ 32 + v4) || (v6 != 0 && ip == v6)

/-- The READY queue pair that a frame received on port `p` names (R399). -/
def Dev.roceQp (d : Dev) (p : Nat) (f : EthFrame) : Option (Nat × Qp) :=
  let q := f.pkt.qp.toNat
  if f.dstMac.toNat ≠ d.get (R.XPT_ETH_MAC_MAC p) ∨ !d.ownIp p f.dstIp.toNat then none else
  match d.qp q with
  | none => none
  | some x => if x.st = 1 ∧ x.setup.mode = 1 ∧ x.setup.port = p ∧ x.setup.peerIp = f.srcIp.toNat then some (q, x) else none

/-- A CNP sent for a packet marked ECN-CE, at most one per queue pair every 50 µs. -/
def Dev.sendCnp (d : Dev) (q : Nat) : Dev :=
  match d.qp q with
  | none => d
  | some x =>
    let due := match x.lastCnp with
      | none => true
      | some t => t + us 50 ≤ d.clk
    if due then (d.setQp q { x with lastCnp := some d.clk }).roceOut x 0x81 0 false (List.replicate 16 0) else d

/-- A received RoCEv2 frame of port `p`. -/
def Dev.roceFrame (d : Dev) (p : Nat) (f : EthFrame) : Dev :=
  match d.roceQp p f with
  | none => d.inc (R.FAB_PORT_ETH_UNSUPPORTED p)
  | some (q, x) =>
    let d := if f.pkt.ecnCe then d.sendCnp q else d
    if f.cnp then
      let d := d.inc R.XPT_GRANT_CNP
      (d.onRtt q 0 (2 * d.get (R.XPT_TC_TARGET x.setup.tc))).xptSend q
    else
      match (d.qp q).getD x, f.pkt.op with
      | x, .write .. => d.roceRequest q x f.pkt
      | x, .send .. => d.roceRequest q x f.pkt
      | x, .read .. => d.roceRequest q x f.pkt
      | x, _ => d.roceResponse q x f.pkt

/-- A media-window read of a peer has its data, or its status (R147, R382 row 8). -/
def Dev.answerMedia (d : Dev) (q psn win len stamp : Nat) (st : Status) (data : Bytes) : Dev :=
  let d := d.winDone win
  let d := d.modQp q (fun x => { x with unhandled := x.unhandled.filter (· != psn) })
  let h : XptHdr := ⟨2, 0, 0, q, psn, 0, 0, len, stamp⟩
  match d.qp q with
  | none => d
  | some x =>
    if x.st ≠ 1 then d
    else if x.setup.mode = 1 then (if st ≠ 0 then d.roceAck q (roceSynd st) psn else d.roceReadOut q psn data)
    else if st ≠ 0 then d.refuse q h st else (d.answer q h data).sendAck q stamp

end Sys2Proof.Machine
end

