-- ==== Sys2Proof/Machine/Asm.lean ====
section
/-! DEFINITION. Splices (R65), the batch assembler (R134, R135), manifests (R136 to R139) and their delivery
(R130 to R133). -/

namespace Sys2Proof.Machine

/-! ## Splices -/

/-- The endpoints of an instance in one direction, in ascending port. -/
def FnImage.ports (i : FnImage) (kind inst : Nat) (out : Bool) : List Endpoint :=
  ((List.range 16).filterMap (fun p => i.eps.find? (fun e => e.kind = kind && e.inst = inst && e.out = out && e.port = p)))

/-- Whether an output endpoint holds a credit for one granule more. -/
def Dev.hasRoom (d : Dev) (f ep : Nat) : Bool :=
  match (d.img f).chanFrom ep with
  | some c => (d.outQ ep).length < (d.chan c).credits
  | none => false

/-- The granules of a sample at an input, and the rest. -/
def Dev.ofSample (d : Dev) (ep pos tok : Nat) : List Granule := (d.inQ ep).filter (fun g => g.pos = pos && g.tok = tok)
def Dev.dropSample (d : Dev) (ep pos tok : Nat) : Dev := d.setInQ ep ((d.inQ ep).filter (fun g => !(g.pos = pos && g.tok = tok)))

/-- The first granule of a sample leaves an input's queue. -/
def Dev.takeGranule (d : Dev) (ep pos tok : Nat) : Option (Granule × Dev) :=
  let q := d.inQ ep
  match q.findIdx? (fun g => g.pos = pos && g.tok = tok) with
  | none => none
  | some i => (q[i]?).map (fun g => (g, d.setInQ ep (q.eraseIdx i)))

/-- A splice forwards one granule of its sample on its outputs: counted and capped (R94), the last one completing the
stage. -/
def Dev.spliceOut (d : Dev) (f i : Nat) (outs : List Endpoint) (e : Eng) (g : Granule) : Dev :=
  let put := fun (d : Dev) (g : Granule) => outs.foldl (fun d o => d.pushOut o.ep [g]) d
  if g.defect ≠ 0 then ((put d g).setEng 0xC i Eng.idle).stageComplete f 0xC i e.pos e.tok
  else if !withinCap (d.workCap f 0xC i e.idx) (e.units + 1) then
    ((put d (defectMark e.pos e.tok e.idx St.workCap)).setEng 0xC i (if g.last then Eng.idle else { e with skip := true })).stageComplete
      f 0xC i e.pos e.tok
  else
    let d := put d g
    if g.last then (d.setEng 0xC i Eng.idle).stageComplete f 0xC i e.pos e.tok
    else d.setEng 0xC i { e with units := e.units + 1 }

def Eng.begin (pos tok idx src : Nat) : Eng := { Eng.idle with
  pos := pos
  tok := tok
  idx := idx
  active := true
  st := .splice src }

/-- COPY and the body of MERGE: one granule of the sample in progress from one input. -/
def Dev.spliceMove (d : Dev) (f i ep : Nat) (outs : List Endpoint) (e : Eng) : Dev :=
  match d.takeGranule ep e.pos e.tok with
  | none => d.setEng 0xC i e
  | some (g, d') =>
    if e.skip then d'.setEng 0xC i (if g.last then Eng.idle else e)
    else if outs.all (fun o => d.hasRoom f o.ep) then d'.spliceOut f i outs e g
    else d.setEng 0xC i e

/-- The candidates that a MERGE has forwarded or is forwarding, of positions still in flight. -/
def Dev.mergedOf (d : Dev) (f i : Nat) : List (Nat × Nat) :=
  (Map.get [] d.seq.merged i).filter (fun x => (d.liveAt f x.1).isSome)

/-- Whether a MERGE may begin a position: every lower one that is not waiting for a substitute and comes this way has
been forwarded. -/
def Dev.mergeNext (d : Dev) (f i pos : Nat) : Bool :=
  let m := d.mergedOf f i
  (d.fn f).live.all (fun l => pos ≤ l.pos || l.waiting || m.contains (l.pos, l.tok) || !d.passes f l 0xC i)

def Dev.merge (d : Dev) (f i : Nat) (ins outs : List Endpoint) : Dev :=
  let e := d.eng 0xC i
  let old := d.mergedOf f i
  let src := match e.st with
    | .splice s => s
    | _ => 0
  -- copies of positions forwarded already, or taken from another input
  let d := ins.foldl (fun d x => d.setInQ x.ep ((d.inQ x.ep).filter (fun g =>
    !(old.contains (g.pos, g.tok)) || (e.active && g.pos == e.pos && g.tok == e.tok && x.port == src)))) d
  if e.active then
    match ins.find? (fun x => x.port = src) with
    | some x => d.spliceMove f i x.ep outs e
    | none => d
  else
    let heads := ins.filterMap (fun x => ((d.inQ x.ep).head?).map (fun g => (x, g)))
    match lowest (heads.map (·.2)) with
    | none => d
    | some (p, t, idx) =>
      if !d.mergeNext f i p then d else
      match heads.find? (fun h => h.2.pos = p && h.2.tok = t) with
      | none => d
      | some (x, _) =>
        let d := { d with seq := { d.seq with merged := Map.put [] d.seq.merged i (old ++ [(p, t)]) } }
        d.spliceMove f i x.ep outs (Eng.begin p t idx x.port)

/-- JOIN: the sample's outputs on all inputs, concatenated in ascending input and cut into granules again. -/
def Dev.join (d : Dev) (f i : Nat) (ins outs : List Endpoint) : Dev :=
  let e := d.eng 0xC i
  let go := fun (d : Dev) (e : Eng) =>
    if !outs.all (fun o => d.hasRoom f o.ep) then d.setEng 0xC i e
    else if e.mark ≠ 0 then d.spliceOut f i outs e (defectMark e.pos e.tok e.idx e.mark)
    else
      let rest := e.buf.drop 256
      let g : Granule := ⟨e.pos, e.tok, e.idx, e.buf.take 256, rest.isEmpty, 0⟩
      let capped := !withinCap (d.workCap f 0xC i e.idx) (e.units + 1)
      d.spliceOut f i outs { e with buf := rest } { g with last := g.last || capped }
  if e.active then go d e else
  match lowest (ins.flatMap (fun x => d.inQ x.ep)) with
  | none => d
  | some (p, t, idx) =>
    if !d.mayBegin f 0xC i p || !ins.all (fun x => (d.ofSample x.ep p t).any (fun g => g.last)) then d else
    let mark := ((ins.flatMap (fun x => (d.ofSample x.ep p t).map (fun g => g.defect))).find? (· != 0)).getD 0
    let buf := ins.flatMap (fun x => (d.ofSample x.ep p t).flatMap (fun g => g.data))
    let d := ins.foldl (fun d x => d.dropSample x.ep p t) d
    go d { Eng.begin p t idx 0 with
      mark := mark
      buf := buf }

def Dev.copy (d : Dev) (f i : Nat) (ins outs : List Endpoint) : Dev :=
  match ins with
  | [] => d
  | x :: _ =>
    let e := d.eng 0xC i
    if e.active then d.spliceMove f i x.ep outs e else
    match lowest (d.inQ x.ep) with
    | none => d
    | some (p, t, idx) => if d.mayBegin f 0xC i p then d.spliceMove f i x.ep outs (Eng.begin p t idx 0) else d

/-- SPLICE_GRANULE: splice `i` forwards a granule. -/
def Dev.splice (d : Dev) (i : Nat) : Dev :=
  match d.owner 0xC i with
  | none => d
  | some f =>
    if d.halted f then d else
    let ins := (d.img f).ports 0xC i false
    let outs := (d.img f).ports 0xC i true
    match fld (d.config f 0xC i) 1 1 with
    | 0 => d.copy f i ins outs
    | 1 => d.merge f i ins outs
    | _ => d.join f i ins outs

def execSpliceGranule (i : Nat) (s : State) : Host.Outcome State Fault Refusal :=
  s.act .engine (fun d => d.splice i)

/-! ## The canonical image (R134, R135) -/

/-- Bytes of a unit of a batch: a slot, or a row record. -/
def Dev.unitBytes (d : Dev) (f : Nat) : Nat :=
  if d.packMode f = 0 then d.slotBytes f else 4 * d.rowTokens f + 16 * d.segMax f

/-- Units of a batch. -/
def Dev.unitCount (d : Dev) (f : Nat) : Nat := if d.packMode f = 0 then d.batchSize f else d.rows f

/-- OUTPUT_LEN. -/
def Dev.outputLen (d : Dev) (f : Nat) : Nat := d.unitBytes f * d.unitCount f

/-- A segment of a packed batch: row, place, START, LENGTH, FLAGS. -/
structure Segment where
  row : Nat
  seg : Nat
  start : Nat
  len : Nat
  flags : Nat
  deriving DecidableEq, Repr

/-- The loop of `place` (R135): state (row, off, seg), tokens left, first; `none` is OUTPUT_LIMIT. -/
def placeLoop (rowTokens rows segMax : Nat) : Nat → Nat → Nat → Nat → Nat → Bool → Option ((Nat × Nat × Nat) × List Segment)
  | 0, r, o, g, n, _ => if n = 0 then some ((r, o, g), []) else none
  | fuel + 1, r, o, g, n, first =>
    if n = 0 then some ((r, o, g), []) else
    let (r, o, g) := if o = rowTokens ∨ g = segMax then (r + 1, 0, 0) else (r, o, g)
    if rows ≤ r then none else
    let k := min n (rowTokens - o)
    (placeLoop rowTokens rows segMax fuel r (o + k) (g + 1) (n - k) false).map (fun x =>
      (x.1, ⟨r, g, o, k, (if first then 0 else 1) + (if k < n then 2 else 0)⟩ :: x.2))

/-- `place(n)` from a state. -/
def Dev.place (d : Dev) (f : Nat) (st : Nat × Nat × Nat) (n : Nat) : Option ((Nat × Nat × Nat) × List Segment) :=
  let (r, o, g) := st
  let (r, o, g) := if d.packMode f = 2 ∧ 0 < o ∧ d.rowTokens f - o < n then (r + 1, 0, 0) else (r, o, g)
  match placeLoop (d.rowTokens f) (d.rows f) (d.segMax f) (d.rows f + 1) r o g n true with
  | some x => if n = 0 then some (st, []) else some x
  | none => none

/-- The placement of a batch's packed outputs in ascending position: the state, and each position's segments. -/
def Dev.placed (d : Dev) (f : Nat) (b : Batch) : (Nat × Nat × Nat) × List (Nat × List Segment) :=
  b.image.foldl (fun acc e =>
    match d.place f acc.1 (e.2.length / 4) with
    | some (st, segs) => (st, acc.2 ++ [(e.1, segs)])
    | none => acc) ((0, 0, 0), [])

/-- The canonical image of a batch. -/
def Dev.canonical (d : Dev) (f : Nat) (b : Batch) : Bytes :=
  if d.packMode f = 0 then
    (List.range (d.batchSize f)).flatMap (fun k =>
      slice (Map.get [] b.image (b.no * d.batchSize f + k)) 0 (d.slotBytes f))
  else
    let segs := (d.placed f b).2
    (List.range (d.rows f)).flatMap (fun r =>
      let mine := segs.flatMap (fun e => (e.2.filter (fun s => s.row = r)).map (fun s => (e.1, s)))
      -- where a position's tokens of this row begin in its output
      let skip := fun (e : Nat × Segment) => (((segs.find? (fun x => x.1 = e.1)).map (·.2)).getD []).foldl (fun n s =>
        if s.row < r ∨ (s.row = r ∧ s.seg < e.2.seg) then n + s.len else n) 0
      let toks := mine.flatMap (fun e => slice ((Map.get [] b.image e.1).drop (4 * skip e)) 0 (4 * e.2.len))
      let pad := (List.replicate (d.rowTokens f - toks.length / 4) (le 4 (d.padToken f))).flatten
      let ents := mine.flatMap (fun e => le 4 e.2.start ++ le 4 e.2.len ++ le 4 (e.1 % d.batchSize f) ++ le 4 e.2.flags)
      toks ++ pad ++ slice ents 0 (16 * d.segMax f))

/-! ## Batches -/

/-- The batch `no` of the image in force. -/
def FnRun.batch (r : FnRun) (no : Nat) : Option Batch := r.batches.find? (fun b => b.no = no && !b.old)

def FnRun.setBatch (r : FnRun) (b : Batch) : FnRun :=
  { r with batches := r.batches.map (fun x => if x.no = b.no ∧ x.old = b.old then b else x) }

/-- Whether every slot of a batch is placed. -/
def Dev.batchFull (d : Dev) (f : Nat) (b : Batch) : Bool := b.slots.length == d.batchSize f

/-- A manifest entry (R137). -/
def Slotted.bytes (x : Slotted) : Bytes :=
  le 8 x.sampleId ++ le 8 x.orderedId ++ le 8 x.pos ++ le 4 x.poolIdx ++ le 4 x.crc ++ le 4 x.outLen ++ le 2 x.reason.toNat
    ++ le 2 (min x.attempts 0xFFFF)

/-- Slots in ascending position. -/
def Batch.entries (b : Batch) : List Slotted := b.slots.mergeSort (fun x y => x.pos ≤ y.pos)

/-- The digested part of the header (R136). -/
def Dev.manifestHead (d : Dev) (f : Nat) (b : Batch) (image : Bytes) : Bytes :=
  [0x47, 0x4C, 0x4D, 0x41, 0x4E, 0x49, 0x46, 0x31] ++ le 2 1 ++ le 1 f ++ le 1 (d.packMode f) ++ le 4 (d.batchSize f)
    ++ le 8 b.no ++ le 4 b.epoch ++ le 4 (b.slots.filter (fun x => 1 < x.attempts)).length ++ le 8 (b.no * d.batchSize f)
    ++ le 8 b.planRecord ++ le 8 image.length ++ le 8 0 ++ slice (d.img f).digest 0 64 ++ sha512 image

/-- The rest of the header. -/
def Dev.manifestTail (d : Dev) (f : Nat) (b : Batch) (repeat_ : Bool) : Bytes :=
  let (e, c) := b.memb.getD (0, 0)
  le 8 b.deliverySteep ++ le 4 e ++ le 2 c ++ le 2 d.node ++ le 1 (b2n (d.img f).sign + 2 * b2n repeat_) ++ List.replicate 47 0

/-- A manifest before its SIGNATURE (R136 to R138). -/
def Dev.manifestOf (d : Dev) (f : Nat) (b : Batch) (repeat_ : Bool) : Bytes :=
  let head := d.manifestHead f b (d.canonical f b)
  let ents := b.entries.flatMap Slotted.bytes
  head ++ d.manifestTail f b repeat_ ++ ents ++ sha512 (head ++ ents)

/-- A batch whose slots are all placed and whose partition is known gets its manifest; one to be signed enters the
signing queue (R139). -/
def Dev.buildManifest (d : Dev) (f : Nat) (b : Batch) : Dev :=
  if !d.batchFull f b || b.memb.isNone || b.manifest.isSome then d else
  let r := d.fn f
  let b := { b with deliverySteep := (d.word (R.SEQ_FN_STEEP f)).toNat + b.planRecord - d.get (R.SEQ_FN_RECORD_RECORD f) }
  let m := d.manifestOf f b (b.no < r.delivered)
  let sign := (d.img f).sign
  let d := d.setFn f (r.setBatch { b with
    whole := d.canonical f b
    manifest := some (if sign then m else m ++ List.replicate 64 0)
    signing := sign })
  if sign then ({ d with sec := { d.sec with signQ := d.sec.signQ ++ [(⟨f, b.no⟩ : SignItem)] } }).issue (poolNo 0x15 0) 1 else d

/-- A signature made with the device key, and the device that has counted it (R526). -/
def Dev.signWith (d : Dev) (msg : Bytes) : Bytes × Dev := (edSign d.sec.seed msg, d.addWord R.SEC_SIGNED 1)

/-- MANIFEST_SIGN: SEC signs the manifest at the head of its queue (R139). -/
def Dev.manifestSign (d : Dev) : Dev :=
  match d.sec.signQ with
  | [] => d
  | x :: r =>
    let d := ({ d with sec := { d.sec with signQ := r } }).retire (poolNo 0x15 0) 1
    let run := d.fn x.fn
    let d := if run.batches.any (fun b => b.no = x.batch && b.signing) then d.addWord R.SEC_SIGNED 1 else d
    d.setFn x.fn { run with batches := run.batches.map (fun b =>
      if b.no = x.batch ∧ b.signing then { b with
        signing := false
        manifest := b.manifest.map (fun m => m ++ edSign d.sec.seed m) }
      else b) }

def execManifestSign (s : State) : Host.Outcome State Fault Refusal := s.act .engine Dev.manifestSign

/-- A batch is opened, or opened again from position `pos` on: its slots at and beyond it are empty (R129, R102). -/
def Dev.openBatch (d : Dev) (f pos : Nat) : Dev :=
  let no := d.batchOf f pos
  let r := d.fn f
  match r.batch no with
  | some b => d.setFn f (r.setBatch { b with
      image := b.image.filter (fun e => e.1 < pos)
      slots := b.slots.filter (fun x => x.pos < pos)
      whole := []
      manifest := none
      signing := false
      sent := []
      fails := [] })
  | none =>
    let b : Batch := {
      no := no, epoch := d.epochOf f pos, memb := r.memb.map (fun m => (m.epoch, m.consumers)),
      table := (r.memb.map (fun m => m.table)).getD [], old := false, image := [], slots := [],
      unitBytes := d.unitBytes f, unitCount := d.unitCount f, whole := [], planRecord := 0, deliverySteep := 0, manifest := none, signing := false, sent := [], fails := [] }
    (d.setFn f { r with batches := r.batches ++ [b] }).issue (poolNo 5 f) 1

/-! ## The batch assembler -/

/-- Whether granules of a candidate are of no use to the assembler: it has been placed, replaced or found defective. -/
def Dev.staleAt (d : Dev) (f : Nat) (g : Granule) : Bool :=
  match d.liveAt f g.pos with
  | none => true
  | some l => l.tok != g.tok || l.placed || l.waiting

/-- Whether the staging region has no room for a batch that has not begun, or the signing queue is full (R133, R139). A function
without a staging region never waits for room. -/
def Dev.asmWaits (d : Dev) (f no : Nat) : Bool :=
  let r := d.fn f
  let begun := (r.batches.filter (fun b => !b.image.isEmpty && (b.no != no || b.old))).length
  ((d.img f).region 6).any (fun x => decide (x.size < (begun + 1) * d.outputLen f)) || ((d.img f).sign && 256 ≤ d.sec.signQ.length)

/-- The sample in the assembler is placed in its batch with its output (R135, R468). -/
def Dev.placeSample (d : Dev) (f : Nat) (l : Live) (out : Bytes) : Dev :=
  let d := d.setEng 0xA f Eng.idle
  let ord := d.orderedAt f l.pos
  let x : Slotted := {
    pos := l.pos, sampleId := d.sampleId f l.idx, orderedId := d.sampleId f ord, poolIdx := l.poolIdx, crc := l.crc,
    outLen := if d.packMode f = 0 then out.length else out.length / 4, reason := l.reason, attempts := l.tok }
  let d := d.noteDone f (fun d =>
    let l := { l with
      placed := true
      done := (l.done ++ (((d.stageOf f 0xA f).toList) ++ (d.stageOf f 0xB f).toList).filter (fun k => !l.done.contains k)) }
    let d := (d.setFn f ((d.fn f).setLive l)).retire (poolNo 3 f) 1
    (d.prune f).poolCheck f)
  match (d.fn f).batch (d.batchOf f l.pos) with
  | none => d
  | some b =>
    let b := { b with
      image := Map.insert b.image l.pos out
      slots := x :: b.slots.filter (fun y => y.pos ≠ l.pos) }
    (d.setFn f ((d.fn f).setBatch b)).buildManifest f b

/-- A sample found defective at the assembler. -/
def Dev.asmDefect (d : Dev) (f : Nat) (l : Live) (st : Status) : Dev :=
  (d.setEng 0xA f Eng.idle).declareDefect f l.pos l.tok st

/-- ASSEMBLER_GRANULE: the assembler of function `f` takes a granule from an input port (R135). -/
def Dev.assemble (d : Dev) (f port : Nat) : Dev :=
  match d.epOf 0xA f false port with
  | none => d
  | some (_, ep) =>
    let d := d.setInQ ep.ep ((d.inQ ep.ep).filter (fun g => !d.staleAt f g))
    match (d.fn f).live.find? (fun l => !l.placed) with
    | none => d
    | some l =>
      if l.waiting then d else
      let e := d.eng 0xA f
      let e := if e.active ∧ e.pos = l.pos ∧ e.tok = l.tok then e else Eng.idle
      let first := ((d.img f).ports 0xA f false).find? (fun x => (d.inQ x.ep).any (fun g => g.pos = l.pos && g.tok = l.tok))
      let src := if e.active then (match e.st with
        | .splice s => some s
        | _ => none) else first.map (fun x => x.port)
      if src ≠ some port then d else
      let b := (d.fn f).batch (d.batchOf f l.pos)
      if d.asmWaits f (d.batchOf f l.pos) && ((b.map (fun b => b.image.isEmpty)).getD false || (d.img f).sign) then d else
      match d.takeGranule ep.ep l.pos l.tok with
      | none => d
      | some (g, d) =>
        let e := if e.active then e else Eng.begin l.pos l.tok l.idx port
        if g.defect ≠ 0 then d.asmDefect f l g.defect
        else if !withinCap (d.workCap f 0xA f l.idx) (e.units + 1) then d.asmDefect f l St.workCap
        else
          let out := e.buf ++ g.data
          if d.packMode f = 0 ∧ d.slotBytes f < out.length then d.asmDefect f l St.outputLimit
          else if !g.last then d.setEng 0xA f { e with
            buf := out
            units := e.units + 1 }
          else if d.packMode f = 0 then d.placeSample f l out
          else if out.length % 4 ≠ 0 then d.asmDefect f l St.decodeError
          else
            let st := (b.map (fun b => (d.placed f b).1)).getD (0, 0, 0)
            match d.place f st (out.length / 4) with
            | none => d.asmDefect f l St.outputLimit
            | some _ => d.placeSample f l out

def execAssemblerGranule (f : FnId) (port : Nat) (s : State) : Host.Outcome State Fault Refusal :=
  s.act .engine (fun d => if d.halted f then d else d.assemble f port)

/-! ## Delivery (R130 to R133) -/

/-- Entry `c` of a batch's consumer table: NODE, WINDOW, DATA_OFFSET, MAN_OFFSET, RING_SLOTS. -/
def Batch.consumer (b : Batch) (c : Nat) : Nat × Nat × Nat × Nat × Nat :=
  let o := 32 * c
  (fld b.table o 2, fld b.table (o + 4) 4, fld b.table (o + 8) 8, fld b.table (o + 0x10) 8, fld b.table (o + 0x18) 4)

def Batch.consumers (b : Batch) : Nat := (b.memb.map (·.2)).getD 0

/-- The units of consumer `c`: the first, and how many (R130). -/
def Batch.shardUnits (b : Batch) (c : Nat) : Nat × Nat :=
  let u := b.unitCount
  let n := b.consumers
  if n = 0 then (0, 0) else (c * u / n, (c + 1) * u / n - c * u / n)

/-- The bytes of consumer `c`'s shard. -/
def Batch.shardBytes (b : Batch) (c : Nat) : Bytes :=
  let (u, n) := b.shardUnits c
  slice (b.whole.drop (u * b.unitBytes)) 0 (n * b.unitBytes)

/-- The data stride (R131). -/
def Batch.dataStride (b : Batch) : Nat := alignUp 4096 (cdiv b.unitCount b.consumers * b.unitBytes)

def Batch.stateOf (b : Batch) (c : Nat) : Nat := Map.get 0 b.sent c
def Batch.setState (b : Batch) (c v : Nat) : Batch := { b with sent := Map.put 0 b.sent c v }

/-- The registers show the oldest held shard (R133, R140). -/
def Dev.heldRegs (d : Dev) (f : Nat) : Dev :=
  match (d.fn f).batches.findSome? (fun b => b.fails.head?) with
  | none => d.set (R.SEQ_FN_DELIVERY_HELD f) 0
  | some (c, _) => (d.set (R.SEQ_FN_DELIVERY_HELD f) 1).set (R.SEQ_FN_DELIVERY_CONSUMER f) c

/-- A delivery to consumer `c` has failed: the shard is held. -/
def Dev.holdShard (d : Dev) (f : Nat) (b : Batch) (c : Nat) (st : Status) : Dev :=
  let b := { b.setState c 0 with
    fails := Map.insert b.fails c st }
  ((d.setFn f ((d.fn f).setBatch b)).setSt (R.SEQ_FN_DELIVERY_STATUS f) st).heldRegs f

/-- A shard's data, or its manifest, has landed: the data first, then the manifest, and with the last manifest the
batch's slot is free. -/
def Dev.landed (d : Dev) (f : Nat) (b : Batch) (c : Nat) : Dev :=
  if b.stateOf c = 1 then d.setFn f ((d.fn f).setBatch (b.setState c 2))
  else
    let b := { b.setState c 4 with
      fails := Map.erase b.fails c }
    let r := d.fn f
    let r := { r with
      delivered := if b.old then r.delivered else max r.delivered (b.no + 1) }
    if (List.range b.consumers).all (fun c => b.stateOf c = 4) then
      ((d.setFn f { r with batches := r.batches.filter (fun x => !(x.no = b.no && x.old = b.old)) }).retire (poolNo 5 f) 1).heldRegs f
    else (d.setFn f (r.setBatch b)).heldRegs f

/-- A write into a window of this node (R41, R388, R389). -/
def Dev.windowWrite (d : Dev) (handle off : Nat) (b : Bytes) : Status × Dev :=
  let w := handle % 65536
  if d.winSt w ≠ 1 ∨ d.get (R.XPT_WIN_STATE_GEN w) ≠ handle / 65536 then (St.windowClosed, d) else
  match Map.find d.xpt.windows w with
  | none => (St.windowClosed, d)
  | some x =>
    if !x.access.testBit 1 ∨ mediaBase ≤ x.base then (St.readOnlyRegion, d)
    else if x.size < off + b.length then (St.lengthExceedsBuffer, d)
    else
      let st := if b.isEmpty then St.ok else d.homeCheck (x.base + off) b.length
      if st ≠ 0 then (st, d) else (0, d.write (x.base + off) b)

/-- Bytes written to consumer `c` at an offset of its window: at once on this node, as a transport request elsewhere. -/
def Dev.deliverBytes (d : Dev) (f : Nat) (b : Batch) (c node window off : Nat) (data : Bytes) : Dev :=
  if node = 0xFFF ∨ node = d.node then
    let (st, d) := d.windowWrite window off data
    if st ≠ 0 then d.holdShard f b c st else d.landed f b c
  else
    d.xptIssue f node (.shard f c) b.no 0 0 0 0 [⟨false, window, off, 0, data.length, 0, 0, 0⟩] data

/-- Completions of shard and manifest writes taken in. -/
def Dev.settleShards (d : Dev) : Dev :=
  let mine := d.xpt.done.filter (fun c => match c.issuer with
    | .shard _ _ => true
    | _ => false)
  let d := d.modXpt (fun x => { x with done := x.done.filter (fun c => match c.issuer with
    | .shard _ _ => false
    | _ => true) })
  mine.foldl (fun d x =>
    match x.issuer with
    | .shard f c =>
      match (d.fn f).batches.find? (fun b => b.no = x.token && (b.stateOf c = 1 || b.stateOf c = 3)) with
      | none => d
      | some b => if x.status ≠ 0 then d.holdShard f b c x.status else d.landed f b c
    | _ => d) d

/-- The next piece of consumer `c`'s delivery of a batch: the shard, then the manifest. -/
def Dev.deliverNext (d : Dev) (f : Nat) (b : Batch) (c : Nat) : Dev :=
  let (node, win, dataOff, manOff, ring) := b.consumer c
  let man := b.manifest.getD []
  if ring = 0 then d.holdShard f b c St.lengthExceedsBuffer
  else
    let data := b.shardBytes c
    let st := b.stateOf c
    if st = 0 ∧ !data.isEmpty then
      let b := b.setState c 1
      (d.setFn f ((d.fn f).setBatch b)).deliverBytes f b c node win (dataOff + b.no % ring * b.dataStride) data
    else
      let b := b.setState c 3
      (d.setFn f ((d.fn f).setBatch b)).deliverBytes f b c node win (manOff + b.no % ring * alignUp 4096 man.length) man

/-- SHARD_DELIVERY: delivery to consumer `c` of function `f` goes on with its oldest batch. -/
def Dev.shardDelivery (d : Dev) (f c : Nat) : Dev :=
  match (d.fn f).batches.find? (fun b => b.manifest.isSome && c < b.consumers && b.stateOf c != 4) with
  | none => d
  | some b =>
    let st := b.stateOf c
    if b.signing ∨ st = 1 ∨ st = 3 ∨ (st = 0 ∧ (Map.find b.fails c).isSome) then d
    else (d.deliverNext f b c).settleShards

def execShardDelivery (f : FnId) (consumer : Nat) (s : State) : Host.Outcome State Fault Refusal :=
  s.act .engine (fun d => d.shardDelivery f consumer)

/-- The oldest held shard is tried again at a boundary (R133). -/
def Dev.retryHeld (d : Dev) (f : Nat) : Dev :=
  match (d.fn f).batches.findSome? (fun b => (b.fails.head?).map (fun e => (b, e.1))) with
  | some (b, c) => if b.stateOf c = 0 then (d.deliverNext f b c).settleShards else d
  | none => d

/-- Membership known at last: batches that had none are partitioned under it (R129). -/
def Dev.partition (d : Dev) (f : Nat) : Dev :=
  match (d.fn f).memb with
  | none => d
  | some m =>
    let bs := (d.fn f).batches.filter (fun b => b.memb.isNone)
    bs.foldl (fun d b =>
      let b := { b with
        memb := some (m.epoch, m.consumers)
        table := m.table }
      (d.setFn f ((d.fn f).setBatch b)).buildManifest f b) d

end Sys2Proof.Machine
end

