-- ==== Sys2Proof/Machine/Col.lean ====
section
/-! DEFINITION. In-network compute (spec 16): programs, partials and results, collective packets, local ranks, groups,
and the engine's commands. -/

namespace Sys2Proof.Machine

/-! ## Programs (R420 to R422) -/

def colSum : Nat := 1
def colMin : Nat := 2
def colMax : Nat := 3
def colCount : Nat := 4
def colGather : Nat := 5
def colScatter : Nat := 6
def colSort : Nat := 7
def colFilter : Nat := 8

/-- The fields of a program record. -/
def progOp (p : Bytes) : Nat := fld p 1 1
def progIn (p : Bytes) : Fmt := (fmtOf (fld p 2 1)).getD .uint8
def progOut (p : Bytes) : Fmt := (fmtOf (fld p 3 1)).getD .uint8
def progFast (p : Bytes) : Bool := (fld p 4 1).testBit 0
def progDescend (p : Bytes) : Bool := (fld p 4 1).testBit 1
def progArg (p : Bytes) : Bool := (fld p 4 1).testBit 2
def progRec (p : Bytes) : Nat := fld p 6 2
def progOutMax (p : Bytes) : Nat := fld p 0xC 4

/-- Whether an operation works on records. -/
def listOp (op : Nat) : Bool := op == 4 || op == 5 || op == 7 || op == 8

/-- Bytes of an element in a packet: sub-byte elements fill whole bytes (R429). -/
def elemBytes (f : Fmt) : Nat := cdiv f.width 8

/-- The XA form of a sum. -/
def progXa (p : Bytes) : Fmt := if fld p 2 1 = 0x0E then .xa2176 else .xa320

/-- Whether a predicate instruction is well formed (R421). -/
def predWf (rec_ i : Nat) (x : Bytes) : Bool :=
  let fmt := fld x 1 1
  match fmtOf fmt with
  | none => false
  | some f =>
    let n := elemBytes f
    fld x 0 1 ≤ 5 && ((1 ≤ fmt && fmt ≤ 7) || fmt == 0xB || fmt == 0xC) && fld x 2 1 % n == 0 && fld x 2 1 + n ≤ rec_ &&
      (if i = 0 then fld x 3 1 == 0 else fld x 3 1 == 1 || fld x 3 1 == 2) && allZero ((slice x 4 4).drop n)

/-- Whether a program record keeps R420 to R422 in an image whose DET flag is `det`. -/
def progWf (p : Bytes) (det : Bool) : Bool :=
  let op := fld p 1 1
  let inf := fld p 2 1
  let outf := fld p 3 1
  let flags := fld p 4 1
  let pl := fld p 5 1
  let rb := fld p 6 2
  let isList := listOp op
  let elem := op == 1 || op == 2 || op == 3 || op == 6
  let pred := op == 4 || op == 8
  let keyf := fld p 0xA 1
  let keyOk := (1 ≤ keyf && keyf ≤ 7) || keyf == 0xB || keyf == 0xC || keyf == 0xE
  p.length == 192 && fld p 0 1 == 0x10 && 1 ≤ op && op ≤ 8 &&
  (if elem then 1 ≤ inf && inf ≤ 0xE else inf == 0) &&
  (if op = 1 then (if inf = 0xE then outf == 0xE || outf == 0x10 else 1 ≤ outf && outf ≤ 0xF) else outf == 0) &&
  flags < 8 && (!flags.testBit 0 || (op == 1 && inf == 0xE && !det)) && (!flags.testBit 1 || op == 7) &&
  (!flags.testBit 2 || op == 2 || op == 3) && (if pred then pl ≤ 16 else pl == 0) &&
  (if isList then 4 ≤ rb && rb ≤ 256 && rb % 4 == 0 else rb == 0) &&
  (if op = 7 then
    keyOk && fld p 8 2 % elemBytes ((fmtOf keyf).getD .uint8) == 0 && fld p 8 2 + elemBytes ((fmtOf keyf).getD .uint8) ≤ rb
      && 1 ≤ fld p 0xC 4 && fld p 0xC 4 ≤ 16777216
   else fld p 8 2 == 0 && keyf == 0 && fld p 0xC 4 == 0) &&
  fld p 0xB 1 == 0 && allZero (slice p 0x10 48) &&
  (List.range 16).all (fun i => let x := slice p (0x40 + 8 * i) 8; if i < pl then predWf rb i x else allZero x)

/-- One relation of a predicate (R421). -/
def predRel (rel : Nat) (a b : Val) : Bool :=
  if a.isNan || b.isNan then rel == 1 else
  let c := cmpVal a b
  match rel with
  | 0 => c == 0
  | 1 => c != 0
  | 2 => c < 0
  | 3 => c ≤ 0
  | 4 => 0 < c
  | _ => 0 ≤ c

/-- Whether a record passes the predicate. -/
def predPass (p rec_ : Bytes) : Bool :=
  (List.range (fld p 5 1)).foldl (fun acc i =>
    let x := slice p (0x40 + 8 * i) 8
    let f := (fmtOf (fld x 1 1)).getD .uint8
    let r := predRel (fld x 0 1) (decode f (fld rec_ (fld x 2 1) (elemBytes f))) (decode f (fld x 4 (elemBytes f)))
    match fld x 3 1 with
    | 1 => acc && r
    | 2 => acc || r
    | _ => r) true

/-! ## The order of values (R424) -/

/-- A number that rises with the value, equal for all NaNs. -/
def ordKey (f : Fmt) (w : Nat) : Int :=
  match f with
  | .float e m b sp =>
    if (decodeFloat e m b sp w).isNan then 2 ^ (e + m)
    else if w.testBit (e + m) then -((w % 2 ^ (e + m) : Nat) : Int) - 1 else ((w % 2 ^ (e + m) : Nat) : Int)
  | .int n => sext n w
  | _ => (w : Int)

/-- A NaN result is the canonical quiet NaN. -/
def canonOf (f : Fmt) (w : Nat) : Nat :=
  match f with
  | .float e m b sp => if (decodeFloat e m b sp w).isNan then canonNan e m sp else w
  | _ => w

/-! ## Entries

An entry is the bytes of one element, record, packed XA or partial entry as a packet carries it. -/

/-- A packed XA (R427): the unique shortest form. -/
def packXa (f : Fmt) (x : Xa) : Bytes :=
  let n := xaBits f / 8
  let b := le n (wrap (xaBits f) x.sum)
  let low := (b.takeWhile (· == 0)).length
  let (low, k) := if x.sum = 0 then (0, 0) else
    let up := wrap (xaBits f) x.sum
    let ext := if x.sum < 0 then (0xFF : Byte) else 0
    let top := (b.reverse.takeWhile (· == ext)).length
    let k := n - top - low
    let last := bits up (8 * (n - top) - 1) (8 * (n - top) - 1)
    (low, if k = 0 ∨ (last == 1) != decide (x.sum < 0) then k + 1 else k)
  let hdr := if f = .xa2176 then le 1 x.flags ++ [0] ++ le 2 low ++ le 2 k else le 1 x.flags ++ le 1 low ++ le 1 k ++ [0]
  hdr ++ slice (b.drop low) 0 k

/-- The XA that a packed form at the start of `b` holds, with its length; none where it is cut short or not in the
shortest form. -/
def unpackXa (f : Fmt) (b : Bytes) : Option (Xa × Nat) :=
  let wide := f = .xa2176
  let h := if wide then 6 else 4
  let low := if wide then fld b 2 2 else fld b 1 1
  let k := if wide then fld b 4 2 else fld b 2 1
  if b.length < h + k ∨ xaBits f / 8 < low + k then none else
  let x : Xa := ⟨if k = 0 then 0 else sext (8 * k) (fld b h k) * (2 ^ (8 * low) : Nat), fld b 0 1 % 8⟩
  if packXa f x = b.take (h + k) then some (x, h + k) else none

/-- Entry of a tagged record. -/
def tagged (src idx : Nat) (r : Bytes) : Bytes := le 4 src ++ le 4 idx ++ r

/-- The length of entry `i` of a contribution: from a child node a partial entry, from a rank an element or record.
`none` where it is a packed XA. -/
def contribLen (p : Bytes) (node : Bool) : Option Nat :=
  let n := elemBytes (progIn p)
  match progOp p with
  | 1 => if node && !progFast p then none else some n
  | 4 => some (if node then 8 else progRec p)
  | 6 => some n
  | 2 => some (if node then n + 4 else n)
  | 3 => some (if node then n + 4 else n)
  | _ => some (if node then progRec p + 8 else progRec p)

/-- The length of entry `i` of a result of `count` elements. -/
def resultLen (p : Bytes) (count i : Nat) : Nat :=
  match progOp p with
  | 1 => elemBytes (progOut p)
  | 4 => 8
  | 6 => elemBytes (progIn p)
  | 2 => if count ≤ i then 4 else elemBytes (progIn p)
  | 3 => if count ≤ i then 4 else elemBytes (progIn p)
  | _ => progRec p + 8

/-- `n` entries cut from a payload by their lengths; none where they are not whole. -/
def cutEntries (len : Nat → Bytes → Option Nat) : Nat → Nat → Bytes → Option (List Bytes)
  | 0, _, b => if b.isEmpty then some [] else none
  | n + 1, i, b =>
    match len i b with
    | none => none
    | some k => if b.length < k then none else (cutEntries len n (i + 1) (b.drop k)).map (fun r => b.take k :: r)

/-- The entries of a CONTRIB packet. -/
def contribEntries (p : Bytes) (node : Bool) (n : Nat) (b : Bytes) : Option (List Bytes) :=
  cutEntries (fun _ b => match contribLen p node with
    | some k => some k
    | none => (unpackXa (progXa p) b).map (·.2)) n 0 b

/-! ## Partials (R426) -/

/-- An input's entries in order of their index. -/
def ColGot.list (g : ColGot) : List Bytes := g.entries.map (·.2)

/-- Whether everything of an input has come. -/
def ColGot.ended (g : ColGot) : Bool :=
  (g.fail != (0 : Status)) || (match g.total with
    | some n => g.entries.length == n
    | none => false)

def ColGot.fresh : ColGot := ⟨[], none, 0, 0⟩

/-- A contribution of the input turned into partial entries. -/
def toPartial (p : Bytes) (x : ColInput) (l : List Bytes) : List Bytes :=
  if x.kind = 2 then l else
  let f := progIn p
  match progOp p with
  | 1 => if progFast p then l else l.map (fun b => packXa (progXa p) (Xa.add (progXa p) Xa.zero (decode f (unle b))))
  | 2 => l.map (fun b => b ++ le 4 x.lo)
  | 3 => l.map (fun b => b ++ le 4 x.lo)
  | 4 => [le 8 (l.filter (predPass p)).length]
  | 6 => l
  | 8 => ((List.range l.length).zip l).filterMap (fun e => if predPass p e.2 then some (tagged x.lo e.1 e.2) else none)
  | _ => ((List.range l.length).zip l).map (fun e => tagged x.lo e.1 e.2)

/-- The winner of two MIN or MAX entries. -/
def winner (p : Bytes) (a b : Bytes) : Bytes :=
  let f := progIn p
  let n := elemBytes f
  let ka := ordKey f (fld a 0 n)
  let kb := ordKey f (fld b 0 n)
  if ka = kb then (if fld b n 4 < fld a n 4 then b else a)
  else if (progOp p = 2) = (ka < kb) then a else b

/-- Whether one tagged record comes before another in the result. -/
def tagBefore (a b : Bytes) : Bool := fld a 0 4 < fld b 0 4 || (fld a 0 4 == fld b 0 4 && fld a 4 4 ≤ fld b 4 4)

def sortBefore (p a b : Bytes) : Bool :=
  let f := (fmtOf (fld p 0xA 1)).getD .uint8
  let k := fun (x : Bytes) => ordKey f (fld x (8 + fld p 8 2) (elemBytes f))
  if k a = k b then tagBefore a b else if progDescend p then k b < k a else k a < k b

/-- Two partials of one instance combined. -/
def combine (p : Bytes) (a b : List Bytes) : List Bytes :=
  match progOp p with
  | 1 =>
    if progFast p then List.zipWith (fun x y => le 8 (addF fp64 (unle x) (unle y)).val) a b
    else List.zipWith (fun x y => match unpackXa (progXa p) x, unpackXa (progXa p) y with
      | some u, some v => packXa (progXa p) (Xa.join u.1 v.1)
      | _, _ => x) a b
  | 2 => List.zipWith (winner p) a b
  | 3 => List.zipWith (winner p) a b
  | 4 => [le 8 (fld (a.headD []) 0 8 + fld (b.headD []) 0 8)]
  | 6 => a ++ b
  | 7 => (List.merge a b (sortBefore p)).take (progOutMax p)
  | _ => List.merge a b tagBefore

/-- What one input's entries make in the order of the operation. -/
def arranged (p : Bytes) (l : List Bytes) : List Bytes :=
  if progOp p = 7 then (l.mergeSort (sortBefore p)).take (progOutMax p) else l

/-- The partial of a group's inputs taken in `order`. -/
def partialOf (p : Bytes) (g : ColGroup) (r : ColRun) (order : List Nat) : List Bytes :=
  let one := fun i => match g.inputs[i]?, r.ins[i]? with
    | some x, some y => arranged p (toPartial p x y.list)
    | _, _ => []
  match order with
  | [] => []
  | i :: rest => rest.foldl (fun acc j => combine p acc (one j)) (one i)

/-- The result that the root makes of its partial, with its sticky flags (R423, R425). -/
def resultOf (p : Bytes) (l : List Bytes) : List Bytes × Nat :=
  let f := progIn p
  let n := elemBytes f
  match progOp p with
  | 1 =>
    if progFast p then (l, 0) else
    let o := progOut p
    l.foldl (fun (acc : List Bytes × Nat) b =>
      match unpackXa (progXa p) b with
      | none => acc
      | some (x, _) =>
        if o = progXa p then (acc.1 ++ [le (elemBytes o) (x.toBits o)], acc.2) else
        let c := convertXa o (x.val (progXa p))
        (acc.1 ++ [le (elemBytes o) c.val], acc.2 ||| c.fl)) ([], 0)
  | 2 => (l.map (fun b => le n (canonOf f (fld b 0 n))) ++ (if progArg p then l.map (fun b => slice b n 4) else []), 0)
  | 3 => (l.map (fun b => le n (canonOf f (fld b 0 n))) ++ (if progArg p then l.map (fun b => slice b n 4) else []), 0)
  | _ => (l, 0)

/-- What of the result goes to ranks `lo` to `hi` (R423, R425); `base` is the first rank of the portion that the node
itself holds. -/
def portion (p : Bytes) (g : ColGroup) (base lo hi : Nat) (l : List Bytes) : List Bytes :=
  if g.rootOnly && !(lo ≤ g.root && g.root ≤ hi) then []
  else if progOp p = 6 then
    let at_ := fun r => r * g.count / g.ranks
    (l.drop (at_ lo - at_ base)).take (at_ (hi + 1) - at_ lo)
  else l

/-- The result as a local rank's buffer holds it: elements packed under R276. -/
def resultBytes (p : Bytes) (count : Nat) (l : List Bytes) : Bytes :=
  match progOp p with
  | 1 => packRow (progOut p) (l.map unle)
  | 6 => packRow (progIn p) (l.map unle)
  | 2 => packRow (progIn p) ((l.take count).map unle) ++ (l.drop count).flatten
  | 3 => packRow (progIn p) ((l.take count).map unle) ++ (l.drop count).flatten
  | _ => l.flatten

/-! ## Groups -/

def Dev.modCol (d : Dev) (f : Col → Col) : Dev := { d with col := f d.col }
def Dev.grp (d : Dev) (g : Nat) : Option ColGroup := Map.find d.col.groups g

/-- The group's registers follow its state (R440). -/
def Dev.setGrp (d : Dev) (g : Nat) (x : ColGroup) : Dev :=
  let d := d.modCol (fun c => { c with groups := Map.insert c.groups g x })
  let d := (d.set (R.COL_GRP_STATE_INFLIGHT g) (x.runs.length - 1)).set (R.COL_GRP_STATE_STALLED g) (b2n (x.runs.any (·.stalled)))
  d.setWord (R.COL_GRP_SEQ g) (BitVec.ofNat 64 x.next)

/-- The program of a group. -/
def Dev.progOf (d : Dev) (x : ColGroup) : Bytes := d.tabRec x.fn x.program

/-- The timer of an instance. -/
def colTimer (g seq : Nat) : Timer := .colMove (4 * g + seq % 4)

def ColGroup.run (x : ColGroup) (seq : Nat) : Option ColRun := x.runs.find? (fun r => r.seq = seq)

def ColGroup.setRun (x : ColGroup) (r : ColRun) : ColGroup := { x with runs := x.runs.map (fun y => if y.seq = r.seq then r else y) }

/-- Progress of an instance: its timer starts again and it is not stalled (R438). -/
def Dev.colProgress (d : Dev) (g seq : Nat) : Dev :=
  match d.grp g with
  | none => d
  | some x => (d.setGrp g { x with runs := x.runs.map (fun r => if r.seq = seq then { r with stalled := false } else r) }).arm
      (colTimer g seq) (us x.timeoutUs)

/-- The instance of a SEQ begun with its token, where it is not yet in progress (R418, R437). -/
def Dev.colBegin (d : Dev) (g : Nat) (x : ColGroup) (seq : Nat) : Dev :=
  if (x.run seq).isSome then d else
  let r : ColRun := ⟨seq, x.inputs.map (fun _ => ColGot.fresh), [], false, ColGot.fresh, false⟩
  (d.setGrp g { x with runs := x.runs.filter (fun y => y.seq < seq) ++ [r] ++ x.runs.filter (fun y => seq < y.seq) }).issue
    (poolNo 7 x.fn) 1

/-! ## Sending -/

/-- A collective header (R429). -/
def colHeader (kind : Nat) (last : Bool) (group gen status seq lo hi off count sflags : Nat) : Bytes :=
  le 1 kind ++ le 1 (b2n last) ++ le 2 group ++ le 2 gen ++ le 2 status ++ le 8 seq ++ le 4 lo ++ le 4 hi ++ le 4 off
    ++ le 2 count ++ le 2 sflags

/-- Entries in packets of at most 4,064 bytes each: first index and entries; at least one packet. -/
def colPackets (l : List Bytes) : List (Nat × List Bytes) :=
  let step := fun (acc : List (Nat × List Bytes) × Nat) (b : Bytes) =>
    match acc.1 with
    | [] => ([(0, [b])], acc.2 + 1)
    | (o, x) :: r =>
      if (x.foldl (fun n e => n + e.length) 0) + b.length ≤ 4064 then ((o, x ++ [b]) :: r, acc.2 + 1)
      else ((acc.2, [b]) :: (o, x) :: r, acc.2 + 1)
  let ps := (l.foldl step ([], 0)).1
  if ps.isEmpty then [(0, [])] else ps.reverse

/-- COL sends nothing while the node is self-fenced (R481). -/
def Dev.colSend (d : Dev) (g : Nat) (x : ColGroup) (dst : Nat) (payload : Bytes) : Dev :=
  if d.has R.LGR_STATUS_SELF_FENCED then d else d.originate dst 2 x.tc g payload

def Dev.colSendAll (d : Dev) (g : Nat) (x : ColGroup) (dst kind group seq lo hi sflags : Nat) (l : List Bytes) : Dev :=
  let ps := colPackets l
  ((List.range ps.length).zip ps).foldl (fun d e =>
    d.colSend g x dst (colHeader kind (e.1 + 1 == ps.length) group x.gen 0 seq lo hi e.2.1 e.2.2.length sflags
      ++ e.2.2.flatten)) d

def Dev.colSendFail (d : Dev) (g : Nat) (x : ColGroup) (dst group seq lo hi : Nat) (st : Status) : Dev :=
  d.colSend g x dst (colHeader 3 true group x.gen st.toNat seq lo hi 0 0 0)

/-! ## Delivery (R425, R432, R437) -/

/-- A local rank gets its outcome: the result, then RESULT_LEN, STATUS and SFLAGS, then DONE_SEQ. -/
def Dev.colLocal (d : Dev) (p : Bytes) (x : ColGroup) (y : ColInput) (seq : Nat) (st : Status) (sflags : Nat) (l : List Bytes) : Dev :=
  let c := y.ctrl
  if seq ≠ 0 ∧ seq ≤ d.readLe (c + 0x38) 8 then d.inc R.COL_DISC_DUPLICATES else
  let out := d.readLe (c + 0x18) 8
  let room := d.readLe (c + 0x20) 8
  let b := if st = 0 then resultBytes p x.count l else []
  let st := if st ≠ 0 then st
    else if room = 2 ^ 64 - 1 then St.lengthReserved
    else if room < b.length then St.lengthExceedsBuffer
    else if b.isEmpty then St.ok
    else d.bufCheck x.fn out b.length true
  let d := if st = 0 then d.write (out % 2 ^ 52) b else d
  let d := d.write (c + 0x28) (le 8 (if st = 0 then b.length else 0) ++ le 2 st.toNat ++ le 2 (if st = 0 then sflags else 0))
  d.write (c + 0x38) (le 8 seq)

/-- The outcome of an instance goes to every input of the node. -/
def Dev.colDeliver (d : Dev) (p : Bytes) (g : Nat) (x : ColGroup) (seq : Nat) (st : Status) (sflags : Nat) (l : List Bytes) : Dev :=
  x.inputs.foldl (fun d y =>
    let mine := if st = 0 then portion p x x.lo y.lo y.hi l else []
    if y.kind = 1 then d.colLocal p x y seq st sflags mine
    else if st = 0 then d.colSendAll g x y.node 2 y.group seq y.lo y.hi sflags mine
    else d.colSendFail g x y.node y.group seq y.lo y.hi st) d

/-- An instance completes with a status. -/
def Dev.colComplete (d : Dev) (g : Nat) (x : ColGroup) (seq : Nat) (st : Status) (sflags : Nat) (l : List Bytes) : Dev :=
  let d := d.colDeliver (d.progOf x) g x seq st sflags l
  let d := (d.retire (poolNo 7 x.fn) 1).disarm (colTimer g seq)
  let d := d.setGrp g { x with
    next := seq + 1
    runs := x.runs.filter (fun r => r.seq ≠ seq) }
  if st = 0 then d.inc (R.COL_GRP_COUNTS_COMPLETED g)
  else (d.inc (R.COL_GRP_COUNTS_FAILED g)).setSt (R.COL_GRP_STATE_STATUS g) st

/-! ## Progress of an instance -/

/-- The status of an input whose contribution has come whole: R430. -/
def inputStatus (p : Bytes) (x : ColGroup) (y : ColInput) (n : Nat) : Status :=
  let op := progOp p
  if op = 1 ∨ op = 2 ∨ op = 3 then (if n = x.count then 0 else St.colShapeMismatch)
  else if op = 6 then
    (if y.lo ≤ x.root ∧ x.root ≤ y.hi then (if n = x.count then 0 else St.colShapeMismatch)
     else if n = 0 then 0 else St.colShapeMismatch)
  else if y.kind ≠ 2 ∧ x.count < n then St.lengthExceedsBuffer
  else 0

/-- The failure of an instance whose inputs have all ended: that of the failing range of lowest RANK_LO. -/
def inputsFail (p : Bytes) (x : ColGroup) (r : ColRun) : Status :=
  (((x.inputs.zip r.ins).map (fun e =>
    if e.2.fail ≠ 0 then e.2.fail else inputStatus p x e.1 e.2.entries.length)).find? (· != 0)).getD 0

/-- The bytes of a list of entries. -/
def bytesOf (l : List Bytes) : Nat := l.foldl (fun n b => n + b.length) 0

/-- The outcome of an instance once every input has ended: a status, or the partial (R430, R431, R434). -/
def Dev.colOutcome (d : Dev) (x : ColGroup) (r : ColRun) : Status × List Bytes :=
  let p := d.progOf x
  let st := inputsFail p x r
  if st ≠ 0 then (st, []) else
  let l := partialOf p x r (if progFast p then r.order else List.range x.inputs.length)
  if x.workBytes < bytesOf l then (St.lengthExceedsBuffer, []) else (0, l)

/-- An instance moved on: the partial goes up once every input has ended; the root's result, or the parent's, is
delivered in ascending SEQ. `n` bounds how many instances this completes. -/
def Dev.colMove (d : Dev) (g : Nat) : Nat → Dev
  | 0 => d
  | n + 1 =>
    match d.grp g with
    | none => d
    | some x =>
      let root := x.parentNode == 0xFFF
      let p := d.progOf x
      match x.runs.find? (fun r => !root && !r.up && r.ins.all (·.ended)) with
      | some r =>
        let (st, l) := d.colOutcome x r
        let d := d.setGrp g (x.setRun { r with up := true })
        (if st = 0 then d.colSendAll g x x.parentNode 1 x.parentGroup r.seq x.lo x.hi 0 l
         else d.colSendFail g x x.parentNode x.parentGroup r.seq x.lo x.hi st).colMove g n
      | none =>
        match x.run x.next with
        | none => d
        | some r =>
          if root then
            if !r.ins.all (·.ended) then d else
            let (st, l) := d.colOutcome x r
            let (res, fl) := if st = 0 then resultOf p l else ([], 0)
            if st ≠ 0 then (d.colComplete g x r.seq st 0 []).colMove g n
            else if x.workBytes < bytesOf res then (d.colComplete g x r.seq St.lengthExceedsBuffer 0 []).colMove g n
            else (d.colComplete g x r.seq 0 fl res).colMove g n
          else if !r.res.ended then d
          else if r.res.fail ≠ 0 then (d.colComplete g x r.seq r.res.fail 0 []).colMove g n
          else if x.workBytes < bytesOf r.res.list then (d.colComplete g x r.seq St.lengthExceedsBuffer 0 []).colMove g n
          else (d.colComplete g x r.seq 0 r.res.flags r.res.list).colMove g n

/-- Input `i` of an instance changed; the instance moves on. -/
def Dev.colInput (d : Dev) (g seq i : Nat) (f : ColGot → ColGot) : Dev :=
  match d.grp g with
  | none => d
  | some x =>
    let d := d.colBegin g x seq
    match (d.grp g).getD x, ((d.grp g).getD x).run seq with
    | x, some r =>
      let ins := modNth r.ins i f
      let order := if (ins[i]?.map (·.ended)).getD false && !r.order.contains i then r.order ++ [i] else r.order
      let d := (d.setGrp g (x.setRun { r with
        ins := ins
        order := order })).colProgress g seq
      d.colMove g 12
    | _, none => d

/-! ## Received packets (R429) -/

/-- The node's own range, sent by its parent. -/
def fromParent (x : ColGroup) (m : RxPkt) : Bool :=
  x.parentNode != 0xFFF && m.src == x.parentNode && fld m.payload 0x10 4 == x.lo && fld m.payload 0x14 4 == x.hi

/-- The input whose range is exactly RANK_LO to RANK_HI. -/
def inputOf (x : ColGroup) (m : RxPkt) : Option Nat :=
  x.inputs.findIdx? (fun y => y.lo == fld m.payload 0x10 4 && y.hi == fld m.payload 0x14 4)

/-- More entries taken in. -/
def ColGot.take (a : ColGot) (off : Nat) (l : List Bytes) (last : Bool) (flags : Nat) : ColGot :=
  { a with
    entries := ((List.range l.length).zip l).foldl (fun m e => Map.insert m (off + e.1) e.2) a.entries
    total := if last then some (off + l.length) else a.total
    flags := flags }

/-- Whether entries at an offset, or the end of the list, have been received already (R429 row 5). -/
def ColGot.seen (a : ColGot) (off n : Nat) (last : Bool) : Bool :=
  (a.fail != (0 : Status)) || a.entries.any (fun e => off ≤ e.1 && e.1 < off + n) || (n == 0 && (a.total.isSome || !last))

/-- Whether entries contradict the end already told, or this packet's own. -/
def ColGot.clash (a : ColGot) (off n : Nat) (last : Bool) : Bool :=
  (match a.total with
    | some t => t < off + n || last
    | none => false) || (last && a.entries.any (fun e => off + n ≤ e.1))

/-- A packet delivered to COL checked in the order of R429 and taken in. -/
def Dev.colPacket (d : Dev) (m : RxPkt) : Dev :=
  let b := m.payload
  let kind := fld b 0 1
  let flags := fld b 1 1
  let g := fld b 2 2
  let st := fld b 6 2
  let seq := fld b 8 8
  let off := fld b 0x18 4
  let n := fld b 0x1C 2
  let last := flags.testBit 0
  let bad := d.inc R.COL_DISC_BAD
  match d.grp g with
  | none => bad
  | some x =>
    let p := d.progOf x
    let up := kind = 2 || (kind == 3 && fromParent x m)
    let inp := inputOf x m
    let node := ((inp.bind (fun i => x.inputs[i]?)).map (fun y => y.kind == 2)).getD false
    let body := b.drop 32
    let es := if kind = 3 then (if body.isEmpty ∧ n = 0 then some [] else none)
      else if kind = 2 then cutEntries (fun i _ => some (resultLen p x.count (off + i))) n 0 body
      else contribEntries p node n body
    if b.length < 32 ∨ 1 < flags ∨ (kind ≠ 3 ∧ st ≠ 0) ∨ (kind = 3 ∧ st = 0) ∨ (kind ≠ 2 ∧ fld b 0x1E 2 ≠ 0) ∨ 4096 ≤ g
        ∨ 4096 < b.length then bad
    else match es with
    | none => if fld b 4 2 < x.gen ∧ inp.isNone then d.inc R.COL_DISC_STALE else bad
    | some es =>
      if fld b 4 2 < x.gen then d.inc R.COL_DISC_STALE
      else if kind = 2 ∧ !fromParent x m then bad
      else if !up ∧ (inp.isNone ∨ (inp.bind (fun i => x.inputs[i]?)).map (fun y => y.kind) = some 1) then bad
      else if x.next + 4 ≤ seq then d.inc R.COL_DISC_AHEAD
      else if seq < x.next then d.inc R.COL_DISC_DUPLICATES
      else
        let cur := (x.run seq).getD ⟨seq, [], [], false, ColGot.fresh, false⟩
        let i := inp.getD 0
        let got := if up then cur.res else cur.ins.getD i ColGot.fresh
        if got.seen off n last && !(kind == 3 && got.fail == (0 : Status) && !got.ended) then d.inc R.COL_DISC_DUPLICATES
        else if kind ≠ 3 && got.clash off n last then bad
        else
          let upd := fun (a : ColGot) =>
            if kind = 3 then { a with fail := BitVec.ofNat 16 st } else a.take off es last (fld b 0x1E 2)
          if !up then d.colInput g seq i upd
          else
            let d := d.colBegin g x seq
            match d.grp g with
            | none => d
            | some x =>
              match x.run seq with
              | none => d
              | some r => ((d.setGrp g (x.setRun { r with res := upd r.res })).colProgress g seq).colMove g 12

/-- The oldest packet delivered to COL, where its KIND is `kind`; packets of unknown KIND ahead of it are discarded as
BAD. -/
def Dev.colTake (d : Dev) (kind : Nat) : Dev :=
  let known := fun (m : RxPkt) => 1 ≤ fld m.payload 0 1 && fld m.payload 0 1 ≤ 3
  let junk := d.fab.colRx.takeWhile (fun m => !known m)
  let rest := d.fab.colRx.drop junk.length
  let d := ({ d with fab := { d.fab with colRx := rest } }).add R.COL_DISC_BAD junk.length
  match rest with
  | [] => d
  | m :: r =>
    if fld m.payload 0 1 ≠ kind then d else
    ({ d with fab := { d.fab with colRx := r } }).colPacket m

def execContrib (s : State) : Host.Outcome State Fault Refusal := s.act .engine (fun d => d.colTake 1)
def execResult (s : State) : Host.Outcome State Fault Refusal := s.act .engine (fun d => d.colTake 2)
def execFail (s : State) : Host.Outcome State Fault Refusal := s.act .engine (fun d => d.colTake 3)

/-! ## Local contributions (R432) -/

/-- The SEQ that an input awaits next. -/
def awaited (x : ColGroup) (i : Nat) : Nat :=
  x.next + ((List.range 4).takeWhile (fun k =>
    match x.run (x.next + k) with
    | some r => (r.ins.getD i ColGot.fresh).ended
    | none => false)).length

/-- The contribution in a control block: its entries, or a status. -/
def Dev.colRead (d : Dev) (p : Bytes) (x : ColGroup) (y : ColInput) : Status × List Bytes :=
  let a := d.readLe (y.ctrl + 8) 8
  let n := d.readLe (y.ctrl + 0x10) 4
  let list := listOp (progOp p)
  if n = 2 ^ 32 - 1 then (St.lengthReserved, [])
  else if list ∧ x.count < n then (St.lengthExceedsBuffer, [])
  else if !list ∧ x.count < n then (St.colShapeMismatch, [])
  else
    let len := if list then n * progRec p else rowBytes (progIn p) n
    let st := if len = 0 then St.ok else d.bufCheck x.fn a len false
    if st ≠ 0 then (st, []) else
    let b := d.read (a % 2 ^ 52) len
    (0, if list then chunks (progRec p) b
        else (List.range n).map (fun k => le (elemBytes (progIn p)) (elemAt (progIn p) b k)))

/-- COL looks at READY_SEQ of a local input. -/
def Dev.colReady (d : Dev) (g i : Nat) : Dev :=
  match d.grp g with
  | none => d
  | some x =>
    match x.inputs[i]? with
    | none => d
    | some y =>
      if y.kind ≠ 1 then d else
      let ready := d.readLe y.ctrl 8
      let want := awaited x i
      if want < ready then d.inc R.COL_DISC_AHEAD
      else if ready ≠ want ∨ x.next + 4 ≤ want then d
      else
        let (st, l) := d.colRead (d.progOf x) x y
        d.colInput g want i (fun a => if st ≠ 0 then { a with fail := st } else a.take 0 l true 0)

def execLocalContributionReady (grp : Fin 4096) (input : Nat) (s : State) : Host.Outcome State Fault Refusal :=
  s.act .engine (fun d => d.colReady grp input)

/-! ## Groups installed and removed (R435 to R437, R439) -/

/-- Input entry `i` of the group record at `a`. -/
def Dev.grpInput (d : Dev) (a i : Nat) : ColInput :=
  let e := a + 64 + 32 * i
  ⟨d.readLe e 1, d.readLe (e + 2) 2, d.readLe (e + 4) 2, d.readLe (e + 8) 4, d.readLe (e + 0xC) 4, d.readLe (e + 0x10) 8⟩

/-- The group record at `a`. -/
def Dev.grpRecord (d : Dev) (a : Nat) : ColGroup :=
  { fn := d.readLe a 1, program := d.readLe (a + 2) 2, gen := d.readLe (a + 4) 2, tc := d.readLe (a + 6) 1,
    rootOnly := (d.readLe (a + 7) 1).testBit 0, ranks := d.readLe (a + 8) 4, root := d.readLe (a + 0xC) 4,
    lo := d.readLe (a + 0x10) 4, hi := d.readLe (a + 0x14) 4, parentNode := d.readLe (a + 0x18) 2,
    parentGroup := d.readLe (a + 0x1A) 2, count := d.readLe (a + 0x1C) 4, workBase := d.readLe (a + 0x20) 8,
    workBytes := d.readLe (a + 0x28) 8, timeoutUs := d.readLe (a + 0x30) 4,
    inputs := (List.range (d.readLe (a + 1) 1)).map (d.grpInput a), next := 0, runs := [] }

/-- Whether a GTC data region of a function holds the bytes. -/
def Dev.inData (d : Dev) (f a n : Nat) : Bool := (d.img f).regions.any (fun r => r.kind = 4 && r.holds a n)

/-- Ranges tile `lo` to `hi` in ascending order. -/
def tiles : List ColInput → Nat → Nat → Bool
  | [], lo, hi => lo == hi + 1
  | x :: r, lo, hi => x.lo == lo && x.lo ≤ x.hi && tiles r (x.hi + 1) hi

/-- Whether an input entry keeps R435. -/
def Dev.inputWf (d : Dev) (f e : Nat) (x : ColInput) : Bool :=
  d.readLe (e + 1) 1 == 0 && d.readLe (e + 6) 2 == 0 && d.readLe (e + 0x18) 8 == 0 &&
  (match x.kind with
    | 1 => x.node == 0xFFF && x.group == 0 && x.lo == x.hi && x.ctrl % 64 == 0 && d.inData f x.ctrl 64
    | 2 => x.node < 0xFFF && x.node != d.node && x.group < 4096 && x.ctrl == 0
    | 3 => x.node < 0xFFF && x.node != d.node && x.lo == x.hi && x.ctrl == 0
    | _ => false)

/-- Whether the record at `a` keeps R435, for group `g`. -/
def Dev.grpWf (d : Dev) (g a : Nat) : Bool :=
  let x := d.grpRecord a
  let i := d.img x.fn
  let n := x.inputs.length
  (match i.region 2 with
    | some r => r.holds a (64 + 32 * n)
    | none => false) &&
  1 ≤ n && n ≤ 16 && (fld (d.tabRec x.fn x.program) 0 1 == 0x10) && 1 ≤ x.gen &&
  x.tc < 32 && i.tcMask.testBit x.tc && !(d.fab.vl (d.fab.vlOf x.tc)).lossy && d.readLe (a + 7) 1 < 2 &&
  1 ≤ x.ranks && x.ranks ≤ 65536 && x.root < x.ranks && x.lo ≤ x.hi && x.hi < x.ranks && x.parentNode ≤ 0xFFF &&
  (if x.parentNode = 0xFFF then x.parentGroup == 0 && x.lo == 0 && x.hi + 1 == x.ranks else x.parentGroup < 4096) &&
  1 ≤ x.count && x.count ≤ 16777216 && x.workBase % 4096 == 0 && x.workBytes % 4096 == 0 && 65536 ≤ x.workBytes &&
  d.inData x.fn x.workBase x.workBytes && 1 ≤ x.timeoutUs && x.timeoutUs ≤ 10000000 && allZero (d.read (a + 0x34) 12) &&
  tiles x.inputs x.lo x.hi && ((List.range n).zip x.inputs).all (fun e => d.inputWf x.fn (a + 64 + 32 * e.1) e.2) &&
  d.col.groups.all (fun e => e.1 == g || x.workBase + x.workBytes ≤ e.2.workBase || e.2.workBase + e.2.workBytes ≤ x.workBase)

/-- The checks of R436 from the record on: 0 where it passes. -/
def Dev.grpCheck (d : Dev) (g a : Nat) : Status :=
  let x := d.grpRecord a
  if 16 ≤ x.fn ∨ !d.loaded x.fn then St.functionNotLoaded
  else if (d.img x.fn).colLanes = 0 ∨ !d.grpWf g a then St.colGroupInvalid
  else match d.grp g with
    | some old => if old.fn ≠ x.fn ∨ x.gen ≤ old.gen then St.groupState else 0
    | none => 0

/-- A GO of COL_GRP_CMD (R436). -/
def Dev.colGo (d : Dev) (op g : Nat) : Dev :=
  let d := (d.set R.COL_GRP_CMD_OP op).set R.COL_GRP_CMD_GROUP g
  let a := 64 * d.get R.COL_GRP_ADDR_ADDR
  let tick := (d.word R.COL_GRP_TICK).toNat
  let end_ := fun (st : Status) => (d.setSt R.COL_GRP_CMD_STATUS st).set R.COL_GRP_CMD_DONE 1
  if d.fatal then end_ St.deviceFatal
  else if op ≠ 1 ∧ op ≠ 2 then end_ St.opInvalid
  else if d.has R.COL_GRP_CMD_PENDING then end_ St.requestPending
  else if tick ≠ 0 ∧ tick ≤ (d.word R.SEQ_TICK).toNat then end_ St.tickPassed
  else
    let st := if op = 1 then d.grpCheck g a else 0
    if st ≠ 0 then end_ st
    else ((d.setSt R.COL_GRP_CMD_STATUS 0).set R.COL_GRP_CMD_PENDING 1).modCol (fun c => { c with cmd := some ⟨op, g, a, tick⟩ })

def execInstall (grp : Fin 4096) (s : State) : Host.Outcome State Fault Refusal :=
  s.act .live (fun d => (d.colGo 1 grp).reply St.ok)

def execRemove (grp : Fin 4096) (s : State) : Host.Outcome State Fault Refusal :=
  s.act .live (fun d => (d.colGo 2 grp).reply St.ok)

def execColCmdInvalid (grp : Fin 4096) (three : Bool) (s : State) : Host.Outcome State Fault Refusal :=
  s.act .live (fun d => (d.colGo (if three then 3 else 0) grp).reply St.ok)

/-- Every instance in progress on a group is discarded: its token retired once, and FAIL sent to the REMOTE inputs
(R437, R439). The lowest discarded SEQ is the next one. -/
def Dev.colDiscard (d : Dev) (g : Nat) (st : Status) : Dev :=
  match d.grp g with
  | none => d
  | some x =>
    let d := x.runs.foldl (fun d r =>
      let d := ((d.retire (poolNo 7 x.fn) 1).disarm (colTimer g r.seq)).inc (R.COL_GRP_COUNTS_DISCARDED g)
      x.inputs.foldl (fun d y => if y.kind = 3 then d.colSendFail g x y.node y.group r.seq y.lo y.hi st else d) d) d
    d.setGrp g { x with
      next := (x.runs.map (·.seq)).headD x.next
      runs := [] }

/-- A group is no longer installed. -/
def Dev.colDrop (d : Dev) (g : Nat) (st : Status) : Dev :=
  if (d.grp g).isNone then d else
  let d := (d.colDiscard g st).modCol (fun c => { c with groups := Map.erase c.groups g })
  let d := ((d.set (R.COL_GRP_STATE_INSTALLED g) 0).set (R.COL_GRP_STATE_GEN g) 0).set (R.COL_GRP_STATE_FUNCTION g) 0
  ((d.set (R.COL_GRP_STATE_INFLIGHT g) 0).set (R.COL_GRP_STATE_STALLED g) 0).setWord (R.COL_GRP_SEQ g) 0

/-- The commit of a group command. -/
def Dev.colCommit (d : Dev) (c : ColCmd) : Dev :=
  let d := ((d.modCol (fun x => { x with cmd := none })).set R.COL_GRP_CMD_PENDING 0).set R.COL_GRP_CMD_DONE 1
  if c.op = 2 then d.colDrop c.group St.colRegrouped else
  let st := d.grpCheck c.group c.addr
  if st ≠ 0 then d.setSt R.COL_GRP_CMD_STATUS st else
  let d := d.colDiscard c.group St.colRegrouped
  let x := { d.grpRecord c.addr with next := ((d.grp c.group).map (fun y => y.next)).getD 0 }
  let d := (d.setGrp c.group x).set (R.COL_GRP_STATE_INSTALLED c.group) 1
  (d.set (R.COL_GRP_STATE_GEN c.group) x.gen).set (R.COL_GRP_STATE_FUNCTION c.group) x.fn

/-- What COL does at device tick `n`. -/
def Dev.colTick (d : Dev) (n : Nat) : Dev :=
  match d.col.cmd with
  | none => d
  | some c => if c.tick = 0 ∨ c.tick ≤ n then d.colCommit c else d

/-- The groups of a function. -/
def Dev.colGroups (d : Dev) (f : Nat) : List Nat := (d.col.groups.filter (fun e => e.2.fn = f)).map (·.1)

/-- KILL of the owning function (R439). -/
def Dev.colKill (d : Dev) (f : Nat) : Dev := (d.colGroups f).foldl (fun d g => d.colDiscard g St.functionStopped) d

/-- Unload or change of the owning function (R439). -/
def Dev.colRemove (d : Dev) (f : Nat) : Dev := (d.colGroups f).foldl (fun d g => d.colDrop g St.functionStopped) d

/-- COL_INSTANCE_TIMEOUT (R438): TIMEOUT_US without progress. -/
def Dev.colTimeout (d : Dev) (g : Nat) : Dev :=
  match d.grp g with
  | none => d
  | some x =>
    let late := x.runs.filter (fun r => d.expired (colTimer g r.seq))
    if late.isEmpty then d else
    let d := late.foldl (fun d r => d.disarm (colTimer g r.seq)) d
    let d := d.setGrp g { x with runs := x.runs.map (fun r => if late.any (fun y => y.seq = r.seq) then { r with stalled := true } else r) }
    d.report x.fn 0x0B St.timeout g

def execColInstanceTimeout (grp : Fin 4096) (s : State) : Host.Outcome State Fault Refusal :=
  s.act .engine (fun d => d.colTimeout grp)

end Sys2Proof.Machine
end

