-- ==== Sys2Proof/Machine/FabCmd.lean ====
section
/-! DEFINITION. The commands of the fabric ports and links (spec 13) and of traffic scheduling (spec 15).
NODE_ID_WRITE and FENCE_WRITE stand with the recovery actions, in Recovery.lean. -/

namespace Sys2Proof.Machine

/-- PORT_LANE_LOCK (R358): every lane of a training port locks. A GF port goes to INIT with fresh link-layer
state, from RETRAIN back to UP with everything unacknowledged sent again; an Ethernet port goes to UP. -/
def Dev.laneLock (d : Dev) (p : Nat) : Dev :=
  if !d.isPort p then d else
  match d.pstate p with
  | 1 => if d.isEth p then d.enterUp p else d.enterInit p
  | 5 => if (d.link p).attempt then (if d.isEth p then d.enterUp p else d.enterInit p).disarm (.down p) else d
  | 4 => if d.expired (.retrain p) then d else ((d.disarm (.retrain p)).enterUp p).resend p
  | _ => d

def execPortLaneLock (p : PortId) (s : State) : Host.Outcome State Fault Refusal :=
  s.act .engine (fun d => d.laneLock p)

/-- Whether a received DATA frame's header is well formed (R351). -/
def dataWf (f : Bytes) : Bool :=
  let n := f.length
  n % 64 == 0 && 64 ≤ n && n ≤ 65 * 64 && fld f 0 1 == 1 && fld f 1 1 ≤ 7 && fld f 2 2 == n / 64 &&
    fld f 0xC 4 == 0 && fld f (n - 4) 4 == 0

/-- A failing frame discarded: the first such discard after an accepted frame sends a NAK, and no other
follows until a frame is accepted or 1 µs has passed (R352). -/
def Dev.discardNak (d : Dev) (p : Nat) : Dev :=
  let l := d.link p
  let due := match l.nakSent with | none => true | some t => t + us 1 ≤ d.clk
  if due then (d.setLink p { l with nakSent := some d.clk }).sendControl p true else d

/-- A frame that was being forwarded by cut-through fails: its output copy ends with the stomp CRC, and the
output port keeps that frame's SEQ and credit for the next one (R359). -/
def Dev.stompCopy (d : Dev) (p : Nat) (f : Bytes) : Dev :=
  let vl := fld f 1 1
  let b := (f.drop 16).take (f.length - 24)
  let payLen := fld b 8 2
  let dst := fld b 0 2
  if vl ≥ 7 ∨ payLen > 4096 ∨ dst = d.node ∨ dst ≥ 0xFFF ∨ fld b 5 1 = 0 ∨ d.fenced (fld b 2 2) (fld b 0x10 4) then d
  else
    match d.routePort dst (fld b 2 2) (fld b 0xC 4) vl with
    | none => d
    | some op =>
      let k : Pkt := ⟨vl, fld b 4 1, patch (b.take (32 + payLen)) 5 (le 1 (fld b 5 1 - 1)), some p, f.length / 64, false, 0, 0⟩
      if d.cutThrough p op k then
        let l := d.link op
        (d.setLink op { l with freeAt := d.clk + 8 * d.txNs op (d.wireLen op k) }).emit
          (.frame op (dataFrame vl l.txSeq l.rxSeq k.bytes 0xFFFFFFFF))
      else d

/-- A received DATA frame (R352, R353, R361, R372). -/
def Dev.rxData (d : Dev) (p : Nat) (f : Bytes) (unc : Bool) (corr : Nat) : Dev :=
  if !d.gfUp p then d else
  let d := d.add (R.FAB_PORT_ERR_FEC_CORRECTED p) corr
  let d := if unc then d.inc (R.FAB_PORT_ERR_UNCORRECTABLE p) else d
  let n := f.length
  let good := crc32c (f.take (n - 8))
  let crc := fld f (n - 8) 4
  let l := d.link p
  let expected := dataWf f && fld f 4 4 == l.rxSeq
  if !unc && dataWf f && crc == good ^^^ 0xFFFFFFFF then d
  else if unc || crc != good || !expected then
    let d := if expected then d.stompCopy p f else d
    d.discardNak p
  else
    let vl := fld f 1 1
    let u := n / 64
    let d := d.setLink p { l with rxSeq := (l.rxSeq + 1) % 2 ^ 32, nakSent := none }
    let d := (d.arm (.linkRx p) (us 10)).linkAck p (fld f 8 4)
    let d := d.issueAt 0x12 p u
    let b := (f.drop 16).take (n - 24)
    if vl = 7 then d.relayHandle p u b else d.netHandle p vl u b

def execDataFrame (p : PortId) (frame : Bytes) (uncorrectable : Bool) (corrected : Nat) (s : State) :
    Host.Outcome State Fault Refusal :=
  s.act .engine (fun d => d.rxData p frame uncorrectable corrected)

/-- A received CONTROL frame (R352, R353, R355, R358). -/
def Dev.rxControl (d : Dev) (p : Nat) (f : Bytes) (corr : Nat) : Dev :=
  let st := d.pstate p
  if !d.isGf p || !(st == 2 || st == 3) then d else
  let d := d.add (R.FAB_PORT_ERR_FEC_CORRECTED p) corr
  if f.length ≠ 64 ∨ fld f 0x38 4 ≠ crc32c (f.take 56) then d.inc (R.FAB_PORT_MISC_CTRL_CRC p)
  else if fld f 0 1 ≠ 2 ∨ fld f 1 1 ≠ 0 ∨ fld f 2 2 ≠ 1 then d
  else
    let flags := fld f 0xC 1
    let words := (List.range 8).map (fun v => fld f (0x10 + 4 * v) 4)
    let l := d.link p
    if flags.testBit 1 then
      if st = 2 then
        let d := d.setLink p { l with gotInit := true, allot := words, credit := words }
        (d.set (R.FAB_PORT_STATE_PEER_NODE p) (fld f 0x30 2)).set (R.FAB_PORT_STATE_PEER_PORT p) (fld f 0x32 1)
      else d.arm (.linkRx p) (us 10)
    else
      let d := if st = 2 ∧ l.gotInit then d.enterUp p else d
      if d.pstate p ≠ 3 then d else
      let d := ((d.arm (.linkRx p) (us 10)).linkRet p words).linkAck p (fld f 8 4)
      if flags.testBit 0 then d.resend p else d

def execControlFrame (p : PortId) (frame : Bytes) (corrected : Nat) (s : State) :
    Host.Outcome State Fault Refusal :=
  s.act .engine (fun d => d.rxControl p frame corrected)

/-- REPLAY_TIMEOUT (R353): 4 µs without progress of ACK. -/
def execReplayTimeout (p : PortId) (s : State) : Host.Outcome State Fault Refusal :=
  s.act .engine (fun d => if d.gfUp p && d.expired (.replay p) then d.resend p else d)

/-- CONTROL_FRAME_SEND (R356, R358): while UP, RET and ACK; in INIT, a frame with INIT set, and beside it,
once the partner's INIT has arrived, one without. -/
def execControlFrameSend (p : PortId) (s : State) : Host.Outcome State Fault Refusal :=
  s.act .engine (fun d =>
    if !d.isGf p then d
    else if d.pstate p = 3 then d.sendControl p false
    else if d.pstate p = 2 then
      let d := d.sendInit p
      if (d.link p).gotInit then d.sendControl p false else d
    else d)

/-- LINK_RX_TIMEOUT (R356): no valid frame for 10 µs. -/
def execLinkRxTimeout (p : PortId) (s : State) : Host.Outcome State Fault Refusal :=
  s.act .engine (fun d => if d.gfUp p && d.expired (.linkRx p) then d.enterRetrain p else d)

/-- RETRAIN_TIMEOUT (R358): no lock within 1 ms. -/
def execRetrainTimeout (p : PortId) (s : State) : Host.Outcome State Fault Refusal :=
  s.act .engine (fun d => if d.pstate p = 4 && d.expired (.retrain p) then d.enterDown p else d)

/-- DOWN_RETRAIN (R358): a DOWN port trains again every 100 ms. -/
def execDownRetrain (p : PortId) (s : State) : Host.Outcome State Fault Refusal :=
  s.act .engine (fun d =>
    if d.pstate p = 5 && d.expired (.down p) then
      (d.setLink p { d.link p with attempt := true }).arm (.down p) (ms 100)
    else d)

def execFrameTransmitStart (p : PortId) (s : State) : Host.Outcome State Fault Refusal :=
  s.act .engine (fun d => d.transmit p)

/-! ## Ethernet (R373, R374) -/

/-- The receive buffer of priority `pr` of an Ethernet port, in units (R374). -/
def Dev.ethBuf (d : Dev) (p pr : Nat) : Nat := (d.link p).width * (d.fab.vl pr).onDie

/-- PFC sent for priority `pr` of port `p`: XOFF (`what` 1) or XON (`what` 2). -/
def Dev.pfc (d : Dev) (p pr : Nat) (off : Bool) : Dev :=
  let l := d.link p
  let x := if off then insNat pr l.xoff else l.xoff.filter (· != pr)
  (d.setLink p { l with xoff := x }).emit (.eth p pr 0x0180C2000001 (if off then 1 else 2) [])

/-- A received Ethernet frame checked against the subset (R373) and held for the transport engine (R374). -/
def Dev.rxEth (d : Dev) (p : Nat) (f : EthFrame) : Dev :=
  if !d.isPort p || !d.isEth p || d.pstate p != 3 then d
  else if !f.fcsOk then d.inc (R.FAB_PORT_ETH_FCS p)
  else if f.pause then d.inc (R.FAB_PORT_ETH_PAUSE p)
  else match f.pfc with
  | some (mask, off) =>
    let l := d.link p
    let x := (List.range 8).foldl (fun x i =>
      if !mask.toNat.testBit i then x
      else if off.toNat.testBit i then insNat i x else x.filter (· != i)) l.paused
    d.setLink p { l with paused := x }
  | none =>
    if !f.inSubset || f.bytes < 64 || f.bytes > 9216 then d.inc (R.FAB_PORT_ETH_UNSUPPORTED p) else
    let pr := match f.tagPcp with | some t => t.val | none => 0
    let u := cdiv f.bytes 64
    let l := d.link p
    let held := Map.get 0 l.ethHeld pr
    let buf := d.ethBuf p pr
    if (d.fab.vl pr).lossy && buf < held + u then d.inc (R.FAB_PORT_DISC_LOSSY p) else
    let d := d.setLink p { l with ethHeld := Map.put 0 l.ethHeld pr (held + u) }
    let d := { d with fab := { d.fab with ethRx := d.fab.ethRx ++ [(p, f)] } }
    if !(d.fab.vl pr).lossy && 2 * (buf - (held + u)) < buf && !l.xoff.contains pr then d.pfc p pr true else d

def execEthFrame (p : PortId) (f : EthFrame) (s : State) : Host.Outcome State Fault Refusal :=
  s.act .engine (fun d => d.rxEth p f)

/-- An Ethernet frame leaves its priority buffer: units freed, and XON once free space exceeds three
quarters (R374). -/
def Dev.ethFree (d : Dev) (p : Nat) (f : EthFrame) : Dev :=
  let pr := match f.tagPcp with | some t => t.val | none => 0
  let l := d.link p
  let held := Map.get 0 l.ethHeld pr - cdiv f.bytes 64
  let d := d.setLink p { l with ethHeld := Map.put 0 l.ethHeld pr held }
  let buf := d.ethBuf p pr
  if l.xoff.contains pr && 3 * buf < 4 * (buf - held) then d.pfc p pr false else d

/-! ## Registers with rows of their own -/

/-- A write to FAB_PORT_CFG_p (R375): ENABLE 0 disables the port; ENABLE written 1 to a disabled port
configures and enables it, or is refused with 0x0107; other fields wait for the next enable. After a fatal cause the ports stay
DISABLED (R475). -/
def Dev.portEnable (d : Dev) (p : Nat) (v : Word) : Dev :=
  if d.fatal then d else
  let en := v.getLsbD 8
  let was := d.has (R.FAB_PORT_CFG_ENABLE p)
  let cfg := fun (d : Dev) (e : Nat) =>
    ((((d.set (R.FAB_PORT_CFG_WIDTH p) (getBits v 3 0)).set (R.FAB_PORT_CFG_RELAY p) (getBits v 5 5)).set
      (R.FAB_PORT_CFG_PRECODE p) (getBits v 6 6)).set (R.FAB_PORT_CFG_CR p) (getBits v 7 7)).set
      (R.FAB_PORT_CFG_ENABLE p) e
  if !en then
    let d := cfg d 0
    if d.pstate p = 0 then d else d.enterDisabled p
  else if was && d.pstate p != 0 then cfg d 1
  else if d.portFits p (getBits v 3 0) then
    ((cfg d 1).startPort p (getBits v 3 0) (v.getLsbD 5) (v.getLsbD 6) (v.getLsbD 7)).setSt
      (R.FAB_PORT_STATE_STATUS p) St.ok
  else d.setSt (R.FAB_PORT_STATE_STATUS p) St.portConfigInvalid

def execPortEnable (p : PortId) (v : Word) (s : State) : Host.Outcome State Fault Refusal :=
  s.act .live (fun d => (d.portEnable p v).reply St.ok)

/-- A route GO (R365). -/
def Dev.routeGo (d : Dev) : Dev :=
  let t := (d.word R.FAB_ROUTE_TICK).toNat
  if d.has R.FAB_ROUTE_CTRL_PENDING then d.setSt R.FAB_ROUTE_CTRL_STATUS St.requestPending
  else if t ≠ 0 ∧ t ≤ (d.word R.SEQ_TICK).toNat then d.setSt R.FAB_ROUTE_CTRL_STATUS St.tickPassed
  else
    let d := (d.setSt R.FAB_ROUTE_CTRL_STATUS St.ok).set R.FAB_ROUTE_CTRL_PENDING 1
    if t = 0 then d.routeCopy else d

def execRouteCommitGo (s : State) : Host.Outcome State Fault Refusal :=
  s.act .live (fun d => d.routeGo.reply St.ok)

/-! ## Gate lists (R410 to R413) -/

/-- The largest frame time of a port of width `w` (R412). -/
def largestTx (eth : Bool) (w : Nat) : Nat := if eth then cdiv ((9216 + 20) * 8) (100 * w) else cdiv (4160 * 8) (128 * w)

/-- Whether queue `q` is always open in list `l`, or has a window of at least `need` ns (R412). -/
def windowOk (l : List (Nat × Nat)) (need q : Nat) : Bool :=
  l.all (fun e => e.1.testBit q) ||
    (List.range l.length).any (fun i =>
      !(l.getD ((i + l.length - 1) % l.length) (0, 0)).1.testBit q && need ≤ windowRest l q l.length i)

/-- Whether a list keeps R410, R412 and the entry rules of SHAPE on a port of width `w` (R413, R415). -/
def gateOk (eth : Bool) (w : Nat) (l : List (Nat × Nat)) : Bool :=
  let used := if eth then 8 else 32
  l.length ≤ 256 && l.all (fun e => 1 ≤ e.2 && e.2 < 2 ^ 32 - 1 && e.1 < 2 ^ used) &&
    l.foldl (fun n e => n + e.2) 0 ≤ 1000000000 &&
    (List.range used).all (fun q => windowOk l (largestTx eth w) q)

/-- Whether a list is valid on port `p`. -/
def Dev.gateValid (d : Dev) (p : Nat) (l : List (Nat × Nat)) : Bool := gateOk (d.isEth p) (d.link p).width l

/-- The first `n` entries of the shadow list of port `p`. -/
def Dev.shadowList (d : Dev) (p n : Nat) : List (Nat × Nat) :=
  (List.range n).map (fun e => let w := d.word (R.TSH_GATE_SHADOW p e); (getBits w 31 0, getBits w 63 32))

/-- The active list of port `p` becomes `l`, with cycle 0 at `base`; no list where it is empty. -/
def Dev.gateSet (d : Dev) (p : Nat) (l : List (Nat × Nat)) (base : Nat) : Dev :=
  let d := { d with regs := d.regs.filter (fun e =>
      e.1 < R.TSH_GATE_ACTIVE p 0 || R.TSH_GATE_ACTIVE p 0 + 2048 ≤ e.1) }
  let d := ((List.range l.length).zip l).foldl (fun d e =>
    d.setWord (R.TSH_GATE_ACTIVE p e.1) (BitVec.ofNat 64 (e.2.2 * 2 ^ 32 + e.2.1))) d
  let d := d.setWord (R.TSH_GATE_BASE p) (BitVec.ofNat 64 (if l.isEmpty then 0 else base))
  let d := (d.set (R.TSH_GATE_CTRL_ACTIVE p) (b2n (!l.isEmpty))).set (R.TSH_GATE_CTRL_PENDING p) 0
  d.setLink p { d.link p with gatePend := none, gateEntry := 0 }

/-- A list of `n` entries takes force on port `p` with cycle 0 at `base` (R413). -/
def Dev.gateCommit (d : Dev) (p n base : Nat) : Dev := (d.gateSet p (d.shadowList p n) base).set (R.TSH_GATE_CTRL_DONE p) 1

/-- When a list staged now takes force on port `p` (R413). -/
def Dev.gateForce (d : Dev) (p : Nat) : Nat :=
  let t0 := max (d.word (R.TSH_GATE_ADMIN p)).toNat d.ftNs
  if d.has (R.TSH_GATE_CTRL_ACTIVE p) then
    let base := (d.word (R.TSH_GATE_BASE p)).toNat
    let cyc := (d.gateList p).foldl (fun n e => n + e.2) 0
    base + cdiv (t0 - base) cyc * cyc
  else t0

/-- A gate-list GO with ENTRIES = `n` (R413). -/
def Dev.gateGo (d : Dev) (p n : Nat) : Dev :=
  if !d.isPort p then d else
  let d := d.set (R.TSH_GATE_CTRL_ENTRIES p) n
  if d.has (R.TSH_GATE_CTRL_PENDING p) then d.setSt (R.TSH_GATE_CTRL_STATUS p) St.requestPending
  else if n ≠ 0 ∧ !d.gateValid p (d.shadowList p n) then d.setSt (R.TSH_GATE_CTRL_STATUS p) St.shapeInvalid
  else
    let force := d.gateForce p
    let d := (d.setSt (R.TSH_GATE_CTRL_STATUS p) St.ok).set (R.TSH_GATE_CTRL_PENDING p) 1
    let d := d.setLink p { d.link p with gatePend := some (n, force) }
    if force ≤ d.ftNs then d.gateCommit p n force else d

def execGateListGo (p : PortId) (entries : BitVec 9) (s : State) : Host.Outcome State Fault Refusal :=
  s.act .live (fun d => (d.gateGo p entries.toNat).reply St.ok)

def execGateListCommit (p : PortId) (s : State) : Host.Outcome State Fault Refusal :=
  s.act .live (fun d =>
    match (d.link p).gatePend with
    | some (n, force) => if force ≤ d.ftNs then d.gateCommit p n force else d
    | none => d)

/-- GATE_ENTRY_CHANGE (R410): the entry that holds at the present fabric time comes into force. -/
def execGateEntryChange (p : PortId) (s : State) : Host.Outcome State Fault Refusal :=
  s.act .live (fun d =>
    if !d.has (R.TSH_GATE_CTRL_ACTIVE p) then d else
    let l := d.gateList p
    let cyc := l.foldl (fun n e => n + e.2) 0
    if cyc = 0 then d else
    d.setLink p { d.link p with
      gateEntry := (gateAt l ((d.ftNs - (d.word (R.TSH_GATE_BASE p)).toNat) % cyc) 0 0).1 })

end Sys2Proof.Machine
end

