-- ==== Sys2Proof/Machine/Operands.lean ====
section
/-! DEFINITION. The registers of a GTC thread as operands (R320, R322): scalars, predicates, vector lanes, tiles. -/

namespace Sys2Proof.Machine

/-- Scalar register `n`. -/
def Thread.sr (t : Thread) (n : Nat) : Word := Map.get 0 t.s n

def Thread.setSr (t : Thread) (n : Nat) (w : Word) : Thread := { t with s := Map.put 0 t.s n w }

/-- A result narrower than 64 bits is written zero-extended (R322). -/
def Thread.setNat (t : Thread) (n v : Nat) : Thread := t.setSr n (BitVec.ofNat 64 v)

/-- Predicate register `n`; p0 always reads 1. -/
def Thread.pr (t : Thread) (n : Nat) : Bool := n == 0 || t.p.testBit n

/-- A write to a predicate register; writes to p0 are ignored. -/
def Thread.setPr (t : Thread) (n : Nat) (v : Bool) : Thread :=
  if n = 0 then t else { t with p := if t.p.testBit n then (if v then t.p else t.p - 2 ^ n) else (if v then t.p + 2 ^ n else t.p) }

/-- Vector register `n` as a 1,024-bit number. -/
def Thread.vr (t : Thread) (n : Nat) : Nat := Map.get 0 t.v n

def Thread.setVr (t : Thread) (n v : Nat) : Thread := { t with v := Map.put 0 t.v n (v % 2 ^ 1024) }

/-- The lanes of `w` bits of a vector register, lane 0 first. -/
def lanes (w x : Nat) : List Nat := (List.range (1024 / w)).map (fun i => (x >>> (w * i)) % 2 ^ w)

/-- The vector register that lanes of `w` bits make up. -/
def unlanes (w : Nat) : List Nat → Nat
  | [] => 0
  | x :: r => x % 2 ^ w + 2 ^ w * unlanes w r

/-- Tile register `n`: FP32 zero at the start of an attempt. -/
def Thread.tr (t : Thread) (n : Nat) : Tile := Map.get ⟨false, []⟩ t.t n

def Thread.setTr (t : Thread) (n : Nat) (x : Tile) : Thread := { t with t := Map.put ⟨false, []⟩ t.t n x }

/-- tile[m][n]. -/
def Tile.at (x : Tile) (m n : Nat) : Nat := Map.get 0 x.el (32 * m + n)

def Tile.put (x : Tile) (m n v : Nat) : Tile := { x with el := Map.put 0 x.el (32 * m + n) v }

/-- The address of a load or store: sA + IMM9 × the access size (R324). -/
def Thread.memAddr (t : Thread) (o : FmtI) (size : Nat) : Nat :=
  (t.sr o.a.toNat + BitVec.signExtend 64 o.imm * BitVec.ofNat 64 size).toNat

end Sys2Proof.Machine
end

