-- ==== Sys2Proof/Machine/Flags.lean ====
section
/-! DEFINITION. The sticky flags of a GTC thread (R290, R323): bit 0 INVALID, 1 DIV_ZERO, 2 OVERFLOW, 3 UNDERFLOW,
4 INEXACT, 5 SATURATED. -/

namespace Sys2Proof.Machine

/-- Flags raised: a flag once set stays set. -/
def Thread.raiseFlags (t : Thread) (fl : Nat) : Thread := { t with flags := t.flags ||| (fl % 64) }

/-- A scalar result with the flags of its computation. -/
def Thread.setNum (t : Thread) (n : Nat) (x : Num Nat) : Thread := (t.setNat n x.val).raiseFlags x.fl

/-- Lane results with the flags of all of them. -/
def joinNums (l : List (Num Nat)) : Num (List Nat) := ⟨l.map (·.val), l.foldl (fun f x => f ||| x.fl) 0⟩

/-- Vector lanes with the flags of their computation. -/
def Thread.setLanes (t : Thread) (n w : Nat) (x : Num (List Nat)) : Thread := (t.setVr n (unlanes w x.val)).raiseFlags x.fl

/-- An SWR to FLAGS writes bits 5:0 (R323). -/
def Thread.writeFlags (t : Thread) (w : Word) : Thread := { t with flags := w.toNat % 64 }

end Sys2Proof.Machine
end

