-- ==== Sys2Proof/Machine/Gtc.lean ====
section
/-! DEFINITION. What the GTC instructions compute (spec 12), apart from how a thread issues, waits and retires. -/

namespace Sys2Proof.Machine

/-! ## Scalar arithmetic (R324, R325) -/

/-- ALU0. -/
def alu0 (fn : Nat) (a b : Word) : Word :=
  match fn with
  | 0 => a + b
  | 1 => a - b
  | 2 => a &&& b
  | 3 => a ||| b
  | 4 => a ^^^ b
  | 5 => a <<< (b.toNat % 64)
  | 6 => a >>> (b.toNat % 64)
  | _ => a.sshiftRight (b.toNat % 64)

/-- ALU1: division by zero gives all ones, its remainder sA; −2^63 by −1 gives −2^63 with remainder 0. -/
def alu1 (fn : Nat) (a b : Word) : Word :=
  match fn with
  | 0 => a * b
  | 1 => BitVec.ofInt 64 (a.toInt * b.toInt / 2 ^ 64)
  | 2 => BitVec.ofNat 64 (a.toNat * b.toNat / 2 ^ 64)
  | 3 => if b = 0 then BitVec.allOnes 64 else BitVec.ofInt 64 (a.toInt.tdiv b.toInt)
  | 4 => if b = 0 then BitVec.allOnes 64 else BitVec.ofNat 64 (a.toNat / b.toNat)
  | 5 => if b = 0 then a else BitVec.ofInt 64 (a.toInt.tmod b.toInt)
  | _ => if b = 0 then a else BitVec.ofNat 64 (a.toNat % b.toNat)

/-- Trailing zeros of a 64-bit number, 64 for 0. -/
def ctz64 (x : Nat) : Nat := ((List.range 64).find? (fun i => x.testBit i)).getD 64

/-- ALU2. -/
def alu2 (fn : Nat) (a b : Word) : Word :=
  match fn with
  | 0 => if a.toInt ≤ b.toInt then a else b
  | 1 => if a.toInt ≤ b.toInt then b else a
  | 2 => if a.toNat ≤ b.toNat then a else b
  | 3 => if a.toNat ≤ b.toNat then b else a
  | 4 => BitVec.ofNat 64 (64 - bitLen a.toNat)
  | 5 => BitVec.ofNat 64 (ctz64 a.toNat)
  | _ => BitVec.ofNat 64 (popCount 64 a.toNat)

/-- SHIFTI. -/
def shiftImm (imm : BitVec 9) (a : Word) : Word :=
  let n := imm.toNat % 64
  match imm.toNat / 128 with
  | 0 => a <<< n
  | 1 => a >>> n
  | _ => a.sshiftRight n

/-- CMP. -/
def cmpRel (fn : Nat) (a b : Word) : Bool :=
  match fn with
  | 0 => a == b
  | 1 => a != b
  | 2 => a.toInt < b.toInt
  | 3 => b.toInt ≤ a.toInt
  | 4 => a.toNat < b.toNat
  | _ => b.toNat ≤ a.toNat

/-- PLOG. -/
def predLogic (fn : Nat) (a b : Bool) : Bool :=
  match fn with
  | 0 => a && b
  | 1 => a || b
  | 2 => a ^^ b
  | 3 => a && !b
  | 4 => !a
  | _ => a

/-- The relation of FCMP and VCMP on floating values: 0 EQ, 1 LT, 2 LE, 3 UNORD. EQ and UNORD are quiet; LT and LE are
false for a NaN and set INVALID. -/
def floatRel (f : Fmt) (rel a b : Nat) : Num Bool :=
  let x := decode f a
  let y := decode f b
  let nan := x.isNan || y.isNan
  match rel with
  | 0 => ⟨!nan && cmpVal x y = 0, if x.isSig || y.isSig then flInvalid else 0⟩
  | 1 => if nan then ⟨false, flInvalid⟩ else ⟨cmpVal x y < 0, 0⟩
  | 2 => if nan then ⟨false, flInvalid⟩ else ⟨cmpVal x y ≤ 0, 0⟩
  | _ => ⟨nan, if x.isSig || y.isSig then flInvalid else 0⟩

/-- FP32 and FP64, and the floating lanes of VARITH: 0 ADD, 1 SUB, 2 MUL, 3 FMA, 4 MIN, 5 MAX, 6 DIV, 7 SQRT. -/
def floatOp (f : Fmt) (fn a b c : Nat) : Num Nat :=
  match fn with
  | 0 => addF f a b
  | 1 => subF f a b
  | 2 => mulF f a b
  | 3 => fmaF f a b c
  | 4 => minMaxF f false a b
  | 5 => minMaxF f true a b
  | 6 => divF f a b
  | _ => sqrtF f a

/-- A result of a conversion as a scalar: integers sign-extended, but UINT8 (R325). -/
def scalarOf (f : Fmt) (v : Nat) : Word :=
  match f with
  | .int w => BitVec.ofInt 64 (sext w v)
  | _ => BitVec.ofNat 64 v

/-- One element converted, under R284 where a random value is given. -/
def convertEl (f g : Fmt) (w : Nat) (r : Option Nat) : Num Nat :=
  match r with
  | none => convertBits f g w
  | some r => if g.isFloat then convertSr f (decode g w) r else convertSr f (decode g w) r

/-! ## Vectors (R330, R331) -/

/-- The floating format of a lane TYPE. -/
def laneFmt : Nat → Option Fmt
  | 0 => some fp16
  | 1 => some bf16
  | 2 => some fp32
  | 3 => some fp64
  | _ => none

/-- The width of a lane TYPE. -/
def laneWidth : Nat → Nat
  | 0 => 16
  | 1 => 16
  | 2 => 32
  | 3 => 64
  | 4 => 8
  | 5 => 16
  | 6 => 32
  | _ => 64

/-- Integer VARITH on a lane of `w` bits. -/
def intOp (w fn a b c : Nat) : Nat :=
  match fn with
  | 0 => (a + b) % 2 ^ w
  | 1 => (a + 2 ^ w - b) % 2 ^ w
  | 2 => (a * b) % 2 ^ w
  | 3 => (a * b + c) % 2 ^ w
  | 4 => if sext w a ≤ sext w b then a else b
  | _ => if sext w a ≤ sext w b then b else a

/-- Three lists of lanes combined. -/
def zip3 (f : Nat → Nat → Nat → Num Nat) (a b c : List Nat) : List (Num Nat) :=
  ((a.zip b).zip c).map (fun x => f x.1.1 x.1.2 x.2)

/-- VARITH. -/
def varith (ty fn : Nat) (a b c : Nat) : Num (List Nat) :=
  let w := laneWidth ty
  joinNums (zip3 (fun x y z => match laneFmt ty with
    | some f => floatOp f fn x y z
    | none => ⟨intOp w fn x y z, 0⟩) (lanes w a) (lanes w b) (lanes w c))

/-- One lane of VLOGIC; `c` is the old vD lane. -/
def laneLogic (w fn a b c : Nat) : Nat :=
  match fn with
  | 0 => a &&& b
  | 1 => a ||| b
  | 2 => a ^^^ b
  | 3 => (a <<< (b % w)) % 2 ^ w
  | 4 => a >>> (b % w)
  | 5 => wrap w (sext w a / 2 ^ (b % w))
  | _ => if c ≠ 0 then a else b

/-- One lane of VCMP. -/
def laneCmp (ty fn a b : Nat) : Num Bool :=
  let w := laneWidth ty
  match laneFmt ty with
  | some f =>
    match fn with
    | 0 => floatRel f 0 a b
    | 1 => let r := floatRel f 0 a b; ⟨!r.val, r.fl⟩
    | 2 => floatRel f 1 a b
    | 3 => floatRel f 2 a b
    | _ => floatRel f 3 a b
  | none =>
    match fn with
    | 0 => ⟨a == b, 0⟩
    | 1 => ⟨a != b, 0⟩
    | 2 => ⟨sext w a < sext w b, 0⟩
    | 3 => ⟨sext w a ≤ sext w b, 0⟩
    | 4 => ⟨a < b, 0⟩
    | _ => ⟨a ≤ b, 0⟩

/-- VRED (R289). -/
def vred (ty fn a : Nat) : Num Nat :=
  let w := laneWidth ty
  treeReduce (fun x y => match laneFmt ty with
    | some f => floatOp f (if fn = 0 then 0 else fn + 3) x y 0
    | none => ⟨intOp w (if fn = 0 then 0 else fn + 3) x y 0, 0⟩) (lanes w a)

/-- Elements of a VCVT: 1,024 div the larger width, a multiple of 4 where either format is 6 bits wide. -/
def vcvtCount (f g : Fmt) : Nat :=
  let n := 1024 / max f.width g.width
  if f.width = 6 ∨ g.width = 6 then n / 4 * 4 else n

/-- The bytes of a vector register. -/
def vbytes (x : Nat) : Bytes := le 128 x

/-! ## The thread's surroundings -/

/-- An instruction's view: the device, the function, the attempt, the thread's index in it, and the thread. -/
structure Cx where
  d : Dev
  f : Nat
  a : Attempt
  ti : Nat
  th : Thread
  deriving Repr

/-- What an instruction does. -/
inductive Eff where
  /-- It retires; the thread goes on at the following word. -/
  | retire (th : Thread)
  /-- It retires and branches. -/
  | jump (th : Thread) (pc : Nat)
  /-- It needs bytes at a global address from the media window or from another node. -/
  | need (addr len : Nat)
  /-- It raises an exception. -/
  | exc (st : Status) (addr : Nat)
  /-- It retires once its stores, at global addresses, have landed. -/
  | store (th : Thread) (ws : List (Nat × Bytes))
  /-- It performs an atomic: address, KIND, AOP, SZ, FMT, operand and new value, and the register of the old value. -/
  | atom (addr kind aop sz fmt opd new : Nat) (dst : Option Nat)
  /-- A WAIT whose condition does not hold. -/
  | watch
  | barrier
  | finish (len st : Nat)
  | halt
  deriving Repr

/-- The configuration record of a queue (R294). -/
def Dev.thrCfg (d : Dev) (f q : Nat) : Bytes := d.config f 9 q

/-- Section and kernel entry of a queue: fields of R341 and R342. -/
def Dev.kernelFld (d : Dev) (f q off n : Nat) : Nat := d.sfld f 7 (0x40 + 32 * fld (d.thrCfg f q) 4 4 + off) n
def Dev.codeAt (d : Dev) (f : Nat) : Nat := d.sectAt f 7 + d.sfld f 7 0x10 8

/-- Whether a code address lies in the queue's kernel's range (R335). -/
def Dev.inCode (d : Dev) (f q pc : Nat) : Bool :=
  let first := 4 * d.kernelFld f q 0 4
  pc % 4 == 0 && first ≤ pc && pc < first + 4 * d.kernelFld f q 4 4

/-- The word at a code address. -/
def Dev.codeWord (d : Dev) (f pc : Nat) : Nat := d.readLe (d.codeAt f + pc) 4

def Cx.cfg (c : Cx) : Bytes := c.d.thrCfg c.f c.a.q
def Cx.drawBase (c : Cx) : Nat := fld c.cfg 0x30 8

/-- Whether draws `i` to `i + n - 1` lie in the stage's range (R326). -/
def Cx.drawsOk (c : Cx) (i n : Nat) : Bool := c.drawBase ≤ i && i + n ≤ c.drawBase + 2 ^ 32

/-- A draw of the item (R326). -/
def Cx.drawAt (c : Cx) (i : Nat) : Nat := c.d.drawFor c.f c.a.epoch c.a.sid i

/-- The random value of element `k` of a conversion from draw `d0` (R285). -/
def Cx.random (c : Cx) (d0 k : Nat) : Nat := bits (c.drawAt (d0 + k / 4)) (16 * (k % 4) + 15) (16 * (k % 4))

/-! ## Memory accesses (R25, R26, R41 to R45, R309, R327) -/

/-- Whether a global address names this device (R41). -/
def Dev.isLocal (d : Dev) (a : Nat) : Bool := a / 2 ^ 52 == 0xFFF || a / 2 ^ 52 == d.node

/-- The status of a local access of `n` bytes: `kind` 0 a read, 1 a write, 2 an atomic. -/
def Cx.access (c : Cx) (l n kind : Nat) : Status :=
  match c.d.classOf l with
  | .hbm =>
    let i := c.d.img c.f
    if !i.regions.any (fun r => r.holds l n) then St.domainMismatch
    else if kind ≠ 0 ∧ i.regions.any (fun r => r.kind = 3 && r.base < l + n && l < r.base + r.size) = true then St.readOnlyRegion
    else St.ok
  | .fixed => St.accessDenied
  | .control => St.accessDenied
  | .scratch => if c.d.classOf (l + (n - 1)) = .scratch then St.ok else St.addressUnmapped
  | .media =>
    if kind ≠ 0 then St.readOnlyRegion
    else if (c.d.img c.f).medSlots.getD (blkChan ((l - mediaBase) / 4096 / 4096)) 0 = 0 then St.accessDenied
    else St.ok
  | .reserved => St.addressUnmapped

/-- What reading `n` bytes at a global address gives now. -/
inductive Rd where
  | data (b : Bytes)
  | need
  | fail (st : Status)
  deriving DecidableEq, Repr

def Cx.load (c : Cx) (a n : Nat) : Rd :=
  let l := a % 2 ^ 52
  let fetched := match c.th.got.find? (fun g => g.addr = a && g.len = n) with
    | some g => if g.status = 0 then Rd.data g.data else .fail g.status
    | none => .need
  if !c.d.isLocal a then fetched else
  let st := c.access l n 0
  if st ≠ 0 then .fail st
  else if mediaBase ≤ l then fetched
  else .data (c.d.read l n)

/-- The bytes of a read passed on, or what the instruction must do instead. -/
def Cx.withBytes (c : Cx) (a n : Nat) (k : Bytes → Eff) : Eff :=
  match c.load a n with
  | .data b => k b
  | .need => .need a n
  | .fail st => .exc st a

/-- A load of `size` bytes, sign-extended where `sign`. -/
def Cx.loadOp (c : Cx) (o : FmtI) (size : Nat) (sign : Bool) : Eff :=
  let a := c.th.memAddr o size
  if a % size ≠ 0 then .exc St.misaligned a
  else c.withBytes a size (fun b =>
    .retire (if sign then c.th.setSr o.d.toNat (BitVec.ofInt 64 (sext (8 * size) (unle b))) else c.th.setNat o.d.toNat (unle b)))

/-- The status of a store of `n` bytes at a global address, as far as this device knows it. -/
def Cx.storeSt (c : Cx) (a n : Nat) : Status := if c.d.isLocal a then c.access (a % 2 ^ 52) n 1 else St.ok

/-- A store of the low `size` bytes of sD. -/
def Cx.storeOp (c : Cx) (o : FmtI) (size : Nat) : Eff :=
  let a := c.th.memAddr o size
  if a % size ≠ 0 then .exc St.misaligned a
  else
    let st := c.storeSt a size
    if st ≠ 0 then .exc st a else .store c.th [(a, le size (c.th.sr o.d.toNat).toNat)]

/-- VLD and VST. -/
def Cx.vldOp (c : Cx) (o : FmtI) : Eff :=
  let a := c.th.memAddr o 128
  if a % 128 ≠ 0 then .exc St.misaligned a else c.withBytes a 128 (fun b => .retire (c.th.setVr o.d.toNat (unle b)))

def Cx.vstOp (c : Cx) (o : FmtI) : Eff :=
  let a := c.th.memAddr o 128
  if a % 128 ≠ 0 then .exc St.misaligned a
  else
    let st := c.storeSt a 128
    if st ≠ 0 then .exc st a else .store c.th [(a, vbytes (c.th.vr o.d.toNat))]

/-- An atomic at sA (R312, R328, R329). -/
def Cx.atomOp (c : Cx) (kind aop sz fmt d a : Nat) : Eff :=
  let addr := (c.th.sr a).toNat
  if addr % atomAlign kind sz fmt ≠ 0 then .exc St.misaligned addr
  else if kind = 1 ∧ c.d.det then .exc St.detForbidden addr
  else
    let st := if c.d.isLocal addr then c.access (addr % 2 ^ 52) (atomSize kind sz fmt) 2 else St.ok
    if st ≠ 0 then .exc st addr
    else .atom addr kind aop sz fmt (c.th.sr d).toNat (if kind = 0 ∧ aop = 7 then (c.th.sr (d + 1)).toNat else 0)
      (if kind = 2 then none else some d)

/-! ## Tensor descriptors (R315, R316) -/

/-- A tensor descriptor. -/
structure Tensor where
  base : Nat
  scaleAddr : Nat
  statsAddr : Nat
  format : Nat
  rank : Nat
  scaleKind : Nat
  scaleEnc : Nat
  dims : List Nat
  strides : List Nat
  rsv : Bool
  deriving DecidableEq, Repr

def tensorOf (b : Bytes) : Tensor :=
  { base := fld b 0 8, scaleAddr := fld b 8 8, statsAddr := fld b 0x10 8, format := fld b 0x18 1, rank := fld b 0x19 1,
    scaleKind := fld b 0x1A 1, scaleEnc := fld b 0x1B 1, dims := (List.range 4).map (fun k => fld b (0x20 + 4 * k) 4),
    strides := (List.range 3).map (fun k => fld b (0x30 + 4 * k) 4), rsv := fld b 0x1C 4 != 0 || fld b 0x3C 4 != 0 }

def Tensor.dim (t : Tensor) (k : Nat) : Nat := t.dims.getD k 1
def Tensor.stride (t : Tensor) (k : Nat) : Nat := t.strides.getD (k - 1) 0
def Tensor.fmt (t : Tensor) : Fmt := (fmtOf t.format).getD fp32

/-- Step 1 of R316. A step of dimension 0 spans an element, a step of dimension k its stride. -/
def Tensor.wf (t : Tensor) : Bool :=
  match fmtOf t.format with
  | none => false
  | some f =>
    let xa := match f with
      | .xa320 => true
      | .xa2176 => true
      | _ => false
    1 ≤ t.rank && t.rank ≤ 4 && t.scaleKind ≤ 2 && t.scaleEnc ≤ 1 && !t.rsv && (t.scaleKind != 0 || t.scaleAddr == 0)
      && !(xa && t.scaleKind != 0) && (List.range 4).all (fun k => k < t.rank || t.dim k == 1)
      && (List.range 4).all (fun k => k = 0 || t.rank ≤ k || (if k = 1 then cdiv f.width 8 else t.stride (k - 1)) ≤ t.stride k)

/-- The bytes from element 0 to the end of the last row. -/
def Tensor.span (t : Tensor) : Nat :=
  ((List.range 4).foldl (fun n k => if k = 0 ∨ t.rank ≤ k then n else n + (t.dim k - 1) * t.stride k) 0) + rowBytes t.fmt (t.dim 0)

/-- The bytes of the scale array. -/
def Tensor.scaleSpan (t : Tensor) : Nat :=
  let one := if t.scaleEnc = 0 then 4 else 1
  match t.scaleKind with
  | 1 => one * (t.dim 1 * t.dim 2 * t.dim 3)
  | 2 => one * t.dim 0
  | _ => 0

/-- Step 3 of R316: the range ends inside the region that holds its first byte. -/
def Cx.rangeBad (c : Cx) (a n : Nat) : Bool :=
  let l := a % 2 ^ 52
  if !c.d.isLocal a || n == 0 then false
  else match c.d.classOf l with
  | .hbm =>
    match (c.d.img c.f).regions.find? (fun r => r.holds l 1) with
    | some r => r.base + r.size < l + n
    | none => false
  | .scratch => c.d.classOf (l + (n - 1)) != .scratch
  | .media => c.d.classOf (l + (n - 1)) != .media
  | _ => false

/-- The checks of R316: a status; the first address of a failing step 4. -/
def Cx.tensorSt (c : Cx) (t : Tensor) (wr : Bool) : Status × Nat :=
  if !t.wf then (St.descriptorInvalid, 0)
  else if t.dims.any (· == 2 ^ 32 - 1) || t.strides.any (· == 2 ^ 32 - 1) then (St.lengthReserved, 0)
  else if t.dims.any (· == 0) then (0, 0)
  else if c.rangeBad t.base t.span || (t.scaleKind != 0 && c.rangeBad t.scaleAddr t.scaleSpan) then (St.lengthExceedsBuffer, t.base)
  else
    let s1 := if c.d.isLocal t.base then c.access (t.base % 2 ^ 52) t.span (if wr then 1 else 0) else 0
    let s2 := if t.scaleKind ≠ 0 ∧ c.d.isLocal t.scaleAddr then c.access (t.scaleAddr % 2 ^ 52) t.scaleSpan 0 else 0
    if s1 ≠ 0 then (s1, t.base) else (s2, t.scaleAddr)

/-- A descriptor at an address read and checked; an empty tensor makes the instruction retire without effect. -/
def Cx.withTensor (c : Cx) (a : Nat) (wr : Bool) (k : Tensor → Eff) : Eff :=
  if a % 64 ≠ 0 then .exc St.descriptorInvalid a
  else if c.d.isLocal a ∧ mediaBase ≤ a % 2 ^ 52 then .exc (if a % 2 ^ 52 < 2 * mediaBase then St.descriptorInvalid else St.addressUnmapped) a
  else c.withBytes a 64 (fun b =>
    let t := tensorOf b
    match c.tensorSt t wr with
    | (st, at_) => if st ≠ 0 then .exc st at_ else if t.dims.any (· == 0) then .retire c.th else k t)

/-- Reads of several ranges, in order. -/
def Cx.withAll (c : Cx) : List (Nat × Nat) → (List Bytes → Eff) → Eff
  | [], k => k []
  | (a, n) :: r, k => c.withBytes a n (fun b => c.withAll r (fun l => k (b :: l)))

/-- The rows of a tensor of rank at most 2, read. -/
def Cx.withRows (c : Cx) (t : Tensor) (k : List Bytes → Eff) : Eff :=
  c.withAll ((List.range (t.dim 1)).map (fun m => (t.base + m * t.stride 1, rowBytes t.fmt (t.dim 0)))) k

/-- The scale array of a tensor, read. -/
def Cx.withScales (c : Cx) (t : Tensor) (k : Bytes → Eff) : Eff :=
  if t.scaleKind = 0 then k [] else c.withBytes t.scaleAddr t.scaleSpan k

/-- The scale of element (i0, i1); none where the tensor has no scales. -/
def Tensor.scale (t : Tensor) (b : Bytes) (i0 i1 : Nat) : Option Val :=
  let i := if t.scaleKind = 1 then i1 else i0
  if t.scaleKind = 0 then none
  else if t.scaleEnc = 0 then some (scaleVal false (fld b (4 * i) 4))
  else some (scaleVal true (fld b i 1))

/-! ## Tiles (R332) -/

/-- Whether a tensor has the shape of a tile. -/
def Tensor.tileShape (t : Tensor) : Bool := t.rank ≤ 2 && t.dim 0 ≤ 32 && t.dim 1 ≤ 32

/-- Whether TLOAD loads a format as INT32. -/
def Tensor.loadsInt (t : Tensor) : Bool := t.fmt.isInt && t.scaleKind == 0

/-- One element as FP32: exact where possible, a scaled value rounded once, XA under R280. -/
def loadFp32 (f : Fmt) (w : Nat) (s : Option Val) : Num Nat :=
  match s with
  | some s => roundTo fp32 (mulVal (decode f w) s)
  | none => convertBits fp32 f w

/-- TLOAD. -/
def Cx.tload (c : Cx) (o : FmtT) : Eff :=
  c.withTensor (c.th.sr o.a.toNat).toNat false (fun t =>
    if !t.tileShape || t.format == 0x0E then .exc St.tileInvalid 0 else
    c.withRows t (fun rows => c.withScales t (fun sc =>
      let f := t.fmt
      let els := ((List.range (t.dim 1)).zip rows).flatMap (fun r => (List.range (t.dim 0)).map (fun n =>
        let w := elemAt f r.2 n
        let x : Num Nat := if t.loadsInt then convertBits (.int 32) f w else loadFp32 f w (t.scale sc n r.1)
        (r.1, n, x)))
      let tile := els.foldl (fun (x : Tile) e => x.put e.1 e.2.1 e.2.2.val) ⟨t.loadsInt, []⟩
      .retire ((c.th.setTr o.td.toNat tile).raiseFlags (els.foldl (fun fl e => fl ||| e.2.2.fl) 0)))))

/-- One element of a tile converted for a store. -/
def storeEl (f : Fmt) (int : Bool) (w : Nat) (s : Option Val) (r : Option Nat) : Num Nat :=
  let src := if int then Fmt.int 32 else fp32
  let v := decode src w
  match f, s with
  | .xa320, _ => ⟨(Xa.zero.add .xa320 v).toBits .xa320, 0⟩
  | .xa2176, _ => ⟨(Xa.zero.add .xa2176 v).toBits .xa2176, 0⟩
  | _, some s => quotTo f v s r
  | _, none => match r with
    | some r => convertSr f v r
    | none => convertBits f src w

/-- The write of a statistics block after a store (R291 to R293). -/
def Cx.withStats (c : Cx) (t : Tensor) (els : List (Nat × Bool)) (k : List (Nat × Bytes) → Eff) : Eff :=
  if t.statsAddr = 0 then k []
  else
    let st := c.storeSt t.statsAddr 576
    if st ≠ 0 then .exc st t.statsAddr else c.withBytes t.statsAddr 576 (fun b => k [(t.statsAddr, statsUpdate t.fmt b els)])

/-- TSTORE. -/
def Cx.tstore (c : Cx) (o : FmtT) : Eff :=
  let sr := o.fn.getLsbD 0
  c.withTensor (c.th.sr o.a.toNat).toNat true (fun t =>
    if !t.tileShape || (sr && !t.fmt.isSr) then .exc St.tileInvalid 0 else
    c.withScales t (fun sc =>
      let f := t.fmt
      let n := t.dim 0
      let cnt := t.dim 1 * n
      let d0 := c.th.drawptr.toNat
      if sr && !c.drawsOk d0 (cdiv cnt 4) then .exc St.drawRange 0 else
      let tile := c.th.tr o.td.toNat
      let els := (List.range (t.dim 1)).map (fun m => (List.range n).map (fun i =>
        storeEl f tile.int (tile.at m i) (t.scale sc i m) (if sr then some (c.random d0 (m * n + i)) else none)))
      let ws := ((List.range (t.dim 1)).zip els).map (fun e => (t.base + e.1 * t.stride 1, packRow f (e.2.map (·.val))))
      let fl := els.foldl (fun a l => l.foldl (fun a x => a ||| x.fl) a) 0
      let th := c.th.raiseFlags fl
      let th := if sr then { th with drawptr := th.drawptr + BitVec.ofNat 64 (cdiv cnt 4) } else th
      c.withStats t (els.flatMap (fun l => l.map (fun x => (x.val, x.fl &&& flSaturated != 0)))) (fun st => .store th (ws ++ st))))

/-- Whether a matrix operand's format belongs to the floating path: floats of at most 16 bits, or scaled integers. -/
def Tensor.mmaFloatOk (t : Tensor) : Bool :=
  (2 ≤ t.format && t.format ≤ 0xA && t.fmt.isFloat) || (t.fmt.isInt && t.scaleKind != 0)
/-- Whether it belongs to the integer path: INT8, UINT8 or INT4 without scales. -/
def Tensor.mmaIntOk (t : Tensor) : Bool := (t.format == 5 || t.format == 6 || t.format == 0xD) && t.scaleKind == 0

/-- The integer that an element of an integer format holds. -/
def elInt (f : Fmt) (w : Nat) : Int :=
  match f with
  | .int n => sext n w
  | _ => (w : Int)

/-- TMMA (R287). -/
def Cx.tmma (c : Cx) (o : FmtT) : Eff :=
  c.withTensor (c.th.sr o.a.toNat).toNat false (fun ta => c.withTensor (c.th.sr o.b.toNat).toNat false (fun tb =>
    let tile := c.th.tr o.td.toNat
    let kk := ta.dim 0
    let shape := ta.rank ≤ 2 && tb.rank ≤ 2 && ta.dim 1 ≤ 32 && tb.dim 0 ≤ 32 && kk == tb.dim 1 && kk ≤ 4096
    let int := ta.mmaIntOk && tb.mmaIntOk && tile.int
    let flt := ta.mmaFloatOk && tb.mmaFloatOk && !tile.int
    if !shape || !(int || flt) || ta.scaleKind == 2 || tb.scaleKind == 1 then .exc St.tileInvalid 0 else
    c.withRows ta (fun ra => c.withScales ta (fun sa => c.withRows tb (fun rb => c.withScales tb (fun sb =>
      let one : Val := .fin false 1 0
      let els := ((List.range (ta.dim 1)).zip ra).flatMap (fun r => (List.range (tb.dim 0)).map (fun n =>
        let prods := ((List.range kk).zip rb).map (fun e => (elemAt ta.fmt r.2 e.1, elemAt tb.fmt e.2 n))
        let x : Num Nat :=
          if int then mmaInt (tile.at r.1 n) (prods.map (fun p => (elInt ta.fmt p.1, elInt tb.fmt p.2)))
          else mmaFloat ((ta.scale sa 0 r.1).getD one) ((tb.scale sb n 0).getD one) (tile.at r.1 n)
            (prods.map (fun p => (decode ta.fmt p.1, decode tb.fmt p.2)))
        (r.1, n, x)))
      .retire ((c.th.setTr o.td.toNat (els.foldl (fun (x : Tile) e => x.put e.1 e.2.1 e.2.2.val) tile)).raiseFlags
        (els.foldl (fun fl e => fl ||| e.2.2.fl) 0))))))))

/-! ## Conversions with randomness (R325, R331) -/

/-- A conversion of `n` elements from DRAWPTR on: the random values it may use, and the thread after it; none where a draw
lies outside the range. -/
def Cx.withRandom (c : Cx) (sr : Bool) (n : Nat) (k : Thread → (Nat → Option Nat) → Eff) : Eff :=
  if !sr then k c.th (fun _ => none) else
  let d0 := c.th.drawptr.toNat
  if !c.drawsOk d0 (cdiv n 4) then .exc St.drawRange 0
  else k { c.th with drawptr := c.th.drawptr + BitVec.ofNat 64 (cdiv n 4) } (fun i => some (c.random d0 i))

/-- FCVT. -/
def Cx.fcvt (c : Cx) (o : FmtC) : Eff :=
  match fmtOf o.src.toNat, fmtOf o.dst.toNat with
  | some g, some f =>
    c.withRandom o.sr 1 (fun th r =>
      let x := convertEl f g ((c.th.sr o.a.toNat).toNat % 2 ^ g.width) (r 0)
      .retire ((th.setSr o.d.toNat (scalarOf f x.val)).raiseFlags x.fl))
  | _, _ => .retire c.th

/-- VCVT. -/
def Cx.vcvt (c : Cx) (o : FmtC) : Eff :=
  match fmtOf o.src.toNat, fmtOf o.dst.toNat with
  | some g, some f =>
    let n := vcvtCount f g
    c.withRandom o.sr n (fun th r =>
      let src := vbytes (c.th.vr o.a.toNat)
      let els := joinNums ((List.range n).map (fun i => convertEl f g (elemAt g src i) (r i)))
      .retire ((th.setVr o.d.toNat (unle (packRow f els.val))).raiseFlags els.fl))
  | _, _ => .retire c.th

/-- VMOVE. -/
def Cx.vmove (c : Cx) (o : FmtR) : Eff :=
  let th := c.th
  let k := (th.sr o.b.toNat).toNat
  match o.fn.toNat with
  | 4 => .retire (th.setNat o.d.toNat ((lanes 64 (th.vr o.a.toNat)).getD (k % 16) 0))
  | 5 => .retire (th.setVr o.d.toNat (unlanes 64 (setNth (lanes 64 (th.vr o.d.toNat)) (k % 16) (th.sr o.a.toNat).toNat)))
  | 6 => .retire (th.setVr o.d.toNat (unle (((vbytes (th.vr o.a.toNat) ++ vbytes (th.vr o.d.toNat)).drop (k % 128)).take 128)))
  | 7 => .retire (th.setVr o.d.toNat (th.vr o.a.toNat))
  | fn =>
    let w := 8 * 2 ^ fn
    .retire (th.setVr o.d.toNat (unlanes w (List.replicate (1024 / w) ((th.sr o.a.toNat).toNat % 2 ^ w))))

/-! ## Special registers (R323) -/

/-- SRD. -/
def Cx.special (c : Cx) (n : Nat) : Nat :=
  match n with
  | 0 => c.th.flags
  | 1 => c.th.drawptr.toNat
  | 2 => b2n c.d.det
  | 0x100 => c.a.core
  | 0x101 => c.d.node
  | 0x102 => c.d.ftNs
  | 0x103 => (c.d.clk - c.a.start) * 3 / 10
  | _ => c.a.gen

/-! ## WAIT (R334) -/

/-- The relation of a WAIT: 0 EQ, 1 NE, 2 GEU, 3 LTU. -/
def waitRel (fn a b : Nat) : Bool :=
  match fn with
  | 0 => a == b
  | 1 => a != b
  | 2 => b ≤ a
  | _ => a < b

/-- The address checks of a WAIT: in the media window 0x0104, elsewhere as a load. -/
def Cx.waitOp (c : Cx) (o : FmtR) : Eff :=
  let a := (c.th.sr o.a.toNat).toNat
  let l := a % 2 ^ 52
  if a % 8 ≠ 0 then .exc St.misaligned a
  else if mediaBase ≤ l ∧ l < 2 * mediaBase then .exc St.addressUnmapped a
  else c.withBytes a 8 (fun b => if waitRel o.fn.toNat (unle b) (c.th.sr o.b.toNat).toNat then .retire c.th else .watch)

end Sys2Proof.Machine
end

