-- ==== Sys2Proof/Machine/Thr.lean ====
section
/-! DEFINITION. The thread array (spec 11, spec 12): queues, items, attempts, placement, how instructions retire, and
exceptions. A hardware thread has the number 16 × core + thread; an attempt stands under that of its thread 0. -/

namespace Sys2Proof.Machine

/-! ## Parts of the state -/

def Dev.modThr (d : Dev) (f : Thr → Thr) : Dev := { d with thr := f d.thr }
def Dev.thrQ (d : Dev) (q : Nat) : ThrQ := Map.get ⟨0, []⟩ d.thr.qs q
def Dev.setThrQ (d : Dev) (q : Nat) (x : ThrQ) : Dev := d.modThr (fun t => { t with qs := Map.put ⟨0, []⟩ t.qs q x })
def Dev.modItem (d : Dev) (q i : Nat) (g : ThrItem → ThrItem) : Dev :=
  d.setThrQ q { d.thrQ q with items := (d.thrQ q).items.map (fun x => if x.i = some i then g x else x) }

/-- The attempt of a hardware thread, with the number it stands under. -/
def Dev.attOf (d : Dev) (t : Nat) : Option (Nat × Attempt) :=
  d.thr.atts.find? (fun e => e.1 ≤ t && t < e.1 + e.2.threads.length)

def Dev.setAtt (d : Dev) (k : Nat) (a : Attempt) : Dev := d.modThr (fun t => { t with atts := Map.insert t.atts k a })

def Attempt.setTh (a : Attempt) (ti : Nat) (th : Thread) : Attempt := { a with threads := setNth a.threads ti th }

/-- An attempt ends: its threads stop. -/
def Dev.dropAtt (d : Dev) (k : Nat) : Dev :=
  match Map.find d.thr.atts k with
  | none => d
  | some a =>
    let d := (List.range a.threads.length).foldl (fun d ti => d.disarm (.wait (k + ti))) d
    let d := d.modThr (fun t => { t with atts := Map.erase t.atts k })
    { d with med := { d.med with asks := d.med.asks.filter (fun x => match x with
        | .thread s _ _ _ => s != a.serial
        | _ => true) } }

/-- The queues of a function. -/
def Dev.thrQs (d : Dev) (f : Nat) : List Nat :=
  (((d.img f).eps.filter (fun e => e.kind = 9)).map (fun e => e.inst)).foldl (fun l q => insNat q l) []

/-- The live list of a queue (R301). -/
def Dev.liveCores (d : Dev) (q : Nat) : List Nat :=
  (List.range 1024).filter (fun c => d.get (R.THR_CORE_STATE c) == 1 && d.get (R.THR_CORE_QUEUE c) == q)

def Dev.thrThreads (d : Dev) (f q : Nat) : Nat := fld (d.thrCfg f q) 1 1
def Dev.inSlot (d : Dev) (f q : Nat) : Nat := fld (d.thrCfg f q) 0x18 8
def Dev.outSlot (d : Dev) (f q : Nat) : Nat := fld (d.thrCfg f q) 0x20 8
def Dev.slotCount (d : Dev) (f q : Nat) : Nat := fld (d.thrCfg f q) 0x28 4
/-- The address of the slot of item `i`. -/
def Dev.slotAt (d : Dev) (f q i : Nat) : Nat :=
  fld (d.thrCfg f q) 0x10 8 + i % d.slotCount f q * (d.inSlot f q + d.outSlot f q)

/-- What a stalled item is called among a function's reasons to wait. -/
def stallKey (q i : Nat) : Nat := 2 ^ 56 * (q + 1) + i

/-! ## Placement (R301, R302) -/

/-- An item issued under the generation in force. -/
def Dev.issueItem (d : Dev) (q : Nat) (x : ThrItem) : ThrItem :=
  let live := d.liveCores q
  { x with
    core := live.getD (x.i.getD 0 % live.length) 1024
    gens := d.get (R.THR_Q_STATE_GEN q) :: x.gens
    begun := false }

/-- LIVE and NO_CORES follow the live list (R302, R318). -/
def Dev.liveRegs (d : Dev) (q : Nat) : Dev :=
  let n := (d.liveCores q).length
  (d.set (R.THR_Q_STATE_LIVE q) n).set (R.THR_Q_STATE_NO_CORES q) (b2n (n == 0))

/-- The generation rises by one: items that have not begun, and begun items whose core has left the live list, are issued
anew (R302). -/
def Dev.regenerate (d : Dev) (q : Nat) : Dev :=
  let d := (d.set (R.THR_Q_STATE_GEN q) (d.get (R.THR_Q_STATE_GEN q) + 1)).liveRegs q
  let live := d.liveCores q
  d.setThrQ q { d.thrQ q with items := (d.thrQ q).items.map (fun x =>
    if x.result.isSome ∨ x.stalled = 2 ∨ (x.begun ∧ live.contains x.core) then x
    else { d.issueItem q x with again := x.again || x.begun }) }

/-- Whether a core runs an attempt. -/
def Dev.coreBusy (d : Dev) (c : Nat) : Bool := d.thr.atts.any (fun e => e.2.core = c)

/-- A withdrawal takes effect (R318). -/
def Dev.withdraw (d : Dev) (c : Nat) : Dev :=
  let q := d.get (R.THR_CORE_QUEUE c)
  if d.get (R.THR_CORE_STATE c) ≠ 1 ∨ (d.liveCores q).length ≤ 1 then d
  else (d.set (R.THR_CORE_STATE c) 2).regenerate q

/-- A restore takes effect (R318). -/
def Dev.restore (d : Dev) (c : Nat) : Dev :=
  if d.get (R.THR_CORE_STATE c) ≠ 2 ∨ d.coreBusy c then d
  else (d.set (R.THR_CORE_STATE c) 1).regenerate (d.get (R.THR_CORE_QUEUE c))

/-- What waits for a device tick. -/
def Dev.thrTick (d : Dev) : Dev :=
  let r := d.thr.reqs
  r.foldl (fun d e => if e.2 then d.withdraw e.1 else d.restore e.1) (d.modThr (fun t => { t with reqs := [] }))

/-- A core fails (R308): its threads stop, and it leaves every live list until reset. -/
def Dev.coreFail (d : Dev) (c : Nat) : Dev :=
  let st := d.get (R.THR_CORE_STATE c)
  if st = 3 then d else
  let d := (d.thr.atts.filter (fun e => e.2.core = c)).foldl (fun d e => d.dropAtt e.1) d
  let d := ((d.set (R.THR_CORE_STATE c) 3).setSt (R.THR_CORE_ERR_STATUS c) St.coreError).raise 448 c
  if st = 0 then d else d.regenerate (d.get (R.THR_CORE_QUEUE c))

def execCoreWithdraw (c : Nat) (s : State) : Host.Outcome State Fault Refusal :=
  s.act .engine (fun d => if c < d.get R.GLB_UNITS_THR_CORES then d.modThr (fun t => { t with reqs := t.reqs ++ [(c, true)] }) else d)

def execCoreRestore (c : Nat) (s : State) : Host.Outcome State Fault Refusal :=
  s.act .engine (fun d => if c < d.get R.GLB_UNITS_THR_CORES then d.modThr (fun t => { t with reqs := t.reqs ++ [(c, false)] }) else d)

/-! ## Acceptance and emission (R298, R303, R304) -/

/-- Accepted items leave in order of admission. -/
def Dev.emitItems (d : Dev) (q : Nat) : Dev :=
  let x := d.thrQ q
  let out := x.items.takeWhile (fun e => e.result.isSome)
  let d := d.setThrQ q { x with items := x.items.drop out.length }
  match d.epOf 9 q true 0 with
  | none => d
  | some (_, ep) => out.foldl (fun d e => match e.result with
    | none => d
    | some (st, b) => d.pushOut ep.ep (if st = 0 then granulesOf e.pos e.tok e.idx b true else [defectMark e.pos e.tok e.idx st])) d

/-- STALLED follows the items that wait (R307). -/
def Dev.stalledReg (d : Dev) (q : Nat) : Dev :=
  d.set (R.THR_Q_STATE_STALLED q) (b2n ((d.thrQ q).items.any (fun e => e.stalled != 0 && e.result.isNone)))

/-- The queue has finished with an item; a defect is declared here where the queue has no output (R211). -/
def Dev.queueDone (d : Dev) (f q : Nat) (e : ThrItem) (st : Status) : Dev :=
  (if st ≠ 0 ∧ (d.epOf 9 q true 0).isNone then d.declareDefect f e.pos e.tok st else d).stageComplete f 9 q e.pos e.tok

/-- An item accepted with a defect status or 0 and its output: its token is retired and its other attempts stop. -/
def Dev.acceptItem (d : Dev) (f q i : Nat) (st : Status) (out : Bytes) : Dev :=
  match (d.thrQ q).items.find? (fun e => e.i = some i) with
  | none => d
  | some e =>
    let d := (d.thr.atts.filter (fun x => x.2.q = q && x.2.i = i)).foldl (fun d x => d.dropAtt x.1) d
    let d := d.modItem q i (fun e => { e with
      result := some (st, out)
      stalled := 0 })
    let d := ((d.retire (poolNo 4 f) 1).addWord (R.THR_Q_ITEMS q) 1).stalledReg q
    let d := if e.stalled = 0 then d else d.unstall f (stallKey q i)
    (d.queueDone f q e st).emitItems q

/-- An attempt completes: judged by its completion token (R303). -/
def Dev.thrComplete (d : Dev) (f k : Nat) (a : Attempt) (len : Nat) (st : Status) : Dev :=
  let d := d.dropAtt k
  match (d.thrQ a.q).items.find? (fun e => e.i = some a.i) with
  | none => d.inc (R.THR_Q_MIGR_INVALID a.q)
  | some e =>
    if e.result.isSome then d.inc (R.THR_Q_MIGR_DUPLICATES a.q)
    else if !e.gens.contains a.gen then d.inc (R.THR_Q_MIGR_INVALID a.q)
    else if st ≠ 0 then d.acceptItem f a.q a.i st []
    else if d.outSlot f a.q < len then d.acceptItem f a.q a.i St.outputLimit []
    else d.acceptItem f a.q a.i 0 (d.read (d.slotAt f a.q a.i + d.inSlot f a.q) len)

/-! ## Admission (R296) -/

/-- The lowest whole sample at the queue's input enters its slot. -/
def Dev.queueAdmit (d : Dev) (q : Nat) : Dev :=
  match d.epOf 9 q false 0 with
  | none => d
  | some (f, ep) =>
    if d.halted f then d else
    let inq := d.inQ ep.ep
    match lowest inq with
    | none => d
    | some (p, t, idx) =>
      let mine := inq.filter (fun g => g.pos = p && g.tok = t)
      let x := d.thrQ q
      let i := x.next
      let n := d.slotCount f q
      if !mine.any (fun g => g.last) || !d.mayBegin f 9 q p then d else
      let rest := inq.filter (fun g => !(g.pos = p && g.tok = t))
      let mark := mine.foldl (fun m g => if g.defect = 0 then m else g.defect) 0
      let b := mine.flatMap (fun g => g.data)
      let e : ThrItem := ⟨none, p, t, idx, b.length, 1024, [], false, false, none, 0⟩
      if mark ≠ 0 then
        let d := (d.setInQ ep.ep rest).setThrQ q { x with items := x.items ++ [{ e with result := some (mark, []) }] }
        (d.queueDone f q e mark).emitItems q
      else if x.items.any (fun y => y.i.any (fun j => j % n = i % n)) || d.thr.atts.any (fun y => y.2.q = q && y.2.i % n = i % n) then d
      else
        let d := (d.setInQ ep.ep rest).issue (poolNo 4 f) 1
        let e := d.issueItem q { e with i := some i }
        let d := d.setThrQ q ⟨i + 1, x.items ++ [e]⟩
        if d.inSlot f q < b.length then d.acceptItem f q i St.outputLimit []
        else d.write (d.slotAt f q i) b

def execQueueItemAdmit (q : Fin 256) (s : State) : Host.Outcome State Fault Refusal :=
  s.act .engine (fun d => d.queueAdmit q)

/-! ## Start of an attempt (R297, R301) -/

/-- A local address as a thread names it: with the self alias in bits 63:52 (R41). -/
def selfAddr (a : Nat) : Nat := 0xFFF * 2 ^ 52 + a

def Thread.fresh : Thread :=
  { s := [], v := [], t := [], p := 0, pc := 0, flags := 0, drawptr := 0, st := 0, out := 0, got := [], sent := false,
    fail := none, old := 0 }

/-- The completion token (R303). -/
def completionToken (q f gen i : Nat) : Nat := q * 2 ^ 56 + f * 2 ^ 52 + gen * 2 ^ 32 + i % 2 ^ 32

/-- Item `x` starts on a free thread group of `core`. -/
def Dev.beginItem (d : Dev) (f q core : Nat) (x : ThrItem) : Dev :=
  let n := d.thrThreads f q
  match x.i, findNat (fun g => !d.thr.atts.any (fun e => e.1 = 16 * core + n * g)) (16 / n) 0 with
  | some i, some g =>
    let scr := fld (d.thrCfg f q) 0xC 4
    let win := scratchBase + 0x40000 * core + scr * g
    let slot := d.slotAt f q i
    let gen := x.gens.headD 0
    let sid := d.sampleId f x.idx
    let ep := d.epochOf f x.pos
    let regs : List Nat := [selfAddr slot, x.len, selfAddr (slot + d.inSlot f q), d.outSlot f q, x.pos, sid, ep]
    let regs2 : List Nat := [fld (d.thrCfg f q) 0x30 8, selfAddr win, completionToken q f gen i]
    let mk := fun (ti : Nat) =>
      let th := { Thread.fresh with
        pc := 4 * (d.kernelFld f q 0 4 + d.kernelFld f q 8 4)
        drawptr := BitVec.ofNat 64 (fld (d.thrCfg f q) 0x30 8) }
      ((List.range 11).zip (regs ++ [ti] ++ regs2)).foldl (fun (th : Thread) e => th.setNat e.1 e.2) th
    let a : Attempt := ⟨d.thr.serial, q, i, gen, core, x.pos, sid, ep, d.clk, 0, (List.range n).map mk⟩
    let d := (d.zero win scr).modThr (fun t => { t with serial := t.serial + 1 })
    let d := (d.setAtt (16 * core + n * g) a).modItem q i (fun y => { y with
      core := core
      begun := true
      again := false })
    if x.again then d.inc (R.THR_Q_MIGR_REISSUED q) else d
  | _, _ => d

/-- Whether a core is live in a queue and has a free thread group. -/
def Dev.groupFree (d : Dev) (f q core : Nat) : Bool :=
  (d.liveCores q).contains core && (d.thr.atts.filter (fun e => e.2.core = core)).length < 16 / max 1 (d.thrThreads f q)

/-- Items that have not begun. -/
def Dev.unbegun (d : Dev) (q : Nat) : List ThrItem := (d.thrQ q).items.filter (fun e => e.i.isSome && e.result.isNone && !e.begun)

def Dev.attemptStart (d : Dev) (q core : Nat) : Dev :=
  match d.owner 9 q with
  | none => d
  | some f =>
    if d.halted f || !d.groupFree f q core then d else
    match (d.unbegun q).find? (fun e => e.core = core) with
    | some x => d.beginItem f q core x
    | none => d

def execAttemptStart (q : Fin 256) (core : Nat) (s : State) : Host.Outcome State Fault Refusal :=
  s.act .engine (fun d => d.attemptStart q core)

/-- A live core takes over the lowest item issued to another live core (R301). -/
def Dev.itemSteal (d : Dev) (q core : Nat) : Dev :=
  match d.owner 9 q with
  | none => d
  | some f =>
    if d.det || d.halted f || !d.groupFree f q core then d else
    match (d.unbegun q).find? (fun e => e.core ≠ core && (d.liveCores q).contains e.core) with
    | some x => (d.beginItem f q core x).addWord (R.THR_Q_STEAL q) 1
    | none => d

def execItemSteal (q : Fin 256) (core : Nat) (s : State) : Host.Outcome State Fault Refusal :=
  s.act .engine (fun d => d.itemSteal q core)

/-! ## Exceptions (R337 to R340) -/

/-- Whether a status is of the PROGRAM class (R337). -/
def programClass (st : Status) : Bool :=
  st == St.misaligned || st == St.drawRange || st == St.completionInvalid || st == St.pcInvalid || st == St.tileInvalid || st == St.detForbidden

/-- An exception ends the attempt without a completion. -/
def Dev.thrExc (d : Dev) (f k : Nat) (a : Attempt) (ti : Nat) (st : Status) (addr pc word : Nat) : Dev :=
  let q := a.q
  let prog := programClass st
  let d := d.dropAtt k
  let d := (d.setSt (R.THR_Q_EXC_STATUS q) st).set (R.THR_Q_EXC_THREAD q) ti
  let d := (d.set (R.THR_Q_EXC_CLASS q) (if prog then 2 else 1)).set (R.THR_Q_EXC_ITEM q) (a.i % 2 ^ 32)
  let d := (d.set (R.THR_Q_EXC_PC_WORD q) word).set (R.THR_Q_EXC_PC_PC q) (pc % 2 ^ 32)
  let d := d.setWord (R.THR_Q_EXC_ADDR q) (BitVec.ofNat 64 addr)
  let d := d.inc (if prog then R.THR_Q_EXC_COUNT_PROGRAM q else R.THR_Q_EXC_COUNT_ACCESS q)
  if d.thr.atts.any (fun e => e.2.q = q && e.2.i = a.i) then d else
  let d := d.modItem q a.i (fun e => { e with stalled := if prog then 2 else max 1 e.stalled })
  let d := (d.setSt (R.THR_Q_STATE_STATUS q) st).stalledReg q
  (d.stall f (stallKey q a.i) st).raise 450 q

/-- At each of the function's boundaries a stalled item gets a new attempt (R307, R338). -/
def Dev.thrBoundary (d : Dev) (f : Nat) : Dev :=
  (d.thrQs f).foldl (fun d q => d.setThrQ q { d.thrQ q with items := (d.thrQ q).items.map (fun e =>
    match e.i with
    | none => e
    | some i =>
      if e.stalled = 1 ∧ e.result.isNone ∧ !d.thr.atts.any (fun x => x.2.q = q && x.2.i = i) then { e with begun := false } else e) }) d

/-! ## What START, KILL, a load and an unload do -/

/-- Every attempt of a queue stops and every item is gone: tokens not yet retired are discarded (R306). -/
def Dev.thrClear (d : Dev) (f q : Nat) : Dev :=
  let d := (d.thr.atts.filter (fun e => e.2.q = q)).foldl (fun d e => d.dropAtt e.1) d
  let n := ((d.thrQ q).items.filter (fun e => e.i.isSome && e.result.isNone)).length
  ((d.setThrQ q ⟨0, []⟩).retire (poolNo 4 f) n).stalledReg q

def Dev.thrKill (d : Dev) (f : Nat) : Dev := (d.thrQs f).foldl (fun d q => d.thrClear f q) d

/-- Items are numbered from 0 again at a start (R296). -/
def Dev.thrStart (d : Dev) (f : Nat) : Dev := (d.thrQs f).foldl (fun d q => d.setThrQ q { d.thrQ q with next := 0 }) d

/-- Whether the function's queues are quiet (R306). -/
def Dev.thrQuiet (d : Dev) (f : Nat) : Bool :=
  (d.thrQs f).all (fun q => (d.thrQ q).items.all (fun e => e.result.isSome) && !d.thr.atts.any (fun e => e.2.q = q))

/-- The cores of a queue's record. -/
def Dev.boundCores (d : Dev) (f q : Nat) : List Nat :=
  (List.range (fld (d.thrCfg f q) 0xA 2)).map (fun k => fld (d.thrCfg f q) 8 2 + k)

/-- A loaded blend binds its queues and their cores: generation 0, the counters from 0 (R301, R318, R340). -/
def Dev.thrBind (d : Dev) (f : Nat) : Dev :=
  (d.thrQs f).foldl (fun d q =>
    let d := (List.range 8).foldl (fun d k => d.setWord (R.THR_Q_STATE q + 8 * k) 0) d
    let d := (d.set (R.THR_Q_STATE_FUNCTION q) f).set (R.THR_Q_STATE_BOUND q) 1
    let d := (d.boundCores f q).foldl (fun d c =>
      if d.get (R.THR_CORE_STATE c) = 3 then d.set (R.THR_CORE_QUEUE c) q
      else (d.set (R.THR_CORE_STATE c) 1).set (R.THR_CORE_QUEUE c) q) d
    d.liveRegs q) d

/-- An unload unbinds them; a failed core stays FAILED. -/
def Dev.thrUnbind (d : Dev) (f : Nat) : Dev :=
  (d.thrQs f).foldl (fun d q =>
    let d := d.thrClear f q
    let d := (d.boundCores f q).foldl (fun d c =>
      if d.get (R.THR_CORE_STATE c) = 3 then d else (d.set (R.THR_CORE_STATE c) 0).set (R.THR_CORE_QUEUE c) 0) d
    d.setWord (R.THR_Q_STATE q) 0) d

/-! ## Retirement (R299, R333, R335) -/

/-- The thread with nothing pending, at a code address. -/
def Thread.goTo (th : Thread) (pc : Nat) : Thread :=
  { th with
    pc := pc
    st := 0
    out := 0
    got := []
    sent := false
    fail := none }

/-- A thread goes on at a code address; running on past the range raises PC_INVALID (R335). -/
def Dev.thrGoOn (d : Dev) (f k : Nat) (a : Attempt) (ti : Nat) (th : Thread) (pc : Nat) : Dev :=
  let a := a.setTh ti (th.goTo pc)
  if d.inCode f a.q pc then d.setAtt k a else (d.setAtt k a).thrExc f k a ti St.pcInvalid 0 pc 0

/-- An instruction counted (R299). -/
def Attempt.counted (a : Attempt) : Attempt := { a with retired := a.retired + 1 }

/-- Whether the next instruction would start a unit beyond the work cap. -/
def Dev.capEnds (d : Dev) (f : Nat) (a : Attempt) : Bool :=
  a.retired % 1024 == 0 &&
    (match (d.thrQ a.q).items.find? (fun e => e.i = some a.i) with
      | none => false
      | some e => !withinCap (d.workCap f 9 a.q e.idx) (a.retired / 1024 + 1))

/-- A BAR is passed once every thread that has not halted stands at one (R333). -/
def Dev.barCheck (d : Dev) (f k : Nat) : Dev :=
  match Map.find d.thr.atts k with
  | none => d
  | some a =>
    if a.threads.any (fun th => th.st = 0 || th.st = 3) || !a.threads.any (fun th => th.st = 2) then d else
    (List.range a.threads.length).foldl (fun d ti =>
      match Map.find d.thr.atts k with
      | none => d
      | some a =>
        match a.threads[ti]? with
        | none => d
        | some th => if th.st = 2 then d.thrGoOn f k a ti th (th.pc + 4) else d) d

/-! ## Accesses that other units serve -/

def partAt (a n : Nat) : PartSt := ⟨true, 0, a % 2 ^ 52, 0, n, 0, 0, 0⟩

/-- Bytes from the media window or from another node are asked for. -/
def Dev.thrNeed (d : Dev) (f k : Nat) (a : Attempt) (ti : Nat) (th : Thread) (addr n : Nat) (iss : Issuer) : Dev :=
  let th := { th with
    out := 1
    got := th.got ++ [⟨addr, n, 0xFFFF, []⟩] }
  let d := d.setAtt k (a.setTh ti th)
  if d.isLocal addr then { d with med := { d.med with asks := d.med.asks ++ [.thread a.serial (k + ti) addr n] } }
  else d.xptIssue f (addr / 2 ^ 52) iss (a.serial * 4096) 1 0 0 0 [partAt addr n] []

/-- What was asked for has come. -/
def Dev.thrGot (d : Dev) (t serial : Nat) (st : Status) (b : Bytes) : Dev :=
  match d.attOf t with
  | none => d
  | some (k, a) =>
    match a.threads[t - k]? with
    | none => d
    | some th =>
      if a.serial ≠ serial then d else
      d.setAtt k (a.setTh (t - k) { th with
        out := 0
        got := th.got.map (fun g => if g.status = 0xFFFF then { g with
          status := st
          data := b } else g) })

/-- Stores issued: those of other nodes leave as WRITE requests. -/
def Dev.thrSend (d : Dev) (f k : Nat) (a : Attempt) (ti : Nat) (th : Thread) (ws : List (Nat × Bytes)) : Dev :=
  let far := ((List.range ws.length).zip ws).filter (fun e => !d.isLocal e.2.1)
  let d := d.setAtt k (a.setTh ti { th with
    out := far.length
    sent := true
    got := ws.map (fun w => ⟨w.1, w.2.length, 0, w.2⟩) })
  far.foldl (fun d e => d.xptIssue f (e.2.1 / 2 ^ 52) (.thread (k + ti)) (a.serial * 4096 + e.1) 0 0 0 0
    [partAt e.2.1 e.2.2.length] e.2.2) d

/-- The CTL word of an atomic request (R380). -/
def atomCtl (kind aop sz fmt : Nat) : Nat := aop + 8 * kind + 32 * sz + 128 * fmt

/-- An atomic on another node's memory leaves. -/
def Dev.thrAtom (d : Dev) (f k : Nat) (a : Attempt) (ti : Nat) (th : Thread) (addr ctl opd new n : Nat) : Dev :=
  let d := d.setAtt k (a.setTh ti { th with
    out := 1
    sent := true
    got := [⟨addr, n, 0, []⟩] })
  d.xptIssue f (addr / 2 ^ 52) (.thread (k + ti)) (a.serial * 4096) 2 ctl opd new [partAt addr 8] []

/-- Completions of threads' requests taken in. -/
def Dev.settleThreads (d : Dev) : Dev :=
  let mine := d.xpt.done.filter (fun c => match c.issuer with
    | .thread _ => true
    | .wait _ => true
    | _ => false)
  let d := d.modXpt (fun x => { x with done := x.done.filter (fun c => match c.issuer with
    | .thread _ => false
    | .wait _ => false
    | _ => true) })
  mine.foldl (fun d c =>
    let t := match c.issuer with
      | .thread t => t
      | .wait t => t
      | _ => 0
    match d.attOf t with
    | none => d
    | some (k, a) =>
      match a.threads[t - k]? with
      | none => d
      | some th =>
        if a.serial ≠ c.token / 4096 then d
        else if !th.sent then d.thrGot t a.serial c.status c.data
        else
          let at_ := ((th.got[c.token % 4096]?).map (fun g => g.addr)).getD 0
          d.setAtt k (a.setTh (t - k) { th with
            out := th.out - 1
            old := c.result
            fail := if (c.status != (0 : Status)) && th.fail.isNone then some (c.status, at_) else th.fail })) d

/-! ## One instruction -/

/-- The local stores of an instruction that retires. -/
def Dev.thrStores (d : Dev) (ws : List (Nat × Bytes)) : Dev :=
  ws.foldl (fun d w => if d.isLocal w.1 then d.write (w.1 % 2 ^ 52) w.2 else d) d

/-- An instruction's effect carried out. -/
def Dev.thrDo (d : Dev) (f k : Nat) (a : Attempt) (ti : Nat) (th : Thread) (word : Nat) (e : Eff) : Dev :=
  let next := th.pc + 4
  match e with
  | .retire th => d.thrGoOn f k a.counted ti th next
  | .jump th pc => d.thrGoOn f k a.counted ti th pc
  | .need addr n => (d.thrNeed f k a ti th addr n (.thread (k + ti))).settleThreads
  | .exc st addr => d.thrExc f k a ti st addr th.pc word
  | .store th ws =>
    if ws.all (fun w => d.isLocal w.1) then (d.thrStores ws).thrGoOn f k a.counted ti th next
    else (d.thrSend f k a ti th ws).settleThreads
  | .atom addr kind aop sz fmt opd new dst =>
    if d.isLocal addr then
      let (old, d) := d.atomicAt kind aop sz fmt opd new (addr % 2 ^ 52)
      d.thrGoOn f k a.counted ti (match dst with
        | some r => th.setNat r old
        | none => th) next
    else (d.thrAtom f k a ti th addr (atomCtl kind aop sz fmt) opd new (atomSize kind sz fmt)).settleThreads
  | .watch =>
    let t := (th.sr (bits word 20 15)).toNat
    let d := d.setAtt k (a.setTh ti { th with
      st := 3
      got := [] })
    if t = 0 then d else d.arm (.wait (k + ti)) (cdiv (10 * t) 3)
  | .barrier => (d.setAtt k (a.counted.setTh ti { th with st := 2 })).barCheck f k
  | .finish len st => d.thrComplete f k a.counted len (BitVec.ofNat 16 st)
  | .halt => (d.setAtt k (a.counted.setTh ti { th with st := 1 })).barCheck f k

/-- An instruction whose stores or atomic have been issued to other nodes retires, or fails (R307). -/
def Dev.thrLanded (d : Dev) (f k : Nat) (a : Attempt) (ti : Nat) (th : Thread) (word : Nat) (e : Eff) : Dev :=
  match th.fail with
  | some (st, addr) => d.thrExc f k a ti st addr th.pc word
  | none =>
    match e with
    | .atom _ _ _ _ _ _ _ dst => d.thrGoOn f k a.counted ti (match dst with
        | some r => th.setNat r th.old
        | none => th) (th.pc + 4)
    | _ => (d.thrStores (th.got.map (fun g => (g.addr, g.data)))).thrGoOn f k a.counted ti th (th.pc + 4)

/-- A thread's instruction: it has its effect where the thread stands at this very word. -/
def Dev.gtcRun (d : Dev) (t : Nat) (i : Sys2Proof.Instr) (g : Guard) (body : Cx → Eff) : Dev :=
  match d.attOf t with
  | none => d
  | some (k, a) =>
    match a.threads[t - k]?, d.owner 9 a.q with
    | some th, some f =>
      let w := d.codeWord f th.pc
      if th.st ≠ 0 ∨ th.out ≠ 0 ∨ !d.inCode f a.q th.pc ∨ Sys2Proof.gtcEncode i ≠ some w then d
      else if !th.sent && d.capEnds f a then d.thrComplete f k a 0 St.workCap
      else if (th.pr g.pred.toNat ^^ g.neg) = false then d.thrGoOn f k a.counted (t - k) th (th.pc + 4)
      else
        let e := body ⟨d, f, a, t - k, th⟩
        if th.sent then d.thrLanded f k a (t - k) th w e else d.thrDo f k a (t - k) th w e
    | _, _ => d

/-- The meaning of a GTC command. -/
def gtcStep (t : Nat) (i : Sys2Proof.Instr) (g : Guard) (body : Cx → Eff) (s : State) : Host.Outcome State Fault Refusal :=
  s.act .engine (fun d => d.gtcRun t i g body)

/-! ## Media-window reads (R147) -/

/-- The oldest media-window read gets its codeword. -/
def Dev.mediaAsk (d : Dev) (o : CwOutcome) : Dev :=
  match d.med.asks with
  | [] => d
  | x :: r =>
    let d := { d with med := { d.med with asks := r } }
    match x with
    | .thread serial t addr len =>
      let ((st, b), d) := d.windowRead (addr % 2 ^ 52) len o
      d.thrGot t serial st b
    | .remote qp psn win addr len stamp =>
      let ((st, b), d) := d.windowRead addr len o
      d.answerMedia qp psn win len stamp st b

def execMediaWindowRead (o : CwOutcome) (s : State) : Host.Outcome State Fault Refusal :=
  s.act .engine (fun d => d.mediaAsk o)

end Sys2Proof.Machine
end

