-- ==== Sys2Proof/Machine/Ledger.lean ====
section
/-! DEFINITION. The ledger's checks and what a fatal cause does (spec 18, R467 to R475). -/

namespace Sys2Proof.Machine

/-! ## What the holders hold (R468, R469) -/

/-- Units of frames received on port `p` that still stand in a queue. -/
def Dev.inputHeld (d : Dev) (p : Nat) : Nat :=
  d.fab.links.foldl (fun n e => e.2.allPkts.foldl (fun n k => if k.inPort = some p then n + k.inUnits else n) n) 0

/-- HELD of pool KIND `kind` of function `f`, of a device pool, or of a port pool summed over ports. -/
def Dev.held (d : Dev) (kind f : Nat) : Nat :=
  let r := d.fn f
  match kind with
  | 1 => (d.img f).chans.foldl (fun n c => n + (d.chan c).q.length) 0
  | 2 => (d.img f).chans.foldl (fun n c => n + (d.chan c).q.length) 0
  | 3 => (r.live.filter (fun l => !l.placed)).length
  | 4 => (d.thrQs f).foldl (fun n q => n + ((d.thrQ q).items.filter (fun e => e.i.isSome && e.result.isNone)).length) 0
  | 5 => r.batches.length
  | 6 => (r.reads.filter (fun x => !x.fin)).length
  | 7 => d.col.groups.foldl (fun n e => if e.2.fn = f then n + e.2.runs.length else n) 0
  | 0x10 => d.xpt.miss.length + d.missReserved
  | 0x11 => d.xpt.store
  | 0x12 => d.fab.links.foldl (fun n e => n + d.inputHeld e.1) 0
  | 0x13 => d.fab.links.foldl (fun n e => n + e.2.replayUnits) 0
  | 0x14 => d.fab.links.foldl (fun n e => n + e.2.allPkts.length) 0
  | 0x15 => d.sec.signQ.length
  | _ => 0

/-- The size of a pool, where it has one. -/
def Dev.poolSize (d : Dev) (kind f : Nat) : Option Nat :=
  match kind with
  | 1 => some ((d.img f).chans.foldl (fun n c => n + c.credits) 0)
  | 2 => some ((d.img f).chans.foldl (fun n c => n + c.credits) 0)
  | 6 => some ((d.img f).medSlots.foldl (fun n c => n + c) 0)
  | 0x10 => some 512
  | 0x11 => some 8192
  | 0x14 => some 2097152
  | 0x15 => some 256
  | _ => none

/-- Whether a pool passes its check. -/
def Dev.poolOk (d : Dev) (kind f : Nat) : Bool :=
  let k := poolNo kind f
  let h := d.held kind f
  (d.word (R.LGR_POOL_ISSUED k)).toNat == (d.word (R.LGR_POOL_RETIRED k)).toNat + h &&
    (match d.poolSize kind f with
      | some n => h ≤ n
      | none => true)

/-- ISSUED (`k` 0) or RETIRED (`k` 1) of a port pool of port `p`. -/
def Dev.portCount (d : Dev) (kind p k : Nat) : Nat := Map.get 0 d.lgr.ports (4 * p + 2 * (kind - 0x12) + k)

/-- HELD of a port pool of port `p`. -/
def Dev.portHeld (d : Dev) (kind p : Nat) : Nat := if kind = 0x12 then d.inputHeld p else (d.link p).replayUnits

/-- Units received on virtual lane `v` of port `p` that still stand in a queue. -/
def Dev.laneHeld (d : Dev) (p v : Nat) : Nat :=
  d.fab.links.foldl (fun n e => e.2.allPkts.foldl (fun n k => if k.inPort = some p ∧ k.vl = v then n + k.inUnits else n) n) 0

/-- Whether a port pool of port `p` passes its check. -/
def Dev.portOk (d : Dev) (kind p : Nat) : Bool :=
  d.portCount kind p 0 == d.portCount kind p 1 + d.portHeld kind p &&
    (if kind = 0x12 then (List.range 8).all (fun v => d.laneHeld p v ≤ d.fab.allotOf (d.link p).width v)
      else (d.link p).replayUnits ≤ 1024 * (d.link p).width)

/-- The lowest port whose receive units (KIND 0x12) or replay entries (KIND 0x13) fail their check. -/
def Dev.portBad (d : Dev) (kind : Nat) : Option Nat :=
  if kind ≠ 0x12 ∧ kind ≠ 0x13 then none else (d.fab.links.find? (fun e => !d.portOk kind e.1)).map (·.1)

/-- The function pools and the device pools. -/
def fnPools : List Nat := [1, 2, 3, 4, 5, 6, 7]
def devPools : List Nat := [0x10, 0x11, 0x12, 0x13, 0x14, 0x15]

/-! ## Fatal errors (R474, R475) -/

/-- A fatal cause abandons an update that is PREPARING (R508). -/
def Dev.dropUpdate (d : Dev) : Dev :=
  if d.get R.MGT_FW_STATUS_STATE ≠ 2 then d else
  let d := { d with mgt := { d.mgt with fw := none } }
  ((d.set R.MGT_FW_STATUS_STATE 0).set R.MGT_FW_STATUS_DONE 1).setSt R.MGT_FW_STATUS_STATUS St.deviceFatal

/-- A fatal cause arises: FATAL and CAUSE, the latched state, and every fabric port to DISABLED. The engines stop
because no command of theirs has an effect from here on. -/
def Dev.goFatal (d : Dev) (cause : Status) : Dev :=
  let d := d.report 0xFF 0x0D cause 0
  if d.fatal then d else
  let d := (d.set R.LGR_STATUS_FATAL 1).setSt R.LGR_STATUS_CAUSE cause
  let l : Latch := { regs := d.regs, clk := d.clk, timers := d.timers, irq := d.irq, tim := d.tim, fab := d.fab, ports := d.lgr.ports }
  let d := { d with lgr := { d.lgr with latch := some l } }
  let d := d.set R.LGR_STATUS_DUMP 1
  d.dropUpdate.disableAll

/-! ## Checks (R470, R472) -/

/-- LGR_MISMATCH names the pool, and the device goes to fatal-error handling. -/
def Dev.mismatch (d : Dev) (kind f : Nat) (port : Option Nat) : Dev :=
  let d := ((d.set R.LGR_MISMATCH_KIND kind).set R.LGR_MISMATCH_FUNCTION f).set R.LGR_MISMATCH_PORT (port.getD 0xFFFF)
  (d.set R.LGR_MISMATCH_VALID 1).goFatal St.ledgerMismatch

/-- The function's pools are checked. -/
def Dev.checkFn (d : Dev) (f : Nat) : Dev :=
  match fnPools.find? (fun k => !d.poolOk k f) with
  | some k => d.mismatch k f none
  | none => d

/-- The device-wide pools are checked. -/
def Dev.checkDev (d : Dev) : Dev :=
  match devPools.find? (fun k => !d.poolOk k 0 || (d.portBad k).isSome) with
  | some k => d.mismatch k 0 (if k = 0x12 ∨ k = 0x13 then some ((d.portBad k).getD 0xFFFF) else none)
  | none => d

/-- Every pool of a boundary: the function's, then the device's (R37 row 1). -/
def Dev.checkAll (d : Dev) (f : Nat) : Dev :=
  let e := d.checkFn f
  if e.fatal then e else e.checkDev

/-- After a KILL or an unload the function's pools hold nothing (R470). -/
def Dev.checkEmpty (d : Dev) (f : Nat) : Dev :=
  match fnPools.find? (fun k => !d.poolOk k f || d.held k f != 0) with
  | some k => d.mismatch k f none
  | none => d

end Sys2Proof.Machine
end

