-- ==== Sys2Proof/Machine/Int.lean ====
section
/-! DEFINITION. The interrupt controller, host interrupts, the host link's state, watchdogs and the management ports
(spec 19, R490 to R502, R509). -/

namespace Sys2Proof.Machine

/-! ## Delivery to the management cores (R494, R495) -/

def Dev.srcPrio (d : Dev) (s : Nat) : Nat := d.get (R.INT_SRC_CTRL_PRIORITY s)

/-- CURRENT of target `t`: the largest of its TPR and the priorities of the sources in service at it. -/
def Dev.current (d : Dev) (t : Nat) : Nat :=
  d.irq.service.foldl (fun n e => if e.2 = t then max n (d.srcPrio e.1) else n) (d.get (R.INT_TGT_CTRL_TPR t))

/-- The source that INT_TGT_CLAIM_t shows: the one of highest priority in service, the lowest number among equals. -/
def Dev.claim (d : Dev) (t : Nat) : Option Nat :=
  let mine := (d.irq.service.filter (fun e => e.2 = t)).map (·.1)
  let top := mine.foldl (fun n s => max n (d.srcPrio s)) 0
  (mine.filter (fun s => d.srcPrio s = top)).foldl (fun o s => match o with
    | none => some s
    | some x => some (min x s)) none

/-- The pending sources in the order in which INT takes them. -/
def Dev.takeOrder (d : Dev) : List Nat :=
  (List.range 255).flatMap (fun i => d.irq.pend.filter (fun s => d.srcPrio s = 255 - i))

/-- The target that a source goes to, where one is eligible. `used` have received a source in this cycle. -/
def Dev.pickTarget (d : Dev) (s : Nat) (used : List Nat) : Option Nat :=
  let el := (List.range 16).filter (fun t => (d.get (R.INT_SRC_CTRL_TARGETS s)).testBit t && d.has (R.INT_TGT_CTRL_ENABLE t)
    && d.current t < d.srcPrio s && !used.contains t)
  let low := el.foldl (fun n t => min n (d.current t)) 256
  let tie := el.filter (fun t => d.current t = low)
  match tie.find? (fun t => d.irq.rot ≤ t) with
  | some t => some t
  | none => tie.head?

/-- One management cycle of INT. -/
def Dev.deliver (d : Dev) : Dev :=
  (d.takeOrder.foldl (fun (acc : Dev × List Nat) s =>
    let (d, used) := acc
    if d.irq.inService s then acc else
    match d.pickTarget s used with
    | none => acc
    | some t =>
      ({ d with irq := { d.irq with
          pend := d.irq.pend.filter (· != s)
          count := Map.erase d.irq.count s
          service := d.irq.service ++ [(s, t)]
          rot := (t + 1) % 16 } }, t :: used)) (d, [])).1

/-- A write of `s` to INT_TGT_EOI_t. -/
def Dev.eoi (d : Dev) (t s : Nat) : Dev :=
  { d with irq := { d.irq with service := d.irq.service.filter (fun e => e ≠ (s, t)) } }

def execIntEoi (t : Fin 16) (src : BitVec 10) (s : State) : Host.Outcome State Fault Refusal :=
  s.act .live (fun d => (d.eoi t.val src.toNat).reply St.ok)

/-- A write of 1 to INT_SRC_CTRL_s.PEND (R493). -/
def Dev.setPending (d : Dev) (s : Nat) : Dev := d.pendSource s (!d.irq.pend.contains s) (d.has (R.INT_SRC_CTRL_HOST s))

def execIntPendWrite (src : BitVec 10) (s : State) : Host.Outcome State Fault Refusal :=
  s.act .live (fun d => (d.setPending src.toNat).reply St.ok)

/-! ## Host interrupts (R496, R497) -/

/-- Whether the host link, or for a relayed device its relay path, is UP. -/
def Dev.hostPathUp (d : Dev) : Bool := d.mgt.hostUp || d.mgt.relayPort.isSome

/-- A transaction sent towards the host. -/
def Dev.toHost (d : Dev) (t : Txn) : Dev :=
  if d.mgt.hostUp then d.emit (.host t) else
  match d.mgt.relayPort with
  | some p => d.sendRelay p t
  | none => d

/-- The HOST_INT transaction of a source. -/
def Dev.hostIntTxn (d : Dev) (s : Nat) : Txn :=
  { kind := 8, index := BitVec.ofNat 8 (d.get R.MGT_HOST_INDEX), tag := 0, status := 0, rsv := false, addr := BitVec.ofNat 64 s,
    len := 0, arg := BitVec.ofNat 64 (Map.get 0 d.irq.count s + 65536 * Map.get 0 d.irq.inst s), payload := [] }

/-- Host-pending sources that are not host-in-service are sent, in the order in which they became so. -/
def Dev.sendHostInts (d : Dev) : Dev :=
  if !d.hostPathUp then d else
  (d.irq.hostPend.filter (fun s => !d.irq.hostService.contains s)).foldl (fun d s =>
    ({ d with irq := { d.irq with
        hostPend := d.irq.hostPend.filter (· != s)
        hostService := insNat s d.irq.hostService } }).toHost (d.hostIntTxn s)) d

/-- The path to the host has returned: what is in service becomes host-pending again, and what is held is sent. -/
def Dev.hostReturns (d : Dev) : Dev :=
  let again := d.irq.hostService.filter (fun s => !d.irq.hostPend.contains s)
  ({ d with irq := { d.irq with
      hostPend := d.irq.hostPend ++ again
      hostService := [] } }).sendHostInts

/-- INTERRUPT_DELIVERY: one management cycle. -/
def execInterruptDelivery (s : State) : Host.Outcome State Fault Refusal := s.act .live (fun d => d.deliver.sendHostInts)

/-- A write of `s` to MGT_HOST_EOI: host service ends, and the source is sampled again. -/
def Dev.hostEoi (d : Dev) (s : Nat) : Dev :=
  (({ d with irq := { d.irq with hostService := d.irq.hostService.filter (· != s) } }).sample).sendHostInts

def execHostEoi (src : BitVec 10) (s : State) : Host.Outcome State Fault Refusal :=
  s.act .live (fun d => (d.hostEoi src.toNat).reply St.ok)

/-! ## The host link (R499, R501, R502) -/

/-- RELAY_OPEN on every relay port that is UP. -/
def Dev.openRelays (d : Dev) : Dev :=
  (List.range 256).foldl (fun d p => match d.relaySlot p with
    | some j => if d.gfUp p then d.relayOpen p j else d
    | none => d) d

/-- The host link enters UP on adapter port `p`: the device takes index 8p. A first index opens the relay slots whose
ports are UP already. -/
def Dev.linkUp (d : Dev) (p : Nat) : Dev :=
  if d.mgt.hostUp then d else
  let had := d.has R.MGT_HOST_VALID && !d.has R.MGT_HOST_RELAYED
  let d := { d with mgt := { d.mgt with
    hostUp := true
    relayPort := none } }
  let d := (((d.set R.MGT_HOST_INDEX (8 * p)).set R.MGT_HOST_VALID 1).set R.MGT_HOST_RELAYED 0).set R.MGT_HOST_LINK 1
  let d := d.raise 17 0
  let d := if had then d else d.openRelays
  d.hostReturns

def execHostLinkUp (adapterPort : Fin 8) (s : State) : Host.Outcome State Fault Refusal :=
  s.act .live (fun d => d.linkUp adapterPort.val)

/-- The host link enters DOWN: completions not yet sent are lost, and with them the requests held in a handover. -/
def Dev.linkDown (d : Dev) : Dev :=
  if !d.mgt.hostUp then d else
  let d := { d with mgt := { d.mgt with
    hostUp := false
    heldReqs := []
    completions := [] } }
  (d.set R.MGT_HOST_LINK 0).raise 17 0

def execHostLinkDown (s : State) : Host.Outcome State Fault Refusal := s.act .live (fun d => d.linkDown)

/-- A received RELAY_OPEN at the head of the relay inbox (R502): the first one gives the index, any other is ignored. -/
def Dev.relayOpened (d : Dev) : Dev :=
  match d.fab.relayRx with
  | [] => d
  | (p, t) :: r =>
    if t.kind ≠ 9 then d else
    let d := { d with fab := { d.fab with relayRx := r } }
    if d.mgt.hostUp || d.mgt.relayPort.isSome then d.inc R.MGT_STATUS_RELAY_IGNORED
    else
      let d := { d with mgt := { d.mgt with relayPort := some p } }
      let d := (((d.set R.MGT_HOST_INDEX (t.arg.toNat % 64)).set R.MGT_HOST_VALID 1).set R.MGT_HOST_RELAYED 1).set R.MGT_HOST_LINK 1
      d.hostReturns

def execRelayOpen (s : State) : Host.Outcome State Fault Refusal := s.act .live (fun d => d.relayOpened)

/-- A write to MGT_RELAY_TABLE (R47, R502): none where a VALID slot names a port that is no GF port with RELAY. A slot that
becomes VALID opens its path. -/
def Dev.relayTable (d : Dev) (v : Word) : Dev :=
  let old := (d.word R.MGT_RELAY_TABLE).toNat
  let w := v.toNat % 2 ^ 63
  let slots := List.range 7
  let bad := slots.any (fun i =>
    let p := bits w (8 * i + 7) (8 * i)
    w.testBit (56 + i) && !(d.isGf p && (d.link p).relay))
  if bad then d.setSt R.MGT_HOST_STATUS St.addressUnmapped else
  let d := (d.setW R.MGT_RELAY_TABLE w).setSt R.MGT_HOST_STATUS St.ok
  if !(d.has R.MGT_HOST_VALID && !d.has R.MGT_HOST_RELAYED) then d else
  slots.foldl (fun d i =>
    let p := bits w (8 * i + 7) (8 * i)
    if w.testBit (56 + i) && !old.testBit (56 + i) && d.gfUp p then d.relayOpen p (i + 1) else d) d

def execRelayTableWrite (v : Word) (s : State) : Host.Outcome State Fault Refusal :=
  s.act .live (fun d => (d.relayTable v).reply St.ok)

/-! ## Watchdogs and management ports (R490, R509) -/

/-- A watchdog expires; a second expiry of one core within 1 s is fatal. Suspended in a handover. -/
def Dev.watchdog (d : Dev) (c : Nat) : Dev :=
  if d.get R.MGT_FW_STATUS_STATE = 3 then d else
  let again := d.armed (.watchdogAgain c) && !d.expired (.watchdogAgain c)
  let d := ((d.inc R.MGT_STATUS_WDT_EXPIRED).raise 16 c).arm (.watchdogAgain c) (ms 1000)
  if again then d.goFatal St.firmwareAssert else d

def execWatchdogExpiry (c : Fin 16) (s : State) : Host.Outcome State Fault Refusal := s.act .live (fun d => d.watchdog c.val)

/-- A management port changes link state. -/
def Dev.netLink (d : Dev) (p : Nat) (up : Bool) : Dev :=
  if d.mgt.netUp.contains p == up then d else
  ({ d with mgt := { d.mgt with netUp := if up then insNat p d.mgt.netUp else d.mgt.netUp.filter (· != p) } }).raise 19 p

def execMgtNetLink (port : Fin 2) (up : Bool) (s : State) : Host.Outcome State Fault Refusal :=
  s.act .live (fun d => d.netLink port.val up)

end Sys2Proof.Machine
end

