-- ==== Sys2Proof/Machine/Rcx.lean ====
section
/-! DEFINITION. The residue codec (spec 07): GRF decoding, history and compression, and its commands. -/

namespace Sys2Proof.Machine

/-! ## The coding (R207 to R209) -/

/-- The payload's bits, most significant first within each byte (R205). -/
def bitsOf (b : Bytes) : List Bool := b.flatMap (fun x => (List.range 8).map (fun i => x.toNat.testBit (7 - i)))

/-- The next `n` bits as a number, or none past the end. -/
def takeBits : Nat → Nat → List Bool → Option (Nat × List Bool)
  | 0, acc, l => some (acc, l)
  | _ + 1, _, [] => none
  | n + 1, acc, x :: r => takeBits n (2 * acc + b2n x) r

/-- read_rice(k): zeros are counted up to 24, where an escape of DEPTH bits follows a one bit (R209). -/
def readRice (depth k : Nat) : Nat → List Bool → Option (Nat × List Bool)
  | _, [] => none
  | z, true :: r => (takeBits k 0 r).map (fun x => (z * 2 ^ k + x.1, x.2))
  | z, false :: r =>
    if z = 23 then
      match r with
      | true :: r => takeBits depth 0 r
      | _ => none
    else readRice depth k (z + 1) r

/-- The predictors (R208). -/
def predict (code a b c : Nat) : Nat :=
  match code with
  | 0 => a
  | 1 => b
  | 2 => c
  | _ => if max a b ≤ c then min a b else if c ≤ min a b then max a b else a + b - c

/-- The Rice parameter of a context. -/
def riceK (a n : Nat) : Nat → Nat → Nat
  | 0, k => k
  | f + 1, k => if n * 2 ^ k < a && k < 15 then riceK a n f (k + 1) else k

/-- A context after a code `m`. -/
def ctxNext (c : Nat × Nat) (m : Nat) : Nat × Nat :=
  let a := c.1 + m
  let n := c.2 + 1
  if n = 64 then (a / 2, 32) else (a, n)

/-- The context number and prediction of the value at flat index `x` of a row of `nc` components, from the row so
far (reversed) and the row above (R209). -/
def neighbours (nc pred x : Nat) (up cur : List Nat) : Nat × Nat :=
  let j := x % nc
  let b := up.getD x 0
  let (a, c) := if x < nc then (b, b) else (cur.getD (nc - 1) 0, up.getD (x - nc) 0)
  let dist := fun (p q : Nat) => if p < q then q - p else p - q
  (16 * j + min 15 (bitLen (dist a c + dist b c)), predict (bits pred (2 * j + 1) (2 * j)) a b c)

/-- A row decoded value by value: the row reversed, the contexts, the bits left; and how many values were decoded
before the first error, all of them where there is none. -/
def decodeRow (depth nc pred : Nat) (up : List Nat) :
    Nat → Nat → List Nat → List (Nat × Nat) → List Bool → List Nat × List (Nat × Nat) × Option (List Bool)
  | 0, _, cur, ctx, bs => (cur, ctx, some bs)
  | n + 1, x, cur, ctx, bs =>
    let (q, p) := neighbours nc pred x up cur
    let c := ctx.getD q (0, 1)
    match readRice depth (riceK c.1 c.2 16 0) 0 bs with
    | none => (cur, ctx, none)
    | some (m, bs) =>
      if 2 ^ depth ≤ m then (cur, ctx, none) else
      let v := if m % 2 = 0 then (p + m / 2) % 2 ^ depth else (p + 2 ^ depth - (m + 1) / 2) % 2 ^ depth
      decodeRow depth nc pred up n (x + 1) (v :: cur) (setNth ctx q (ctxNext c m)) bs

/-- The rows of a block: the values in output order, the last row, the contexts and the bits left, none of them where
an error was met. -/
def decodeRows (depth nc pred width : Nat) :
    Nat → List Nat → List (Nat × Nat) → List Bool → List Nat → List Nat × List Nat × List (Nat × Nat) × Option (List Bool)
  | 0, up, ctx, bs, acc => (acc, up, ctx, some bs)
  | n + 1, up, ctx, bs, acc =>
    match decodeRow depth nc pred up (width * nc) 0 [] ctx bs with
    | (cur, ctx, some bs) => decodeRows depth nc pred width n cur.reverse ctx bs (acc ++ cur.reverse)
    | (cur, ctx, none) => (acc ++ cur.reverse, up, ctx, none)

/-- Values as output bytes (R206). -/
def valuesOut (bps : Nat) (vs : List Nat) : Bytes := vs.flatMap (fun v => le bps v)

/-- Output bytes as values. -/
def valuesIn (bps : Nat) (b : Bytes) : List Nat := (chunks bps b).map unle

/-! ## Headers (R203 to R205) -/

/-- Geometry of a frame header. -/
def ghDepth (h : Bytes) : Nat := fld h 2 1
def ghComps (h : Bytes) : Nat := fld h 3 1
def ghWidth (h : Bytes) : Nat := fld h 4 2
def ghBlockRows (h : Bytes) : Nat := fld h 6 2
def ghHeight (h : Bytes) : Nat := fld h 8 4
def ghFlags (h : Bytes) : Nat := fld h 0xC 1
def ghKey (h : Bytes) : Nat := fld h 0x10 4
def ghSeq (h : Bytes) : Nat := fld h 0x14 4
def ghBps (h : Bytes) : Nat := if ghDepth h ≤ 8 then 1 else 2
def ghRowBytes (h : Bytes) : Nat := ghWidth h * ghComps h * ghBps h

/-- Depth, components, width and block rows within the limits of R204. -/
def geometryOk (depth comps width blockRows : Nat) : Bool :=
  1 ≤ depth && depth ≤ 16 && 1 ≤ comps && comps ≤ 4 && 1 ≤ width && width * comps ≤ 30720 && 1 ≤ blockRows &&
    blockRows * (width * comps * (if depth ≤ 8 then 1 else 2)) ≤ 1048576

/-- A frame header is valid (R204). -/
def frameHeaderOk (h : Bytes) : Bool :=
  fld h 0 2 == 0x5246 && geometryOk (ghDepth h) (ghComps h) (ghWidth h) (ghBlockRows h) && 1 ≤ ghHeight h &&
    ghFlags h < 4 && fld h 0xD 3 == 0 && fld h 0x18 8 == 0 && (!(ghFlags h).testBit 0 || 1 ≤ ghSeq h)

/-- A stream header is valid (R203). -/
def streamHeaderOk (h : Bytes) : Bool :=
  fld h 0 4 == 0x31465247 && fld h 4 2 == 1 && (fld h 6 2 != 0 || fld h 8 8 == 0)

/-- Contexts at the start of a frame without HIST_IN (R207). -/
def freshCtx (depth : Nat) : List (Nat × Nat) := List.replicate 64 (max 2 (2 ^ depth / 64), 1)

/-! ## State entries (R215 to R217) -/

/-- The address of the entry for (K, s) of a record. -/
def rcxEntry (c : Bytes) (k s : Nat) : Nat :=
  fld c 8 8 + ((k % fld c 4 4) * fld c 2 2 + s % fld c 2 2) * 0x10000

def rcxMagic : Bytes := [0x47, 0x4C, 0x52, 0x43, 0x53, 0x54, 0x41, 0x31]

/-- The contexts and the row that an entry holds for a frame header, where the restore succeeds (R216). -/
def Dev.rcxRestore (d : Dev) (c h : Bytes) : Option (List (Nat × Nat) × List Nat) :=
  if fld c 4 4 = 0 ∨ ghSeq h = 0 then none else
  let a := rcxEntry c (ghKey h) (ghSeq h - 1)
  let e := d.read a 0x40
  if e.take 8 = rcxMagic ∧ fld e 0x10 4 = ghKey h ∧ fld e 0x14 4 = ghSeq h - 1 ∧ fld e 0xA 1 = ghDepth h ∧
      fld e 0xB 1 = ghComps h ∧ fld e 0xC 2 = ghWidth h then
    let ctx := (chunks 8 (d.read (a + 0x100) 512)).map (fun x => (fld x 0 4, fld x 4 2))
    some (ctx, valuesIn 2 (d.read (a + 0x1000) (2 * ghWidth h * ghComps h)))
  else none

/-- A frame's state saved (R217). -/
def Dev.rcxSave (d : Dev) (i : Nat) (c h : Bytes) (ctx : List (Nat × Nat)) (row : List Nat) : Dev :=
  let a := rcxEntry c (ghKey h) (ghSeq h)
  let used := ((List.range 64).zip ctx).map (fun x => if x.1 / 16 < ghComps h then x.2 else (0, 0))
  let body := List.replicate 192 0 ++ used.flatMap (fun x => le 4 x.1 ++ le 2 x.2 ++ [0, 0]) ++ List.replicate 3328 0
    ++ slice (valuesOut 2 row) 0 61440
  let d := d.write (a + 0x40) body
  let d := d.write a (rcxMagic ++ le 2 1 ++ le 1 (ghDepth h) ++ le 1 (ghComps h) ++ le 2 (ghWidth h) ++ [0, 0]
    ++ le 4 (ghKey h) ++ le 4 (ghSeq h) ++ List.replicate 40 0)
  d.inc (R.RCX_ENG_HIST_SAVES i)

/-! ## Decompression (R210) -/

def RcxSt.start : RcxSt :=
  { stage := 0, total := 0, frames := 0, written := 0, hdr := [], rows := 0, up := [], ctx := [], crc := 0xFFFFFFFF }

def Eng.rcx (e : Eng) : RcxSt :=
  match e.st with
  | .rcx s => s
  | _ => RcxSt.start

/-- The engine goes on with its state and what is left of its input. -/
def Dev.rcxGo (d : Dev) (i : Nat) (e : Eng) (s : RcxSt) (n : Nat) : Dev :=
  d.setEng 2 i { e with
    buf := e.buf.drop n
    st := .rcx s }

/-- End of the stream (row 8 of R210): nothing may be left over. -/
def Dev.rcxEnd (d : Dev) (f i eo : Nat) (e : Eng) (s : RcxSt) : Dev :=
  if e.buf.length ≠ 0 then d.failSample f 2 i eo St.decodeError
  else if !e.arrived then d
  else if s.written = s.total then d.finish f 2 i eo
  else d.failSample f 2 i eo St.decodeError

/-- The bytes needed are not here: the engine waits, or the extent ends before the stream does. -/
def Dev.rcxShort (d : Dev) (f i eo : Nat) (e : Eng) : Dev :=
  if e.arrived then d.failSample f 2 i eo St.decodeError else d

/-- RCX_FRAME_HEADER: the stream header, where it has not been checked, and then a frame header (rows 1 and 2 of
R210), with the restore of a HIST_IN frame (R216). -/
def Dev.rcxHeader (d : Dev) (i : Nat) : Dev :=
  d.engine 2 i (fun d f eo e =>
    let c := d.config f 2 i
    if fld c 1 1 ≠ 0 then d else
    let s := e.rcx
    let (e, s, bad) :=
      if s.stage ≠ 0 ∨ e.buf.length < 16 then (e, s, (0 : Status))
      else if !streamHeaderOk e.buf then (e, s, St.decodeError)
      else if fld c 0x10 8 < fld e.buf 8 8 then (e, s, St.outputLimit)
      else
        let n := fld e.buf 6 2
        let s := { s with
          total := fld e.buf 8 8
          frames := n
          stage := if n = 0 then 4 else 1 }
        ({ e with
            buf := e.buf.drop 16
            st := .rcx s }, s, 0)
    let d := d.setEng 2 i e
    if bad ≠ 0 then d.failSample f 2 i eo bad
    else if s.stage = 0 then d.rcxShort f i eo e
    else if s.stage = 4 then d.rcxEnd f i eo e s
    else if s.stage ≠ 1 then d
    else if e.buf.length < 32 then d.rcxShort f i eo e
    else
      let h := e.buf.take 32
      let hist := (ghFlags h).testBit 0
      let got := if hist then d.rcxRestore c h else
        some (freshCtx (ghDepth h), List.replicate (ghWidth h * ghComps h) (2 ^ (ghDepth h - 1)))
      if !frameHeaderOk h ∨ ((ghFlags h).testBit 1 ∧ fld c 4 4 = 0) then d.failSample f 2 i eo St.decodeError
      else
        match got with
        | none => d.failSample f 2 i eo St.decodeError
        | some (ctx, row) =>
          let d := if hist then d.inc (R.RCX_ENG_HIST_RESTORES i) else d
          d.rcxGo i e { s with
            stage := 2
            hdr := h
            rows := ghHeight h
            up := row
            ctx := ctx
            crc := 0xFFFFFFFF } 32)

def execRcxFrameHeader (i : Nat) (s : State) : Host.Outcome State Fault Refusal :=
  s.act .engine (fun d => d.rcxHeader i)

/-- A block header is valid (R205), rows 3 of R210: `left` bytes remain in the extent after it. -/
def blockHeaderOk (b h : Bytes) (rows : Nat) : Bool :=
  let n := rows * ghRowBytes h
  fld b 0 4 == n && fld b 8 1 / 4 ^ ghComps h == 0 && fld b 9 1 < 2 && fld b 0xA 2 == 0 &&
    (fld b 9 1 == 0 || fld b 4 4 == n)

/-- The output of a block and the frame's state after it; or, with none, the output bytes before the error. -/
def blockDecode (b pay : Bytes) (s : RcxSt) (rows : Nat) : Bytes × Option RcxSt :=
  let h := s.hdr
  let bps := ghBps h
  let nv := ghWidth h * ghComps h
  let done := fun (out : Bytes) (up : List Nat) (ctx : List (Nat × Nat)) =>
    let s := { s with
      up := up
      ctx := ctx
      rows := s.rows - rows
      crc := crcFeed s.crc out
      written := s.written + out.length }
    some { s with stage := if s.rows = 0 then 3 else 2 }
  if fld b 9 1 = 1 then
    let vs := valuesIn bps pay
    let good := vs.takeWhile (fun v => v < 2 ^ ghDepth h)
    if good.length < vs.length then (valuesOut bps good, none)
    else (pay, done pay (vs.drop (vs.length - nv)) s.ctx)
  else
    match decodeRows (ghDepth h) (ghComps h) (fld b 8 1) (ghWidth h) rows s.up s.ctx (bitsOf pay) [] with
    | (vs, up, ctx, some rest) =>
      let out := valuesOut bps vs
      if rest.length < 8 && rest.all (fun x => !x) then (out, done out up ctx) else (out, none)
    | (vs, _, _, none) => (valuesOut bps vs, none)

/-- RCX_BLOCK_DECODE (rows 3 to 6 of R210). -/
def Dev.rcxBlock (d : Dev) (i : Nat) : Dev :=
  d.engine 2 i (fun d f eo e =>
    let c := d.config f 2 i
    let s := e.rcx
    if fld c 1 1 ≠ 0 ∨ s.stage ≠ 2 then d
    else if e.buf.length < 12 then d.rcxShort f i eo e
    else
      let rows := min (ghBlockRows s.hdr) s.rows
      let n := fld e.buf 4 4
      let outLen := fld e.buf 0 4
      if !blockHeaderOk e.buf s.hdr rows then d.failSample f 2 i eo St.decodeError
      else if e.buf.length < 12 + n then d.rcxShort f i eo e
      else if min s.total (fld c 0x10 8) < s.written + outLen then d.failSample f 2 i eo St.outputLimit
      else
        let cap := d.capOf f 2 i e
        let (out, next) := blockDecode e.buf ((e.buf.drop 12).take n) s rows
        match next with
        | some s' =>
          if withinCap cap (cdiv s'.written 64) then
            let d := d.rcxGo i { e with units := cdiv s'.written 64 } s' (12 + n)
            d.putOut 2 i eo out
          else d.failSample f 2 i eo St.workCap
        | none =>
          let at_ := s.written + out.length
          let whole := out.length = outLen
          let runs := if whole then cdiv at_ 64 else at_ / 64 + 1
          d.failSample f 2 i eo (if withinCap cap runs then St.decodeError else St.workCap))

def execRcxBlockDecode (i : Nat) (s : State) : Host.Outcome State Fault Refusal :=
  s.act .engine (fun d => d.rcxBlock i)

/-- RCX_FRAME_TRAILER (row 7 of R210), the save of a HIST_OUT frame (R217), and after the last frame the end of the
stream (row 8). -/
def Dev.rcxTrailer (d : Dev) (i : Nat) : Dev :=
  d.engine 2 i (fun d f eo e =>
    let c := d.config f 2 i
    let s := e.rcx
    if fld c 1 1 ≠ 0 then d
    else if s.stage = 4 then d.rcxEnd f i eo e s
    else if s.stage ≠ 3 then d
    else if e.buf.length < 4 then d.rcxShort f i eo e
    else if fld e.buf 0 4 ≠ s.crc ^^^ 0xFFFFFFFF then d.failSample f 2 i eo St.checkValueMismatch
    else
      let d := if (ghFlags s.hdr).testBit 1 then d.rcxSave i c s.hdr s.ctx s.up else d
      let s' := { s with
        frames := s.frames - 1
        stage := if s.frames = 1 then 4 else 1 }
      let d := d.rcxGo i e s' 4
      if s'.stage = 4 then d.rcxEnd f i eo (d.eng 2 i) s' else d)

def execRcxFrameTrailer (i : Nat) (s : State) : Host.Outcome State Fault Refusal :=
  s.act .engine (fun d => d.rcxTrailer i)

/-! ## Compression (R220, R221) -/

/-- `n` bits of `v`, most significant first. -/
def bitsBE (n v : Nat) : List Bool := (List.range n).map (fun i => v.testBit (n - 1 - i))

/-- The code of a mapped residue `m` under parameter k (R209). -/
def riceCode (depth k m : Nat) : List Bool :=
  let q := m / 2 ^ k
  if q < 24 then List.replicate q false ++ [true] ++ bitsBE k m
  else List.replicate 24 false ++ [true] ++ bitsBE depth m

/-- The mapped residue of value `v` against prediction `p`. -/
def residue (depth v p : Nat) : Nat :=
  let r := (v + 2 ^ depth - p % 2 ^ depth) % 2 ^ depth
  if r < 2 ^ (depth - 1) then 2 * r else 2 * (2 ^ depth - r) - 1

/-- One row coded: the codes of every value with its component, and the contexts. -/
def codeRow (depth nc pred : Nat) (up : List Nat) :
    Nat → List Nat → List Nat → List (Nat × Nat) → List (Nat × List Bool) → List (Nat × List Bool) × List (Nat × Nat)
  | _, [], _, ctx, acc => (acc.reverse, ctx)
  | x, v :: r, cur, ctx, acc =>
    let (q, p) := neighbours nc pred x up cur
    let c := ctx.getD q (0, 1)
    let m := residue depth v p
    codeRow depth nc pred up (x + 1) r (v :: cur) (setNth ctx q (ctxNext c m))
      ((x % nc, riceCode depth (riceK c.1 c.2 16 0) m) :: acc)

/-- The rows of a block coded. -/
def codeRows (depth nc pred : Nat) :
    List (List Nat) → List Nat → List (Nat × Nat) → List (Nat × List Bool) → List (Nat × List Bool) × List (Nat × Nat)
  | [], _, ctx, acc => (acc, ctx)
  | row :: r, up, ctx, acc =>
    let (cs, ctx) := codeRow depth nc pred up 0 row [] ctx []
    codeRows depth nc pred r row ctx (acc ++ cs)

/-- The bits that component `j` takes. -/
def compBits (j : Nat) (cs : List (Nat × List Bool)) : Nat :=
  cs.foldl (fun n c => if c.1 = j then n + c.2.length else n) 0

/-- The predictor of each component: the one with the fewest bits, ties to the lower code (R221). -/
def choosePred (depth nc : Nat) (rows : List (List Nat)) (up : List Nat) (ctx : List (Nat × Nat)) : Nat :=
  let cost := (List.range 4).map (fun p => (codeRows depth nc (p * 0x55) rows up ctx []).1)
  (List.range nc).foldl (fun acc j =>
    let best := (List.range 4).foldl (fun (b : Nat × Nat) p =>
      let n := compBits j (cost.getD p [])
      if p = 0 || n < b.2 then (p, n) else b) (0, 0)
    acc + best.1 * 4 ^ j) 0

/-- Bits packed into bytes, the last one padded with zeros. -/
def packBits (l : List Bool) : Bytes :=
  (chunks 8 l).map (fun c => BitVec.ofNat 8 ((c ++ List.replicate (8 - c.length) false).foldl (fun n x => 2 * n + b2n x) 0))

/-- The blocks of a frame, with the contexts and last row after them. -/
def codeBlocks (depth nc bps : Nat) :
    List (List (List Nat)) → List Nat → List (Nat × Nat) → Bytes → Bytes × List (Nat × Nat) × List Nat
  | [], up, ctx, acc => (acc, ctx, up)
  | rows :: r, up, ctx, acc =>
    let raw := valuesOut bps rows.flatten
    let pred := choosePred depth nc rows up ctx
    let (cs, ctx') := codeRows depth nc pred rows up ctx []
    let pay := packBits (cs.flatMap (·.2))
    let last := rows.getLastD up
    if raw.length ≤ pay.length then
      codeBlocks depth nc bps r last ctx
        (acc ++ le 4 raw.length ++ le 4 raw.length ++ [0, 1, 0, 0] ++ raw)
    else
      codeBlocks depth nc bps r last ctx'
        (acc ++ le 4 raw.length ++ le 4 pay.length ++ le 1 pred ++ [0, 0, 0] ++ pay)

/-- The slot's valid state of a record's stream key (R220): the valid entry with the highest SEQ. -/
def Dev.rcxLatest (d : Dev) (c : Bytes) : Option Nat :=
  let key := fld c 0x20 4
  (List.range (if fld c 4 4 = 0 then 0 else fld c 2 2)).foldl (fun (best : Option Nat) s =>
    let e := d.read (rcxEntry c key s) 0x40
    if e.take 8 = rcxMagic ∧ fld e 8 2 = 1 ∧ fld e 0x10 4 = key then
      match best with
      | none => some (fld e 0x14 4)
      | some b => some (max b (fld e 0x14 4))
    else best) none

/-- The status of a sample to be compressed (R220, rows 1 to 4), OK where it passes. -/
def compressCheck (c : Bytes) (cap : Option Nat) (b : Bytes) : Status :=
  let depth := fld c 0x18 1
  let bps := if depth ≤ 8 then 1 else 2
  let rb := fld c 0x1A 2 * fld c 0x19 1 * bps
  if fld c 0x10 8 < b.length then St.outputLimit
  else if rb = 0 ∨ b.length % rb ≠ 0 then St.decodeError
  else
    let good := ((valuesIn bps b).takeWhile (fun v => v < 2 ^ depth)).length * bps
    if good < b.length then (if withinCap cap (good / 64 + 1) then St.decodeError else St.workCap)
    else if withinCap cap (cdiv b.length 64) then St.ok else St.workCap

/-- RCX_COMPRESS_SAMPLE (R220, R221). -/
def Dev.rcxCompress (d : Dev) (i : Nat) : Dev :=
  d.engine 2 i (fun d f eo e =>
    let c := d.config f 2 i
    if fld c 1 1 ≠ 1 ∨ !e.arrived then d else
    let b := e.buf
    let st := compressCheck c (d.capOf f 2 i e) b
    if st ≠ St.ok then d.failSample f 2 i eo st else
    let d := d.setEng 2 i { e with
      buf := []
      units := cdiv b.length 64 }
    if b.isEmpty then
      (d.putOut 2 i eo ([0x47, 0x52, 0x46, 0x31] ++ le 2 1 ++ le 2 0 ++ le 8 0)).finish f 2 i eo
    else
      let depth := fld c 0x18 1; let nc := fld c 0x19 1; let width := fld c 0x1A 2; let br := fld c 0x1C 2
      let hist := fld c 0x1E 1; let key := fld c 0x20 4
      let bps := if depth ≤ 8 then 1 else 2
      let rows := chunks (width * nc) (valuesIn bps b)
      let mkHdr := fun (flags seq : Nat) => [0x46, 0x52] ++ le 1 depth ++ le 1 nc ++ le 2 width ++ le 2 br ++ le 4 rows.length
        ++ le 1 flags ++ [0, 0, 0] ++ le 4 key ++ le 4 seq ++ List.replicate 8 0
      let out := if hist.testBit 1 then 2 else 0
      let prior := if hist.testBit 0 then
          (d.rcxLatest c).bind (fun q => (d.rcxRestore c (mkHdr 1 (q + 1))).map (fun r => (q + 1, r)))
        else none
      let (h, ctx, up) := match prior with
        | some (q, ctx, up) => (mkHdr (1 + out) q, ctx, up)
        | none => (mkHdr out 0, freshCtx depth, List.replicate (width * nc) (2 ^ (depth - 1)))
      let d := if prior.isSome then d.inc (R.RCX_ENG_HIST_RESTORES i) else d
      let (blocks, ctx, last) := codeBlocks depth nc bps (chunks br rows) up ctx []
      let d := d.putOut 2 i eo ([0x47, 0x52, 0x46, 0x31] ++ le 2 1 ++ le 2 1 ++ le 8 b.length ++ h ++ blocks
        ++ le 4 (crc32c b))
      let d := if hist.testBit 1 then d.rcxSave i c h ctx last else d
      d.finish f 2 i eo)

def execRcxCompressSample (i : Nat) (s : State) : Host.Outcome State Fault Refusal :=
  s.act .engine (fun d => d.rcxCompress i)

end Sys2Proof.Machine
end

