-- ==== Sys2Proof/Machine/Tim.lean ====
section
/-! DEFINITION. Fabric time and barriers (spec 17): the shared operations. Times are in 2^-16 ns, rates in
2^-48 ns per fabric cycle. -/

namespace Sys2Proof.Machine

/-- A rate held within `ppm` parts per million of nominal (R441, R451). -/
def clampRate (ppm : Nat) (r : Int) : Nat :=
  let w := nominalRate * ppm / 1000000
  (max ((nominalRate : Int) - w) (min ((nominalRate : Int) + w) r)).toNat

def Dev.ptime (d : Dev) (p : Nat) : PTime := Map.get PTime.fresh d.tim.ports p
def Dev.setPtime (d : Dev) (p : Nat) (t : PTime) : Dev :=
  { d with tim := { d.tim with ports := Map.put PTime.fresh d.tim.ports p t } }
def Dev.bar (d : Dev) (b : Nat) : Bar := Map.get Bar.idle d.tim.bars b
def Dev.setBar (d : Dev) (b : Nat) (x : Bar) : Dev :=
  { d with tim := { d.tim with bars := Map.put Bar.idle d.tim.bars b x } }

/-- SEQ_TICK_CTRL.RUNNING. -/
def Dev.ticking (d : Dev) : Bool := d.has R.SEQ_TICK_CTRL_RUNNING

/-- FT steps to `t` (R449, R454). -/
def Dev.stepFt (d : Dev) (t : Nat) : Dev :=
  { d with tim := { d.tim with ft := BitVec.ofNat 80 t, sub := 0, stepped := d.tim.stepped + 1 } }

/-- One fabric cycle passes: the clock, FT at its rate, and every barrier countdown (R441, R453). -/
def Dev.cycle (d : Dev) : Dev :=
  let total := d.tim.sub + d.tim.rate
  let adv := total / 2 ^ 32
  { d with
    clk := d.clk + 5
    tim := { d.tim with
      ft := d.tim.ft + BitVec.ofNat 80 adv
      sub := total % 2 ^ 32
      bars := d.tim.bars.map (fun e => (e.1, { e.2 with countdown := e.2.countdown.map (fun c => c - adv) })) } }

/-- What passes while no command waits: one fabric cycle; with firmware not running, only the clock. -/
def Dev.idle (d : Dev) : Dev :=
  if d.pwr.phase = .running then d.cycle else { d with clk := d.clk + 5 }

/-- A control payload (R444). -/
def ctlPayload (kind flags domain barrier gen ta tb : Nat) : Bytes :=
  le 1 kind ++ le 1 flags ++ le 2 domain ++ le 1 barrier ++ [0] ++ le 2 gen ++ timeField ta ++ timeField tb
    ++ [0, 0, 0, 0]

/-- ASYM of a port, signed, in 2^-16 ns (R446). -/
def Dev.asym (d : Dev) (p : Nat) : Int := sext 32 (d.get (R.TIM_PORT_ASYM_ASYM p))

/-- The delay from the partner to this node: d + ASYM / 2 (R446). -/
def Dev.delayIn (d : Dev) (p : Nat) : Int := (d.ptime p).delay + d.asym p / 2

/-- Whether a port's delay is VALID (R447). -/
def Dev.delayValid (d : Dev) (p : Nat) : Bool := d.has (R.TIM_PORT_DELAY_VALID p)

/-- The head of the control inbox after the messages a receiver discards: an unassigned KIND is counted in
BAD_KIND and a foreign DOMAIN in BAD_DOMAIN (R444). Heartbeats carry no DOMAIN (R482). -/
def Dev.purgeTim (d : Dev) : List RxPkt → Dev
  | [] => { d with fab := { d.fab with timRx := [] } }
  | m :: r =>
    let kind := fld m.payload 0 1
    let known := kind == 1 || kind == 2 || kind == 3 || kind == 0x10 || kind == 0x11 || kind == 0x20
    if m.payload.length != 32 || !known then (d.inc R.TIM_DISC_BAD_KIND).purgeTim r
    else if kind != 0x20 && fld m.payload 2 2 != d.get R.TIM_CTRL_DOMAIN then
      (d.inc R.TIM_DISC_BAD_DOMAIN).purgeTim r
    else { d with fab := { d.fab with timRx := m :: r } }

/-- The message at the head of the control inbox, where it is of the KIND wanted, and the device without
it. -/
def Dev.takeTim (d : Dev) (kind : Nat) : Option RxPkt × Dev :=
  let d := d.purgeTim d.fab.timRx
  match d.fab.timRx with
  | m :: r => if fld m.payload 0 1 = kind then (some m, { d with fab := { d.fab with timRx := r } }) else (none, d)
  | [] => (none, d)

/-- TIM_STATUS.ACCURATE as R448 has it: 1 on the root; elsewhere 1 while LOCKED and the last upstream SYNC
carried it; in HOLDOVER it stays until its timer clears it. -/
def Dev.judgeAccurate (d : Dev) : Dev :=
  let st := d.get R.TIM_STATUS_STATE
  let up := d.ptime (d.get R.TIM_CTRL_UPSTREAM)
  let v := if !d.timOn then false
    else if d.has R.TIM_CTRL_ROOT then true
    else if st = 2 then up.accurate
    else if st = 3 then d.has R.TIM_STATUS_ACCURATE
    else false
  d.set R.TIM_STATUS_ACCURATE (b2n v)

/-- The offset of this node's FT to the partner's on port `p` (R446), where a SYNC has arrived. -/
def Dev.offsetOf (d : Dev) (p : Nat) : Option Int :=
  (d.ptime p).sync.map (fun s => (s.2 : Int) - s.1 - d.delayIn p)

/-- What a new offset does (R446, R449): the register and the rate follow the servo; FT steps by −offset
where ticks do not run and the node enters SYNTONIZED or is out by more than 1 µs in FREE or SYNTONIZED; and
while ticks run, more than 1 µs raises TIM_SYNC_LOST. -/
def Dev.useOffset (d : Dev) (off : Int) (entering : Bool) : Dev :=
  let old := sext 32 (d.get R.TIM_STATUS_OFFSET)
  let f := Config.filterOffset old off
  let d := d.set R.TIM_STATUS_OFFSET (wrap 32 (max (-(2 ^ 31 : Int)) (min (2 ^ 31 - 1 : Int) f)))
  let d := { d with tim := { d.tim with rate := clampRate 200 (Config.servoRate d.tim.rate off) } }
  let far := 65536000 < off.natAbs
  let st := d.get R.TIM_STATUS_STATE
  if d.ticking then (if far then d.raise 768 0 else d)
  else if entering || (far && (st = 0 || st = 1)) then d.stepFt (((d.tim.ft.toNat : Int) - off).toNat)
  else d

/-- The node enters SYNTONIZED (R448). -/
def Dev.syntonize (d : Dev) : Dev :=
  let d := (d.set R.TIM_STATUS_STATE 1).disarm .accurate
  let d := { d with tim := { d.tim with inBound := 0 } }
  match d.offsetOf (d.get R.TIM_CTRL_UPSTREAM) with
  | some off => (d.useOffset off true).judgeAccurate
  | none => d.judgeAccurate

/-- A received SYNC (R446, R448). -/
def Dev.onSync (d : Dev) (m : RxPkt) : Dev :=
  if !d.timOn then d else
  let t := d.ptime m.port
  let t := { t with
    sync := some (timeOf m.payload 8, m.time)
    accurate := (fld m.payload 1 1).testBit 0
    syncs := if d.delayValid m.port then t.syncs + 1 else 0 }
  let d := d.setPtime m.port t
  if !d.upstream m.port then d else
  let d := d.arm .syncLoss (ms 1)
  if !d.delayValid m.port then d else
  let st := d.get R.TIM_STATUS_STATE
  if (st = 0 ∧ 8 ≤ t.syncs) ∨ st = 3 then d.syntonize
  else match d.offsetOf m.port with
    | some off => (d.useOffset off false).judgeAccurate
    | none => d.judgeAccurate

/-- A received DELAY_REQ is answered (R446). -/
def Dev.onDelayReq (d : Dev) (m : RxPkt) : Dev :=
  if !d.timOn then d
  else d.sendTime m.port (ctlPayload 3 0 (d.get R.TIM_CTRL_DOMAIN) 0 0 m.time (timeOf m.payload 8))

/-- A received DELAY_RESP completes an exchange (R446 to R448). -/
def Dev.onDelayResp (d : Dev) (m : RxPkt) : Dev :=
  if !d.timOn then d else
  let p := m.port
  let t := d.ptime p
  let t4 := timeOf m.payload 8
  let t3 := timeOf m.payload 0x12
  match t.reqAt, t.sync with
  | some r, some (t1, t2) =>
    if r ≠ t3 then d else
    let sample := (((t2 : Int) - t1) + ((t4 : Int) - t3)) / 2
    let n := t.exchanges + 1
    let t := { t with reqAt := none, exchanges := n, delay := Config.filterDelay t.delay sample }
    let d := d.setPtime p t
    let d := d.set (R.TIM_PORT_DELAY_DELAY p) (wrap 48 t.delay)
    let d := if 16 ≤ n then d.set (R.TIM_PORT_DELAY_VALID p) 1 else d
    if !(d.upstream p && d.delayValid p) then d else
    let st := d.get R.TIM_STATUS_STATE
    let inB := match d.offsetOf p with | some off => decide (off.natAbs ≤ 3276) | none => false
    let k := if inB then d.tim.inBound + 1 else 0
    let d := { d with tim := { d.tim with inBound := k } }
    if st = 3 then d.syntonize
    else if st = 1 ∧ 16 ≤ k then (d.set R.TIM_STATUS_STATE 2).judgeAccurate
    else d
  | _, _ => d

/-- A write to TIM_CTRL (R448, R466). -/
def Dev.timCtrl (d : Dev) (v : Word) : Dev :=
  let dom := getBits v 63 48; let up := getBits v 47 40; let root := getBits v 1 1; let en := getBits v 0 0
  if d.ticking && (dom != d.get R.TIM_CTRL_DOMAIN || root != d.get R.TIM_CTRL_ROOT) then d else
  let oldUp := d.get R.TIM_CTRL_UPSTREAM; let oldRoot := d.get R.TIM_CTRL_ROOT; let oldEn := d.get R.TIM_CTRL_ENABLE
  let d := (((d.set R.TIM_CTRL_DOMAIN dom).set R.TIM_CTRL_UPSTREAM up).set R.TIM_CTRL_ROOT root).set R.TIM_CTRL_ENABLE en
  let d :=
    if en = 0 then
      let d := ((d.set R.TIM_STATUS_STATE 0).disarm .syncLoss).disarm .accurate
      { d with tim := { d.tim with rate := nominalRate, inBound := 0 } }
    else if root = 1 then (d.set R.TIM_STATUS_STATE 2).disarm .syncLoss
    else if oldEn = 0 ∨ oldRoot = 1 then
      { d with tim := { d.tim with rate := nominalRate, inBound := 0 } }.set R.TIM_STATUS_STATE 0
    else if up ≠ oldUp then d.holdover
    else d
  d.judgeAccurate

/-! ## Barriers (R452 to R456) -/

/-- BAR_RELEASE queued on every port from which barrier `b` counted an arrival. -/
def Dev.sendRelease (d : Dev) (b gen rft : Nat) (ports : List Nat) : Dev :=
  ports.foldl (fun d p => d.sendTime p (ctlPayload 0x11 0 (d.get R.TIM_CTRL_DOMAIN) b gen 0 (rft * 65536))) d

/-- The count of barrier `b` after an arrival: a full count goes up to PARENT or starts the root's
release (R452, R453). -/
def Dev.barFull (d : Dev) (b : Nat) : Dev :=
  let x := d.bar b
  let n := x.ports.length + b2n x.loc
  let need := d.get (R.TIM_BAR_CFG_EXPECT b) + d.get (R.TIM_BAR_CFG_LOCAL b)
  let gen := d.get (R.TIM_BAR_STATUS_GEN b)
  let d := (d.set (R.TIM_BAR_STATUS_COUNT b) n).set (R.TIM_BAR_STATUS_WAITING b) (b2n (n < need))
  if n ≠ need then d
  else if d.has (R.TIM_BAR_CFG_ROOT b) then
    let ft := d.tim.ft.toNat
    let rft := cdiv ft 65536 + d.get (R.TIM_BAR_CFG_LEAD_NS b)
    let d := d.setBar b { x with countdown := some ((rft * 65536 : Nat) - (ft : Int)), rft := rft }
    (d.set (R.TIM_BAR_STATUS_COUNTING b) 1).sendRelease b gen rft x.ports
  else
    let par := d.get (R.TIM_BAR_CFG_PARENT b)
    if d.gfUp par && d.delayValid par then
      d.sendTime par (ctlPayload 0x10 0 (d.get R.TIM_CTRL_DOMAIN) b gen 0 0)
    else d

/-- A local arrival at barrier `b` (R452). -/
def Dev.arriveLocal (d : Dev) (b : Nat) : Dev :=
  let x := d.bar b
  if !d.has (R.TIM_BAR_CFG_LOCAL b) || x.loc then d.inc R.TIM_DISC_DUP_ARRIVE
  else (d.setBar b { x with loc := true }).barFull b

/-- A received BAR_ARRIVE (R452). -/
def Dev.onBarArrive (d : Dev) (m : RxPkt) : Dev :=
  if !d.timOn then d else
  let b := fld m.payload 4 1
  let x := d.bar b
  if !d.delayValid m.port then d
  else if fld m.payload 6 2 ≠ d.get (R.TIM_BAR_STATUS_GEN b) then d.inc R.TIM_DISC_STALE_GEN
  else if x.ports.contains m.port then d.inc R.TIM_DISC_DUP_ARRIVE
  else (d.setBar b { x with ports := insNat m.port x.ports }).barFull b

/-- Barrier `b` has its count, countdown and arrivals cleared and its generation raised. -/
def Dev.barClear (d : Dev) (b : Nat) : Dev :=
  let d := d.setBar b Bar.idle
  let d := d.set (R.TIM_BAR_STATUS_GEN b) (d.get (R.TIM_BAR_STATUS_GEN b) + 1)
  ((d.set (R.TIM_BAR_STATUS_COUNT b) 0).set (R.TIM_BAR_STATUS_COUNTING b) 0).set (R.TIM_BAR_STATUS_WAITING b) 0

/-- Member's release of barrier `b` without its tick (R454): RELEASED, R_FT, the generation, and FT where
the member is not LOCKED. -/
def Dev.barReleased (d : Dev) (b : Nat) : Dev :=
  let rft := (d.bar b).rft
  let d := (d.set (R.TIM_BAR_STATUS_RELEASED b) 1).setWord (R.TIM_BAR_RELEASE b) (BitVec.ofNat 64 rft)
  let d := d.barClear b
  if d.get R.TIM_STATUS_STATE = 2 then d else d.stepFt (rft * 65536)

/-- A received BAR_RELEASE starts the member's countdown and is forwarded; whether the member must release
at once, being late (R453, R455). -/
def Dev.onBarRelease (d : Dev) (m : RxPkt) : Bool × Dev :=
  if !d.timOn then (false, d) else
  let b := fld m.payload 4 1
  let x := d.bar b
  let gen := d.get (R.TIM_BAR_STATUS_GEN b)
  if !d.delayValid m.port then (false, d)
  else if fld m.payload 6 2 ≠ gen then (false, d.inc R.TIM_DISC_STALE_GEN)
  else
    let left := (timeOf m.payload 8 : Int) - d.delayIn m.port
    let rft := timeOf m.payload 0x12 / 65536
    let d := d.setBar b { x with countdown := some left, rft := rft }
    let d := (d.set (R.TIM_BAR_STATUS_COUNTING b) 1).sendRelease b gen rft x.ports
    if left ≤ 0 then (true, d.set (R.TIM_BAR_STATUS_LATE b) 1) else (false, d)

end Sys2Proof.Machine
end

