-- ==== Sys2Proof/Machine/Seq.lean ====
section
/-! DEFINITION. Functions under way (spec 03, spec 04): due records, admission, substitution, START, STOP, KILL and
STAGE. The ticks and boundaries at which they take effect stand in Tick.lean. -/

namespace Sys2Proof.Machine

/-! ## Registers of a function (R101) -/

/-- A function changes STATE (R101, R478). -/
def Dev.setFnState (d : Dev) (f st : Nat) : Dev :=
  if d.fnState f = st then d else (d.set (R.SEQ_FN_STATUS_STATE f) st).trace 4 f 1 0 st 0

/-- A START, STOP or KILL has ended with a status. -/
def Dev.fnDone (d : Dev) (f : Nat) (st : Status) : Dev := (d.setSt (R.SEQ_FN_STATUS_STATUS f) st).set (R.SEQ_FN_STATUS_DONE f) 1

/-- The fabric time of tick `n`. -/
def Dev.tickAt (d : Dev) (n : Nat) : Nat := d.launch + n * d.steepNs

/-- The planned end of the running steep (R96). -/
def Dev.plannedEnd (d : Dev) (f : Nat) : Nat :=
  d.tickAt ((d.word (R.SEQ_FN_ANCHOR_TICK f)).toNat + (d.steepNo f - (d.word (R.SEQ_FN_ANCHOR_STEEP f)).toNat) + 1)

/-- The earliest end of the running steep (R96). -/
def Dev.earliestEnd (d : Dev) (f : Nat) : Nat :=
  max (d.plannedEnd f) ((d.fn f).bPrev + d.steepNs - d.steepNs * d.slack f / 1024)

/-- The current lag (R98). -/
def Dev.currentLag (d : Dev) (f : Nat) : Nat :=
  if d.fnRuns f && d.plannedEnd f < d.ftNs then d.ftNs - d.plannedEnd f else (d.fn f).lag

/-- LAG_MAX follows the current lag. -/
def Dev.lagMax (d : Dev) (f : Nat) : Nat := max (d.word (R.SEQ_FN_LAG_MAX f)).toNat (d.currentLag f)

/-! ## Due records (R92) -/

/-- One stage's booking of a sample: the new (t, free). -/
def book (t free a need cap : Nat) : Nat × Nat :=
  let (t, free) := if t < a then (a, cap) else (t, free)
  if need ≤ free then (t, free - need)
  else
    let m := need - free
    let q := cdiv m cap
    (t + q, q * cap - m)

/-- Every stage's booking of a sample that record `r` admits: the cursors and the due records. -/
def Dev.bookAll (d : Dev) (f r idx : Nat) (cur : List (Nat × Nat × Nat)) : List (Nat × Nat × Nat) × List (Nat × Nat) :=
  (List.range (d.stageCount f)).foldl (fun acc k =>
    let cap := d.stageCapacity f k
    let (t, free) := Map.get (r, cap) cur k
    let (t, free) := book t free (r + d.stageDelay f k) (d.budget f idx k) cap
    (acc.1 ++ [(k, t, free)], acc.2 ++ [(k, t)])) ([], [])

/-! ## Admission (R93, R127, R129) -/

/-- Whether a sample of an epoch is looked up in the Pond (R127). -/
def Dev.pondReads (d : Dev) (f e : Nat) : Bool := d.epochFld f e 1 1 == 2 || d.epochFld f e 1 1 == 3

/-- The Pond's tag of a candidate is read: a hit puts its decoded form into CACHE_ENDPOINT. -/
def Dev.pondLook (d : Dev) (f : Nat) (l : Live) : Live × Dev :=
  let e := d.epochOf f l.pos
  match d.pondSlot f l.idx with
  | none => (l, d)
  | some a =>
    if !d.pondReads f e then (l, d)
    else if !d.pondHit f l.idx e a then (l, d.inc (R.SEQ_FN_POND_MISS_MISSES f))
    else
      let b := d.read (a + 64) (d.readLe (a + 0x10) 8)
      let c := d.cacheEp f
      let l := { l with
        hit := true
        crc := d.readLe (a + 0x18) 4 }
      (l, (d.addWord (R.SEQ_FN_POND_HITS f) 1).setInQ c (d.inQ c ++ granulesOf l.pos l.tok l.idx b true))

/-- SEQ_FN_POOL.NEXT shows `next` of the epoch of the running position: the position admitted last, or at a start the
resume position (R140). -/
def Dev.showNext (d : Dev) (f e : Nat) : Dev := d.set (R.SEQ_FN_POOL_NEXT f) ((d.fn f).nextOf e)

/-- The position of a record admitted: its token, its due records, its place in a global batch. -/
def Dev.admitPos (d : Dev) (f r pos : Nat) : Dev :=
  let idx := d.orderedAt f pos
  let run := d.fn f
  let (cur, due) := d.bookAll f r idx run.cursor
  let l : Live := {
    pos := pos, idx := idx, tok := 1, reason := 0, cause := 0, poolIdx := 0xFFFFFFFF, due := due, done := [], waiting := false,
    blocked := false, crc := 0, hit := false, placed := false }
  let d := (d.setFn f { run with cursor := cur }).issue (poolNo 3 f) 1
  let d := if pos % d.batchSize f = 0 then d.openBatch f pos else d
  let d :=
    if pos % d.batchSize f + 1 = d.batchSize f then
      match (d.fn f).batch (d.batchOf f pos) with
      | none => d
      | some b =>
        let at_ := match d.asmStage f with
          | some k => Map.get 0 due k
          | none => due.foldl (fun n e => max n e.2) 0
        d.setFn f ((d.fn f).setBatch { b with planRecord := at_ })
    else d
  let (l, d) := d.pondLook f l
  let l := { l with done := d.offRoute f l }
  (d.modFn f (fun r => { r with live := r.live ++ [l] })).prune f

/-- The substitute of a waiting position admitted (R121, R122, R124). -/
def Dev.substitute (d : Dev) (f r : Nat) (l : Live) : Dev :=
  let run := d.fn f
  let e := d.epochOf f l.pos
  let n := run.nextOf e
  if (d.poolOf f e).2 ≤ n then d else
  let d := d.write (d.logAt f e n) (le 8 l.pos ++ le 2 l.cause.toNat ++ List.replicate 6 0)
  let l := { l with
    idx := d.poolEntry f e n
    tok := l.tok + 1
    cause := 0
    poolIdx := n
    due := l.due.map (fun x => (x.1, max x.2 r))
    done := []
    waiting := false
    hit := false
    crc := 0 }
  let d := ((d.setFn f { run with pool := Map.put 0 run.pool e (n + 1) }).retire (poolNo 3 f) 1).issue (poolNo 3 f) 1
  let (l, d) := (d.addWord (R.SEQ_FN_SUBST f) 1).pondLook f l
  let l := { l with done := d.offRoute f l }
  (d.setFn f ((d.fn f).setLive l)).showNext f e

/-- The positions that wait for a substitute and whose lower positions are settled. -/
def Dev.substitutes (d : Dev) (f : Nat) : List Live :=
  (d.fn f).live.filter (fun l => l.waiting && !l.blocked && d.lowerSettled f l.pos)

/-- The work of a steep starts: substitutes first, then the positions of its record. -/
def Dev.beginSteep (d : Dev) (f : Nat) : Dev :=
  let r := d.recordNo f
  let d := (d.substitutes f).foldl (fun d l => d.substitute f r l) d
  let d :=
    if (d.fn f).past then d else
    let (first, n, _) := d.record f r
    let d := if n = 0 then d else d.showNext f (d.epochOf f (first + n - 1))
    (List.range n).foldl (fun d i => d.admitPos f r (first + i)) d
  let d := d.modFn f (fun r => { r with overCounted := false })
  if d.workDone f then d.modFn f (fun r => { r with doneAt := d.ftNs }) else d

/-! ## Membership (R109, R110) -/

/-- A membership epoch takes effect. -/
def Dev.membership (d : Dev) (f : Nat) : Dev :=
  match (d.fn f).staged with
  | none => d
  | some m =>
    let d := d.modFn f (fun r => { r with
      memb := some m
      staged := none })
    let d := ((d.set (R.SEQ_FN_MEMB_CUR_EPOCH f) m.epoch).set (R.SEQ_FN_MEMB_CUR_CONSUMERS f) m.consumers).set
      (R.SEQ_FN_STATUS_MEMB_STAGED f) 0
    d.partition f

/-- The checks of STAGE (R109). -/
def Dev.stageCheck (d : Dev) (f epoch steep table consumers : Nat) : Status :=
  let r := d.fn f
  if !d.loaded f then St.functionNotLoaded
  else if consumers = 0xFFFF then St.lengthReserved
  else if consumers = 0 ∨ 4096 < consumers then St.membershipInvalid
  else if !(match (d.img f).region 2 with
    | some g => g.holds table (32 * consumers)
    | none => false) then St.membershipInvalid
  else if epoch ≤ d.get (R.SEQ_FN_MEMB_CUR_EPOCH f) ∨ r.staged.any (fun m => epoch ≤ m.epoch) = true then St.epochNotNewer
  else if d.fnState f ≠ stStopped ∧ steep ≤ d.steepNo f then St.steepPassed
  else 0

/-- STAGE: an accepted one copies the consumer table. -/
def Dev.stageMemb (d : Dev) (f epoch steep table consumers : Nat) : Status × Dev :=
  let st := d.stageCheck f epoch steep table consumers
  let d := d.setSt (R.SEQ_FN_MEMB_CUR_STATUS f) st
  if st ≠ 0 then (st, d) else
  let m : Memb := ⟨epoch, steep, consumers, d.read table (32 * consumers)⟩
  (st, (d.modFn f (fun r => { r with staged := some m })).set (R.SEQ_FN_STATUS_MEMB_STAGED f) 1)

def execStage (f : FnId) (consumers : BitVec 16) (s : State) : Host.Outcome State Fault Refusal :=
  s.act .live (fun d =>
    let d := d.set (R.SEQ_FN_MEMB_CTRL_CONSUMERS f) consumers.toNat
    (d.stageMemb f (d.get (R.SEQ_FN_MEMB_EPOCH_EPOCH f)) (d.word (R.SEQ_FN_MEMB_STEEP f)).toNat
      (4096 * d.get (R.SEQ_FN_MEMB_TABLE_ADDR f)) consumers.toNat).2.reply St.ok)

/-! ## START and STOP (R102, R201, R475, R481) -/

/-- Whether a request of the function waits (R75, R102). -/
def Dev.fnPending (d : Dev) (f : Nat) : Bool :=
  d.fnState f == stStarting || d.fnState f == stStopping ||
    (match d.seq.pend with
      | some c => c.op != 1 && c.fn == f
      | none => false)

/-- The record at which a START would resume, and whether that point is valid. -/
def Dev.resumePoint (d : Dev) (f : Nat) (use : Bool) (from_ : Nat) : Nat × Bool :=
  if !use then (d.recordNo f, !d.has (R.SEQ_FN_STATUS_PLAN_END f))
  else (from_, from_ < d.steepCount f && (from_ == 0 || (d.record f (from_ - 1)).2.2))

/-- Whether storage power keeps the sequencer and the loader from new work (R201). -/
def Dev.powerDown (d : Dev) : Bool := d.get R.STC_POWER_STATUS_CURRENT != 0 || d.has R.STC_POWER_STATUS_ENTERING

/-- The checks of START. -/
def Dev.startCheck (d : Dev) (f at_ : Nat) (use : Bool) (from_ : Nat) : Status :=
  if d.fatal then St.deviceFatal
  else if d.has R.LGR_STATUS_SELF_FENCED then St.fenced
  else if d.powerDown then St.powerState
  else if !d.loaded f then St.functionNotLoaded
  else if d.fnPending f then St.requestPending
  else if d.fnState f ≠ stStopped then St.functionRunning
  else if !d.has R.SEQ_TICK_CTRL_RUNNING then St.ticksNotRunning
  else if at_ ≠ 0 ∧ at_ ≤ d.tickNo then St.tickPassed
  else if !(d.resumePoint f use from_).2 then St.resumeInvalid
  else 0

/-- START: accepted, the function is STARTING until its tick. -/
def Dev.startFn (d : Dev) (f at_ : Nat) (use : Bool) (from_ : Nat) : Status × Dev :=
  let st := d.startCheck f at_ use from_
  if st ≠ 0 then (st, d.fnDone f st)
  else (st, (d.modFn f (fun r => { r with
    pendStart := some (at_, (d.resumePoint f use from_).1)
    pendUse := use })).setFnState f stStarting)

def execStart (f : FnId) (s : State) : Host.Outcome State Fault Refusal :=
  s.act .live (fun d =>
    let d := d.set (R.SEQ_FN_CTRL_CMD f) 1
    (d.startFn f (d.word (R.SEQ_FN_START_AT f)).toNat (d.has (R.SEQ_FN_FROM_USE f)) (d.get (R.SEQ_FN_FROM_RECORD f))).2.reply St.ok)

/-- STOP: accepted, the function is STOPPING until a quiesce point. -/
def Dev.stopFn (d : Dev) (f : Nat) : Dev :=
  let d := d.set (R.SEQ_FN_CTRL_CMD f) 2
  if d.fatal then d.fnDone f St.deviceFatal
  else if !d.loaded f then d.fnDone f St.functionNotLoaded
  else if d.fnPending f then d.fnDone f St.requestPending
  else if d.fnState f = stStopped then d.fnDone f St.functionStopped
  else (d.modFn f (fun r => { r with pendStop := true })).setFnState f stStopping

def execStop (f : FnId) (s : State) : Host.Outcome State Fault Refusal := s.act .live (fun d => (d.stopFn f).reply St.ok)

/-- FN_CMD_INVALID: CMD 0 or 3. -/
def execFnCmdInvalid (f : FnId) (three : Bool) (s : State) : Host.Outcome State Fault Refusal :=
  s.act .live (fun d =>
    ((d.set (R.SEQ_FN_CTRL_CMD f) (if three then 3 else 0)).fnDone f (if d.fatal then St.deviceFatal else St.opInvalid)).reply St.ok)

/-- R124: `next` at a start, and the later log entries of the epoch unused. -/
def Dev.resumeLog (d : Dev) (f pos : Nat) : Dev :=
  let e := d.epochOf f pos
  let n := (d.poolOf f e).2
  let k := ((List.range n).filter (fun i => d.readLe (d.logAt f e i) 8 < pos)).length
  let d := (List.range (n - k)).foldl (fun d i =>
    if d.readLe (d.logAt f e (k + i)) 8 = 2 ^ 64 - 1 then d
    else d.write (d.logAt f e (k + i)) (List.replicate 8 0xFF ++ List.replicate 8 0)) d
  (d.modFn f (fun r => { r with pool := Map.put 0 [] e k })).showNext f e

/-- The lag is 0 again: CATCHUP and SCHED_LOST clear (R98, R100). -/
def Dev.lagZero (d : Dev) (f : Nat) : Dev :=
  let d := d.modFn f (fun r => { r with lag := 0 })
  ((d.setW (R.SEQ_FN_LAG f) 0).set (R.SEQ_FN_STATUS_CATCHUP f) 0).set (R.SEQ_FN_STATUS_SCHED_LOST f) 0

/-- A START commits at tick `n` (R102, R110, R124): the anchor is set, lag is 0, and the first steep begins. -/
def Dev.startCommit (d : Dev) (f n : Nat) : Dev :=
  match (d.fn f).pendStart with
  | none => d
  | some (_, rec_) =>
    let use := (d.fn f).pendUse
    let r := if use then rec_ else d.recordNo f
    let pos := (d.record f r).1
    let d := d.modFn f (fun x => { x with
      pendStart := none
      pendUse := false
      bPrev := d.tickAt n
      doneAt := d.tickAt n
      cleanRecord := r
      cursor := []
      past := false })
    let d := d.set (R.SEQ_FN_RECORD_RECORD f) r
    let d := if use then d.set (R.SEQ_FN_STATUS_PLAN_END f) 0 else d
    let d := ((d.setW (R.SEQ_FN_ANCHOR_TICK f) n).setW (R.SEQ_FN_ANCHOR_STEEP f) (d.steepNo f)).lagZero f
    let d := (d.resumeLog f pos).thrStart f
    let d := if (d.fn f).staged.any (fun m => m.steep ≤ d.steepNo f) then d.membership f else d
    let d := if pos % d.batchSize f ≠ 0 ∧ ((d.fn f).batch (d.batchOf f pos)).isSome then d.openBatch f pos else d
    ((d.setFnState f stRunning).fnDone f 0).beginSteep f

/-! ## KILL (R106) -/

/-- KILL is written: it withdraws what waits, and acts at the next tick. -/
def Dev.killWrite (d : Dev) (f : Nat) : Dev :=
  if !d.loaded f then d.fnDone f St.functionNotLoaded
  else if d.fnState f = stStopped then d.fnDone f St.functionStopped
  else d.modFn f (fun r => { r with
    pendKill := true
    pendStop := false })

def execKill (f : FnId) (s : State) : Host.Outcome State Fault Refusal :=
  s.act .live (fun d => (if d.fatal then d.fnDone f St.deviceFatal else d.killWrite f).reply St.ok)

/-- The instances of a function's blend. -/
def FnImage.instances (i : FnImage) : List (Nat × Nat) := (i.eps.map (fun e => (e.kind, e.inst))).eraseDups

/-- The data path of a function empty: channels, endpoints and engines (R106). Credits return, and the tokens of pools
1 and 2 are retired. -/
def Dev.clearPath (d : Dev) (f : Nat) : Dev :=
  let i := d.img f
  let n := d.held 1 f
  let d := i.chans.foldl (fun d c => d.setChan c ⟨c.credits, []⟩) d
  let d := (d.retire (poolNo 1 f) n).retire (poolNo 2 f) n
  let d := i.eps.foldl (fun d e => if e.out then d.setOutQ e.ep [] else d.setInQ e.ep []) d
  i.instances.foldl (fun d k => if k.1 = 1 ∨ k.1 = 9 then d else d.setEng k.1 k.2 Eng.idle) d

/-- Everything of the function's work in flight discarded and its tokens retired. -/
def Dev.clearWork (d : Dev) (f : Nat) : Dev :=
  let d := d.clearPath f
  let d := (d.retire (poolNo 3 f) (d.held 3 f)).retire (poolNo 6 f) (d.held 6 f)
  let d := d.retire (poolNo 5 f) (d.held 5 f)
  let mine := (d.sec.signQ.filter (fun x => x.fn = f)).length
  let d := ({ d with sec := { d.sec with signQ := d.sec.signQ.filter (fun x => x.fn ≠ f) } }).retire (poolNo 0x15 0) mine
  let d := d.modXpt (fun x => { x with done := x.done.filter (fun c => match c.issuer with
    | .shard g _ => g != f
    | _ => true) })
  let d := d.modFn f (fun r => { r with
    live := []
    fills := []
    reads := []
    batches := []
    stalls := []
    past := false })
  let d := { d with seq := { d.seq with merged := d.seq.merged.filter (fun e => d.owner 0xC e.1 != some f) } }
  (((d.set (R.SEQ_FN_STATUS_STALLED f) 0).set (R.SEQ_FN_POOL_EXHAUSTED f) 0).heldRegs f).thrKill f

/-- The loader request under way, if it is a change of function `f`, ends withdrawn (R106). -/
def Dev.withdrawChange (d : Dev) (f : Nat) : Dev :=
  let hit := (match d.seq.pend with
    | some c => c.op == 3 && c.fn == f
    | none => false) || (match d.seq.req with
    | some c => c.op == 3 && c.fn == f
    | none => false)
  if !hit then d else
  let d := { d with seq := { d.seq with
    req := none
    pend := none } }
  let d := ((d.set R.SEQ_IMG_STATUS_BUSY 0).set R.SEQ_IMG_STATUS_PENDING 0).set R.SEQ_IMG_STATUS_DONE 1
  d.setSt R.SEQ_IMG_STATUS_STATUS St.loadAborted

/-- KILL acts at a tick: the function is STOPPED, with its resume record after the last clean QUIESCE. -/
def Dev.killTick (d : Dev) (f : Nat) : Dev :=
  let d := d.withdrawChange f
  let st := d.fnState f
  let d := d.modFn f (fun r => { r with
    pendKill := false
    pendStart := none
    pendStop := false })
  if st = stStopped ∨ st = stUnloaded then d.fnDone f St.functionStopped
  else if st = stStarting then ((d.setFnState f stStopped).fnDone f 0).checkEmpty f
  else
    let d := d.setW (R.SEQ_FN_LAG_MAX f) (d.lagMax f)
    let d := ((d.xptKill f).colKill f).clearWork f
    let d := (d.setW (R.SEQ_FN_STEEP f) (d.steepNo f + 1)).set (R.SEQ_FN_RECORD_RECORD f) (d.fn f).cleanRecord
    ((d.setFnState f stStopped).fnDone f 0).checkEmpty f

end Sys2Proof.Machine
end

