-- ==== Sys2Proof/Machine/Brq.lean ====
section
/-! DEFINITION. The Breique image: header, directory, digests, IDENT, layout and blend (spec 02, R50 to R72), which are
the load stages 0x04 to 0x0B of R76. -/

namespace Sys2Proof.Machine

/-! ## What a check answers -/

/-- Why a load is refused: status, STAGE and SECTION (R76). -/
structure LoadErr where
  st : Status
  stage : Nat
  sect : Nat
  deriving DecidableEq, Repr

/-- A check of the loader: the first failure ends it. -/
abbrev Chk := Except LoadErr
/-- A check inside one section: the stage and section are known outside. -/
abbrev Sck := Except Status

/-- The condition holds, or the section is refused. -/
def need (c : Bool) (st : Status) : Sck Unit := if c then .ok () else .error st

/-- A length, count or size field under R15 and R16. -/
def lenOk (w len bound : Nat) : Sck Unit :=
  match lenCheck w len bound with
  | some st => .error st
  | none => .ok ()

/-- A section's check with its stage and section. -/
def at_ (stage sect : Nat) {α : Type} (c : Sck α) : Chk α :=
  match c with
  | .ok a => .ok a
  | .error st => .error ⟨st, stage, sect⟩

/-- SECTION where no section is named. -/
def noSect : Nat := 0xFF

/-! ## Header and directory (R51 to R54) -/

/-- A directory entry (R52). -/
structure Entry where
  idx : Nat
  type : Nat
  fn : Nat
  off : Nat
  len : Nat
  place : Nat
  digest : Bytes
  deriving DecidableEq, Repr

/-- An image as the loader sees it once its header has passed. -/
structure Brq where
  bytes : Bytes
  dev : Bool                      -- a device image
  fn : Nat
  entries : List Entry
  deriving DecidableEq, Repr

def Brq.body (b : Brq) (e : Entry) : Bytes := slice b.bytes e.off e.len
def Brq.imageId (b : Brq) : Nat := fld b.bytes 0x28 8
/-- The image digest (R72). -/
def Brq.digest (b : Brq) : Bytes := sha512 (slice b.bytes 0 (0x100 + 96 * b.entries.length))
/-- The entry of a TYPE and FUNCTION. -/
def Brq.entry (b : Brq) (type fn : Nat) : Option Entry := b.entries.find? (fun e => e.type = type && e.fn = fn)
/-- The body of a TYPE and FUNCTION, empty where the image has none. -/
def Brq.sect (b : Brq) (type fn : Nat) : Bytes := (b.entry type fn).elim [] b.body
/-- The functions that are part of the image, in directory order of their BLEND entries (R54). -/
def Brq.fns (b : Brq) : List Nat := (b.entries.filter (fun e => e.type = 2)).map (·.fn)

def brqMagic : Bytes := [0x42, 0x52, 0x45, 0x49, 0x51, 0x55, 0x45, 0x31]

def entryOf (img : Bytes) (i : Nat) : Entry :=
  let o := 0x100 + 96 * i
  ⟨i, fld img o 1, fld img (o + 1) 1, fld img (o + 8) 8, fld img (o + 16) 8, fld img (o + 24) 8, slice img (o + 32) 64⟩

/-- Stage 0x04: the header (R51, R74). -/
def brqHeader (op fn : Nat) (img : Bytes) : Chk Brq := do
  let n := fld img 0xC 2
  let kind := fld img 0xA 1
  let f := fld img 0xB 1
  at_ 4 noSect (need (slice img 0 8 == brqMagic && fld img 8 2 == 1 && fld img 0xE 2 == 0x100 && fld img 0x18 8 == 0x100
    && (1 ≤ n && n ≤ 254) && fld img 0x10 8 == img.length && 0x100 + 96 * n ≤ img.length && fld img 0x28 8 != 0
    && allZero (slice img 0x38 136)
    && (if op = 1 then kind == 1 && f == 0xFF else kind == 2 && f == fn)) St.imageFormat)
  pure ⟨img, op == 1, f, (List.range n).map (entryOf img)⟩

/-- Stages 0x05 and 0x06: owner key and signature (R70, R71). -/
def brqSigned (owner : Bytes) (b : Brq) : Chk Unit := do
  at_ 5 noSect (need (!owner.isEmpty && fld b.bytes 0x20 8 == keyId owner) St.ownerKeyMismatch)
  at_ 6 noSect (need (edVerify owner (slice b.bytes 0 0xC0 ++ slice b.bytes 0x100 (96 * b.entries.length)) (slice b.bytes 0xC0 64))
    St.signatureInvalid)

/-- The section types that stay resident (R54). -/
def resident (t : Nat) : Bool := [3, 4, 5, 6, 7, 8, 0xB, 0xC].contains t
/-- The device-wide section types. -/
def deviceWide (t : Nat) : Bool := t == 1 || t == 9 || t == 0xA

/-- One directory entry (R53, steps 1 to 8). -/
def brqEntry (b : Brq) (e : Entry) : Sck Unit := do
  let n := b.bytes.length
  let before := b.entries.take e.idx
  need (1 ≤ e.type && e.type ≤ 0xD && allZero (slice b.bytes (0x102 + 96 * e.idx) 6)) St.sectionInvalid
  need (e.len != 2 ^ 64 - 1) St.lengthReserved
  need (e.off % 4096 == 0 && e.off ≤ n) St.sectionInvalid
  need (e.off + e.len ≤ n) St.lengthExceedsBuffer
  need (before.all (fun x => x.off ≤ e.off && (x.len == 0 || e.len == 0 || x.off + x.len ≤ e.off))
    && 0x100 + 96 * b.entries.length ≤ e.off) St.sectionInvalid
  need (if deviceWide e.type then e.fn == 0xFF && (b.dev || e.type == 1) else e.fn < 16 && (b.dev || e.fn == b.fn)) St.sectionInvalid
  need (if resident e.type then e.place != 0 && e.place % 4096 == 0 else e.place == 0) St.sectionInvalid
  need (before.all (fun x => !(x.type == e.type && x.fn == e.fn))) St.sectionInvalid

/-- Stage 0x07: the directory (R53, R54). -/
def brqDirectory (b : Brq) : Chk Unit := do
  b.entries.forM (fun e => at_ 7 e.idx (brqEntry b e))
  b.entries.forM (fun e => at_ 7 e.idx (need (16 ≤ e.fn || b.fns.contains e.fn) St.sectionInvalid))
  at_ 7 noSect (need ((b.entry 1 0xFF).isSome && (!b.dev || ((b.entry 9 0xFF).isSome && (b.entry 0xA 0xFF).isSome))
    && (b.dev || (b.entry 2 b.fn).isSome)) St.sectionInvalid)
  (b.entries.filter (fun e => e.type = 2)).forM (fun e =>
    at_ 7 e.idx (need ([3, 4, 5, 0xD].all (fun t => (b.entry t e.fn).isSome)) St.sectionInvalid))

/-- Stage 0x08: the digests (R71). -/
def brqDigests (b : Brq) : Chk Unit :=
  b.entries.forM (fun e => at_ 8 e.idx (need (sha512 (b.body e) == e.digest) St.sectionDigestMismatch))

/-! ## IDENT and regions (R55 to R59) -/

/-- The IDENT requirement of a unit kind of the blend (R61). -/
def reqOf (ident : Bytes) (kind : Nat) : Option Nat :=
  match kind with
  | 2 => some (fld ident 0x16 2)
  | 3 => some (fld ident 0x12 2)
  | 4 => some (fld ident 0x14 2)
  | 6 => some (fld ident 0x18 2)
  | 7 => some (fld ident 0x1A 2)
  | 8 => some (fld ident 0x1C 2)
  | _ => none

/-- Stage 0x09: IDENT (R55, R56, R8). -/
def Dev.brqIdent (d : Dev) (b : Brq) : Chk Unit := do
  let i := b.sect 1 0xFF
  let n := fld i 0x20 4
  at_ 9 ((b.entry 1 0xFF).elim noSect (·.idx)) (need (n ≤ 256 && i.length == 0x40 + 32 * n && fld i 4 4 < 2
    && allZero (slice i 0x1E 2) && allZero (slice i 0x24 28) && (List.range n).all (fun k =>
      let o := 0x40 + 32 * k
      fld i (o + 2) 2 < 2 && allZero (slice i (o + 4) 4) && allZero (slice i (o + 24) 8))) St.sectionInvalid)
  at_ 9 noSect (need (fld i 0 2 == d.get R.GLB_ID_PART_CODE
    && fld i 2 2 ≤ d.get R.GLB_ID_STEP_MAJOR * 256 + d.get R.GLB_ID_STEP_MINOR) St.targetMismatch)
  at_ 9 noSect (need (fld i 0x10 2 ≤ d.get R.GLB_UNITS_THR_CORES && fld i 0x12 2 ≤ d.get R.GLB_UNITS_VDE
    && fld i 0x14 2 ≤ d.get R.GLB_UNITS_JPG && fld i 0x16 2 ≤ d.get R.GLB_UNITS_RCX && fld i 0x18 2 ≤ d.get R.GLB_UNITS_BPE_LANES
    && fld i 0x1A 2 ≤ d.get R.GLB_UNITS_MASK_UNITS && fld i 0x1C 2 ≤ d.get R.GLB_UNITS_DETOK) St.unitsInsufficient)
  let s := fld i 8 8
  at_ 9 noSect (need (4000 ≤ s && s ≤ 10000000 && (b.dev || s == d.steepNs)) St.steepLength)
  at_ 9 noSect (need (b.dev || (fld i 4 4 == 1) == d.det) St.modeMismatch)

/-- The region records of an image that claim something, in order. -/
def brqRegions (ident : Bytes) : List Region :=
  ((List.range (fld ident 0x20 4)).map (fun k =>
    let o := 0x40 + 32 * k
    (⟨fld ident o 1, fld ident (o + 1) 1, fld ident (o + 2) 2 == 1, fld ident (o + 8) 8, fld ident (o + 16) 8⟩ : Region))).filter
    (fun r => r.size != 0)

def Region.meets (a b : Region) : Bool := a.base < b.base + b.size && b.base < a.base + a.size

/-- The function's Pond region. -/
def FnImage.pond (i : FnImage) : Option Region := i.region 1

/-- One region record (R57, R59). -/
def Dev.brqRegion (d : Dev) (op : Nat) (b : Brq) (r : Region) : Sck Unit := do
  need (r.size != 2 ^ 64 - 1) St.lengthReserved
  need (r.size ≤ fixedBase) St.lengthExceedsBuffer
  need (r.base + r.size ≤ fixedBase && r.base % 0x200000 == 0 && r.size % 0x200000 == 0 && 1 ≤ r.kind && r.kind ≤ 7
    && (if r.kind = 7 then r.fn == 0xFF && b.dev && r.size ≤ 0x400000000 else b.fns.contains r.fn)
    && (!r.retain || (op == 3 && r.kind == 1 && (d.img b.fn).pond.any (fun p => p.base == r.base && p.size == r.size)))) St.layoutInvalid

/-- No two of a list of regions overlap. -/
def apart : List Region → Bool
  | [] => true
  | r :: l => l.all (fun x => !r.meets x) && apart l

/-- Stage 0x0A: regions and layout (R57 to R59). `staged` is the local range that holds the image, empty for a peer's. -/
def Dev.brqLayout (d : Dev) (op : Nat) (staged : Region) (b : Brq) : Chk Unit := do
  let rs := brqRegions (b.sect 1 0xFF)
  rs.forM (fun r => at_ 0xA noSect (d.brqRegion op b r))
  let count := fun f k => (rs.filter (fun r => r.fn = f && r.kind = k)).length
  let taken := if b.dev then [] else (d.loadedFns.flatMap (fun e => e.2.regions)) ++ d.seq.overflow.toList
  at_ 0xA noSect (need (
    b.fns.all (fun f => count f 1 ≤ 1 && count f 2 == 1 && count f 3 ≤ 1 && count f 5 ≤ 1 && count f 6 ≤ 1) && count 0xFF 7 ≤ 1
    && apart rs
    && rs.all (fun r => !(staged.size != 0 && r.meets staged) && taken.all (fun x =>
      !r.meets x || (r.retain && x.kind == 1 && x.fn == b.fn)))
    && b.entries.all (fun e => !resident e.type || e.len == 0 || rs.any (fun r =>
      r.fn = e.fn && r.kind = (if e.type = 7 then 3 else 2) && r.holds e.place e.len))) St.layoutInvalid)

/-! ## The blend (R60 to R64) -/

/-- Logical instances, input ports and output ports of a unit kind (R61). -/
def unitKind (k : Nat) : Option (Nat × Nat × Nat) :=
  match k with
  | 1 => some (32, 0, 4)
  | 2 => some (16, 1, 1)
  | 3 => some (32, 1, 1)
  | 4 => some (64, 1, 1)
  | 5 => some (32, 2, 2)
  | 6 => some (64, 1, 1)
  | 7 => some (32, 1, 1)
  | 8 => some (64, 1, 1)
  | 9 => some (256, 1, 1)
  | 0xA => some (16, 16, 1)
  | 0xB => some (16, 4, 4)
  | 0xC => some (64, 4, 4)
  | _ => none

def endpointOf (b : Bytes) (o : Nat) : Endpoint :=
  ⟨fld b o 2, fld b (o + 2) 1, 128 ≤ fld b (o + 3) 1, fld b (o + 3) 1 % 128, fld b (o + 4) 2, fld b (o + 6) 2⟩

def chanOf (b : Bytes) (o : Nat) : ChanRec :=
  ⟨fld b o 2, fld b (o + 2) 2, fld b (o + 4) 2, fld b (o + 6) 2, fld b (o + 8) 4, fld b (o + 12) 4⟩

/-- What function `f` takes from an image (R54, R57, R60, R67). -/
def brqFn (b : Brq) (f : Nat) : FnImage :=
  let h := b.sect 2 f
  let k := b.sect 0xD f
  let ec := fld h 2 2
  { imageId := b.imageId
    digest := b.digest
    regions := (brqRegions (b.sect 1 0xFF)).filter (fun r => r.fn = f)
    sects := (b.entries.filter (fun e => e.fn = f && resident e.type)).map (fun e => ⟨e.type, e.place, e.len⟩)
    eps := (List.range ec).map (fun i => endpointOf h (64 + 8 * i))
    chans := (List.range (fld h 4 2)).map (fun i => chanOf h (64 + 8 * ec + 16 * i))
    bwShare := fld h 6 2
    tcMask := fld h 8 4
    colLanes := fld h 0xC 2
    coreBase := fld h 0x10 2
    coreCount := fld h 0xE 2
    qpBase := fld h 0x18 4
    qpCount := fld h 0x14 4
    medSlots := (List.range 32).map (fun i => fld h (0x20 + i) 1)
    seed := slice k 0x20 32
    sign := (fld k 1 1).testBit 0
    peers := (List.range (min (fld k 4 4) (k.length / 64))).map (fun i =>
      ⟨fld k (0x40 + 64 * i) 2, fld k (0x42 + 64 * i) 2 == 1, slice k (0x50 + 64 * i) 32⟩) }

/-- No value stands twice. -/
def unique {α : Type} [BEq α] : List α → Bool
  | [] => true
  | a :: l => !l.contains a && unique l

/-- What one function owns alone: an instance, or an output port of a media channel (R38, R64). -/
def Endpoint.claim (e : Endpoint) : Nat × Nat × Nat := if e.kind = 1 then (1, e.inst, e.port) else (e.kind, e.inst, 0)

/-- Instances left once every one without an input from the rest has been taken away, as often as `fuel` says. -/
def peel (edges : List ((Nat × Nat) × (Nat × Nat))) : Nat → List ((Nat × Nat) × (Nat × Nat))
  | 0 => edges
  | n + 1 => peel (edges.filter (fun e => edges.any (fun x => x.2 == e.1))) n

/-- Whether the directed graph of instances and channels has a cycle (R64). -/
def cyclic (edges : List ((Nat × Nat) × (Nat × Nat))) : Bool := !(peel edges (edges.length + 1)).isEmpty

def rangesMeet (a n b m : Nat) : Bool := n != 0 && m != 0 && a < b + m && b < a + n

def sumBy {α : Type} (g : α → Nat) (l : List α) : Nat := l.foldl (fun n a => n + g a) 0

/-- One endpoint record (R61, R62). -/
def endpointWf (ident : Bytes) (f : Nat) (e : Endpoint) : Bool :=
  match unitKind e.kind with
  | none => false
  | some (n, ins, outs) =>
    e.ep < 512 && e.inst < (reqOf ident e.kind).getD n && e.port < (if e.out then outs else ins)
      && ((e.kind != 0xA && e.kind != 0xB) || e.inst == f)

/-- The blend of one function against those of the same image before it (`prev`) and of other loaded functions
(`others`) (R60 to R64). -/
def brqBlend (ident h : Bytes) (f : Nat) (i : FnImage) (prev others : List FnImage) : Sck Unit := do
  let all := prev ++ others
  let ec := fld h 2 2
  need (h.length == 64 + 8 * ec + 16 * fld h 4 2 && fld h 0 1 == f && fld h 1 1 == 0 && fld h 0x12 2 == 0 && fld h 0x1C 4 == 0)
    St.blendInvalid
  need (i.eps.all (endpointWf ident f) && unique (i.eps.map (·.ep)) && unique (i.eps.map (fun e => (e.kind, e.inst, e.out, e.port)))
    && i.eps.all (fun e => all.all (fun x => !x.eps.any (fun y => y.ep == e.ep))
      && prev.all (fun x => !x.eps.any (fun y => y.claim == e.claim)))) St.blendInvalid
  i.chans.forM (fun c => do
    lenOk 16 c.buf 4096
    need (c.spill != 2 ^ 32 - 1) St.lengthReserved
    need (c.no < 16384 && c.buf != 0 && c.credits == (c.buf + c.spill) * 16) St.blendInvalid
    need ((i.ep c.prod).any (·.out) && (i.ep c.cons).any (fun e => !e.out)) St.blendInvalid
    need (all.all (fun x => !x.chans.any (fun y => y.no == c.no))) St.blendInvalid)
  need (unique (i.chans.map (·.no)) && i.eps.all (fun e =>
    (i.chans.filter (fun c => (if e.out then c.prod else c.cons) = e.ep)).length == 1) && !cyclic i.edges) St.blendInvalid
  need (i.coreBase + i.coreCount ≤ fld ident 0x10 2 && i.qpBase + i.qpCount ≤ 1048576
    && i.bwShare + sumBy (·.bwShare) all ≤ 960 && i.colLanes + sumBy (·.colLanes) all ≤ 256
    && all.all (fun x => x.tcMask &&& i.tcMask == 0)
    && (List.range 32).all (fun c => i.medSlots.getD c 0 + sumBy (fun x => x.medSlots.getD c 0) all ≤ 64)
    && prev.all (fun x => !rangesMeet x.coreBase x.coreCount i.coreBase i.coreCount && !rangesMeet x.qpBase x.qpCount i.qpBase i.qpCount))
    St.reservationExceeded
  need (others.all (fun x => !rangesMeet x.coreBase x.coreCount i.coreBase i.coreCount
    && !rangesMeet x.qpBase x.qpCount i.qpBase i.qpCount
    && !i.eps.any (fun e => x.eps.any (fun y => y.claim == e.claim)))) St.resourceConflict
  need (4096 * sumBy (fun x => sumBy (·.buf) x.chans) (i :: all) ≤ 0x4000000) St.sramExhausted
  need (sumBy (fun x => x.eps.length) (i :: all) ≤ 512 && sumBy (fun x => x.chans.length) (i :: all) ≤ 16384) St.crossbarExhausted
  need (4096 * sumBy (·.spill) i.chans ≤ (i.region 5).elim 0 (·.size)) St.layoutInvalid

/-- The sections that a blend requires (R54). -/
def requiredSects (i : FnImage) : List Nat :=
  let has := fun (p : Nat → Bool) => i.eps.any (fun e => p e.kind)
  (if has (fun k => (2 ≤ k && k ≤ 9) || k == 0xC) then [6] else []) ++ (if has (· == 9) then [7] else []) ++
    (if has (· == 1) then [8] else []) ++ (if has (fun k => 6 ≤ k && k ≤ 8) then [0xB] else []) ++ (if has (· == 7) then [0xC] else [])

/-- The other loaded functions: for a change, without the one that is replaced. -/
def Dev.otherFns (d : Dev) (b : Brq) : List (Nat × FnImage) := if b.dev then [] else d.loadedFns.filter (fun e => e.1 ≠ b.fn)

/-- Stage 0x0B: the blends, then the sections that they require. -/
def Dev.brqBlends (d : Dev) (b : Brq) : Chk Unit := do
  let blends := b.entries.filter (fun e => e.type = 2)
  let ident := b.sect 1 0xFF
  let others := (d.otherFns b).map (·.2)
  blends.forM (fun e => at_ 0xB e.idx (brqBlend ident (b.body e) e.fn (brqFn b e.fn)
    ((blends.filter (fun x => x.idx < e.idx)).map (fun x => brqFn b x.fn)) others))
  blends.forM (fun e => at_ 0xB e.idx (need ((requiredSects (brqFn b e.fn)).all (fun t => (b.entry t e.fn).isSome)) St.sectionInvalid))

end Sys2Proof.Machine
end

