-- ==== Sys2Proof/Machine/Sect.lean ====
section
/-! DEFINITION. Load stage 0x0D, the sections of a function: KEYS, TABLES, PLAN, ORDER, SUBST, MAP (R66 to R69, R85 to
R91, R113 to R120, R158, R159), and VOCAB, GRAMMAR and KERNELS (R253 to R260, R268, R341 to R343). -/

namespace Sys2Proof.Machine

/-- What the checks of one function's sections see: the image, the function, its blend and regions. -/
structure Fc where
  b : Brq
  f : Nat
  i : FnImage

def Fc.sect (c : Fc) (type : Nat) : Bytes := c.b.sect type c.f
def Fc.has (c : Fc) (type : Nat) : Bool := (c.b.entry type c.f).isSome
def Fc.ident (c : Fc) : Bytes := c.b.sect 1 0xFF

/-- How many entries of `n` bytes a body holds from an offset on. -/
def room (b : Bytes) (o n : Nat) : Nat := (b.length - o) / n

/-- Parts, as offset and length, of which no two overlap. -/
def partsApart : List (Nat × Nat) → Bool
  | [] => true
  | (a, n) :: l => l.all (fun x => !rangesMeet a n x.1 x.2) && partsApart l

/-- Every part lies in the body. -/
def inBody (b : Bytes) (l : List (Nat × Nat)) : Bool := l.all (fun x => x.1 + x.2 ≤ b.length)

/-- Every number below `n`. -/
def upTo (n : Nat) (p : Nat → Bool) : Bool := (List.range n).all p

/-- A check for every number below `n`. -/
def eachOf (n : Nat) (p : Nat → Sck Unit) : Sck Unit := (List.range n).forM p

/-! ## KEYS (R67) -/

def keysCheck (c : Fc) : Sck Unit := do
  let b := c.sect 0xD
  let n := fld b 4 4
  let node := fun i => fld b (0x40 + 64 * i) 2
  lenOk 32 n (room b 0x40 64)
  need (n ≤ 4096 && b.length == 0x40 + 64 * n && fld b 0 1 == c.f && fld b 1 1 < 2 && allZero (slice b 2 2) && allZero (slice b 8 24)
    && upTo n (fun i =>
      let o := 0x40 + 64 * i
      node i < 0xFFF && fld b (o + 2) 2 < 2 && allZero (slice b (o + 4) 4) && allZero (slice b (o + 0x30) 16)
        && fld b (o + 8) 8 == keyId (slice b (o + 0x10) 32) && (edDec (slice b (o + 0x10) 32)).isSome)
    && unique ((List.range n).map node)) St.keysInvalid

/-! ## TABLES (R68) -/

/-- The size of a record kind. -/
def recordSize (k : Nat) : Option Nat :=
  match k with
  | 2 | 3 | 7 | 9 => some 64
  | 4 | 6 | 8 => some 32
  | 5 => some 128
  | 0xC => some 16
  | 0x10 => some 192
  | _ => none

/-- Whether endpoints of a unit kind name a configuration record. -/
def configured (k : Nat) : Bool := (2 ≤ k && k ≤ 9) || k == 0xC

/-- Record `i` of a TABLES body. -/
def tableRec (b : Bytes) (i : Nat) : Bytes := slice b (fld b (0x40 + 16 * i) 8) (fld b (0x48 + 16 * i) 4)

def tablesCheck (c : Fc) : Sck Unit := do
  let b := c.sect 6
  let n := fld b 4 4
  let off := fun i => fld b (0x40 + 16 * i) 8
  let len := fun i => fld b (0x48 + 16 * i) 4
  let kind := fun i => fld b (0x4C + 16 * i) 1
  lenOk 32 n (room b 0x40 16)
  eachOf n (fun i => lenOk 32 (len i) (b.length - off i))
  need (1 ≤ n && n ≤ 65535 && fld b 0 1 == c.f && allZero (slice b 1 3) && allZero (slice b 8 56)
    && upTo n (fun i => allZero (slice b (0x4D + 16 * i) 3) && off i % 64 == 0 && off i + len i ≤ b.length
      && recordSize (kind i) == some (len i) && kind i == fld b (off i) 1)
    && partsApart ((0, 0x40 + 16 * n) :: (List.range n).map (fun i => (off i, len i)))
    && upTo n (fun i => 0x40 + 16 * n ≤ off i)
    && c.i.eps.all (fun e => if configured e.kind then e.config < n && kind e.config == e.kind else e.config == 0xFFFF)
    && c.i.eps.all (fun e => c.i.eps.all (fun x => !(x.kind == e.kind && x.inst == e.inst) || x.config == e.config))) St.tablesInvalid

/-! ## PLAN (R85 to R91) -/

/-- The rate of a unit kind, in units per second and share (R87). -/
def unitRate (u : Nat) : Nat :=
  match u with
  | 1 => 878906
  | 2 => 375000000
  | 3 => 7776000
  | 4 => 28125000
  | 5 => 31250000
  | 6 => 15625000
  | 7 => 25000000
  | 8 => 100000000
  | 9 => 2343750
  | 0xA => 300000000
  | _ => 0

/-- The work unit of a stage kind (R87). -/
def unitOf (kind : Nat) : Nat := if 0xA ≤ kind then 0xA else kind

/-- The SHARE of a stage (R86). -/
def Fc.share (c : Fc) (e : Endpoint) : Nat :=
  match e.kind with
  | 1 => c.i.medSlots.getD e.inst 0
  | 9 => fld (tableRec (c.sect 6) e.config) 0xA 2
  | 0xA | 0xB | 0xC => (c.i.eps.filter (fun x => x.kind = e.kind && x.inst = e.inst && !x.out)).length
  | _ => 1

/-- The most CAPACITY of a stage (R88). -/
def capLimit (kind unit share steepNs slack : Nat) : Nat :=
  let n := unitRate unit * share * steepNs * (1024 - slack)
  if kind = 1 then n / (64 * 1024 * 1000000000) else n / (1024 * 1000000000)

/-- Whether QUIESCE stands in at least one of any `m` records in a row (R91 step 8). -/
def quiesceOften (m : Nat) (flag : Nat → Bool) : Nat → Nat → Nat → Bool
  | 0, _, _ => true
  | n + 1, r, gap =>
    let g := if flag r then 0 else gap + 1
    g < m && quiesceOften m flag n (r + 1) g

def planCheck (c : Fc) : Sck Unit := do
  let b := c.sect 3
  let sc := fld b 0xC 2
  let cc := fld b 0x10 4
  let rc := fld b 0x18 8
  let ns := fld b 0x20 8
  let co := fld b 0x28 8
  let ao := fld b 0x30 8
  let ro := fld b 0x38 8
  let rec_ := fun r => ro + 16 * r
  let stage := fun k => 0x40 + 16 * k
  eachOf (min (cc * sc) (room b co 4)) (fun k => need (fld b (co + 4 * k) 4 != 2 ^ 32 - 1) St.lengthReserved)
  eachOf (min rc (room b ro 16)) (fun r => need (fld b (rec_ r + 8) 4 != 2 ^ 32 - 1) St.lengthReserved)
  need (fld b 0 1 == c.f && fld b 1 1 == 0 && 1 ≤ fld b 2 2 && fld b 2 2 ≤ 512 && 1 ≤ fld b 4 2 && fld b 4 2 ≤ 4096
    && 1 ≤ fld b 6 2 && fld b 6 2 ≤ 4096 && 1 ≤ fld b 8 4 && fld b 8 4 ≤ 1048576 && 1 ≤ sc && sc ≤ 512 && fld b 0xE 2 == 0
    && 1 ≤ cc && cc ≤ 65535 && fld b 0x14 4 == 0 && 1 ≤ rc && rc ≤ 2 ^ 48 - 1 && ns == fld (c.sect 4) 8 8
    && co % 64 == 0 && ao % 64 == 0 && ro % 64 == 0 && b.length == ro + 16 * rc) St.planInvalid
  need (inBody b [(0x40, 16 * sc), (co, 4 * sc * cc), (ao, 2 * ns)]) St.planInvalid
  need (upTo sc (fun k => 1 ≤ fld b (stage k + 2) 1 && fld b (stage k + 2) 1 ≤ 0xA && 1 ≤ fld b (stage k + 4) 4
      && allZero (slice b (stage k + 0xA) 6))
    && upTo rc (fun r => fld b (rec_ r + 0xC) 2 < 2 && fld b (rec_ r + 0xE) 2 == 0)) St.planInvalid
  need (partsApart [(0, 0x40 + 16 * sc), (co, 4 * sc * cc), (ao, 2 * ns), (ro, 16 * rc)]) St.planInvalid
  let eps := (List.range sc).map (fun k => c.i.ep (fld b (stage k) 2))
  need (upTo sc (fun k => match eps.getD k none with
      | some e => e.out == (e.kind == 1) && fld b (stage k + 2) 1 == unitOf e.kind && fld b (stage k + 8) 2 == c.share e
      | none => false)
    && unique (eps.map (fun e => e.map (fun x => (x.kind, x.inst))))) St.planInvalid
  need (upTo ns (fun i => fld b (ao + 2 * i) 2 < cc)) St.planInvalid
  need (upTo rc (fun r => fld b (rec_ r) 8 == (if r = 0 then 0 else fld b (rec_ (r - 1)) 8 + fld b (rec_ (r - 1) + 8) 4))) St.planInvalid
  let q := fun r => (fld b (rec_ r + 0xC) 2).testBit 0
  need (q (rc - 1)) St.planInvalid
  need (quiesceOften (fld b 6 2) q rc 0 0) St.planInvalid
  need (upTo sc (fun k => match eps.getD k none with
    | some e => fld b (stage k + 4) 4 ≤ capLimit e.kind (fld b (stage k + 2) 1) (fld b (stage k + 8) 2) (fld c.ident 8 8) (fld b 2 2)
    | none => true)) St.planOverbooked

/-- Whether a list rises strictly. -/
def rising : List Nat → Bool
  | a :: b :: l => a < b && rising (b :: l)
  | _ => true

/-! ## ORDER (R113 to R116) -/

/-- The size of the image's Pond region of the function. -/
def Fc.pondSize (c : Fc) : Nat := c.i.pond.elim 0 (·.size)

/-- Whether `l` is a permutation of 0 to n − 1 (R112). -/
def isPerm (n : Nat) (l : List Nat) : Bool := l.length == n && l.all (· < n) && rising (l.mergeSort (· ≤ ·))

/-- The delivering channel of an extent in a MAP body (R558), where its namespace entry reaches so far. -/
def Dev.mapChannel (d : Dev) (m : Bytes) (x : Nat) : Option Nat :=
  let e := fld m 0x10 8 + 32 * x
  let ns := fld m e 2
  let s := fld m (e + 0x10) 8
  if ns < fld m 4 4 ∧ s / d.sbSectors < fld m (0x48 + 32 * ns) 4 then some (placeOf (s % d.sbSectors)).2.1 else none

def Dev.orderCheck (d : Dev) (c : Fc) : Sck Unit := do
  let b := c.sect 4
  let ns := fld b 8 8
  let n := fld b 0x10 8
  let ec := fld b 0x18 4
  let pond := fld b 0x38 8
  let et := 0x40 + 32 * ns
  let smp := fun i => 0x40 + 32 * i
  let ep := fun e => et + 32 * e
  lenOk 32 (fld b 4 4) (2 ^ 32)
  lenOk 64 ns (room b 0x40 32)
  need (n != 2 ^ 64 - 1) St.lengthReserved
  lenOk 32 ec (room b et 32)
  need (fld b 0x20 8 != 2 ^ 64 - 1) St.lengthReserved
  lenOk 32 (fld b 0x28 4) (2 ^ 32)
  lenOk 16 (fld b 0x2C 2) (2 ^ 16)
  lenOk 16 (fld b 0x2E 2) (2 ^ 16)
  need (pond != 2 ^ 64 - 1) St.lengthReserved
  let arrays := ((List.range ec).filter (fun e => fld b (ep e) 1 = 2)).map (fun e => (fld b (ep e + 8) 8, 8 * n))
  need (arrays.all (fun a => a.1 + a.2 ≤ b.length)) St.lengthExceedsBuffer
  let mode := fld b 1 1
  need (fld b 0 1 == c.f && mode ≤ 2 && fld b 2 2 == 0 && 1 ≤ fld b 4 4 && ns == fld (c.sect 3) 0x20 8 && 1 ≤ n && n ≤ ns
    && n % fld b 4 4 == 0 && fld b 0x1E 2 == 0 && fld b 0x34 4 == 0
    && (if mode = 0 then 1 ≤ fld b 0x20 8 && fld b 0x28 4 == 0 && fld b 0x2C 2 == 0 && fld b 0x2E 2 == 0
      else fld b 0x20 8 == 0 && 1 ≤ fld b 0x28 4 && fld b 0x28 4 ≤ 4194304 && 1 ≤ fld b 0x2C 2 && 1 ≤ fld b 0x2E 2)
    && (pond == 0 || (pond % 4096 == 0 && 8192 ≤ pond && c.pondSize != 0))
    && (fld b 0x1C 2 == 0xFFFF || (c.i.ep (fld b 0x1C 2)).any (fun e => !e.out))
    && upTo ns (fun i => allZero (slice b (smp i + 0x19) 7))
    && upTo ec (fun e => fld b (ep e) 1 ≤ 2 && fld b (ep e + 1) 1 ≤ 3 && fld b (ep e + 2) 2 == 0 && fld b (ep e + 0x14) 4 == 0
      && (if fld b (ep e) 1 = 2 then fld b (ep e + 8) 8 % 8 == 0 else fld b (ep e + 8) 8 == 0))) St.orderInvalid
  need (arrays.all (fun a => et + 32 * ec ≤ a.1) && partsApart arrays) St.orderInvalid
  let pl := c.sect 3
  let last := fld pl 0x38 8 + 16 * (fld pl 0x18 8 - 1)
  need (ec * n == fld pl last 8 + fld pl (last + 8) 4) St.orderInvalid
  need (arrays.all (fun a => isPerm n ((List.range n).map (fun j => fld b (a.1 + 8 * j) 8)))) St.orderInvalid
  let slot := fun i => fld b (smp i + 0x14) 4
  need (upTo ns (fun i => slot i == 2 ^ 32 - 1 || (pond != 0 && slot i < c.pondSize / pond && fld b 0x1C 2 != 0xFFFF))) St.orderInvalid
  let m := c.sect 8
  let port := fun i => fld b (smp i + 0x18) 1
  let ext := fun i => fld b (smp i + 8) 8
  need (upTo ns (fun i => port i == 0xFF || (port i ≤ 3 && c.has 8 && ext i < fld m 8 8
      && (match d.mapChannel m (ext i) with
        | some ch => c.i.eps.any (fun e => e.kind == 1 && e.inst == ch && e.out && e.port == port i)
        | none => false)))
    && upTo ec (fun e => fld b (ep e + 0x10) 4 < fld (c.sect 5) 4 4)) St.orderInvalid
  need (!(c.i.pond.any (·.retain)) || pond == d.pondSlotBytes c.f) St.orderInvalid
  need (rising (((List.range ns).map (fun i => fld b (smp i) 8)).mergeSort (· ≤ ·))) St.orderInvalid

/-! ## SUBST (R120) -/

def substCheck (c : Fc) : Sck Unit := do
  let b := c.sect 5
  let o := c.sect 4
  let n := fld b 4 4
  let la := fld b 8 8
  let le_ := fld b 0x10 8
  let off := fun k => fld b (0x20 + 16 * k) 8
  let len := fun k => fld b (0x28 + 16 * k) 4
  let pool := fun k => (List.range (len k)).map (fun j => fld b (off k + 8 * j) 8)
  lenOk 32 n (room b 0x20 16)
  eachOf n (fun k => lenOk 32 (len k) (room b (off k) 8))
  lenOk 64 le_ ((c.i.region 2).elim 0 (fun g => if g.base ≤ la then (g.base + g.size - la) / 16 else 0))
  need (fld b 0 1 == c.f && allZero (slice b 1 3) && allZero (slice b 0x18 8) && upTo n (fun k => fld b (0x2C + 16 * k) 4 == 0))
    St.substInvalid
  need (la % 4096 == 0 && upTo n (fun k => off k % 8 == 0)) St.substInvalid
  need (partsApart ((0, 0x20 + 16 * n) :: (List.range n).map (fun k => (off k, 8 * len k)))) St.substInvalid
  need (upTo n (fun k => (pool k).all (fun x => fld o 0x10 8 ≤ x && x < fld o 8 8))) St.substInvalid
  need (upTo n (fun k => rising ((pool k).mergeSort (· ≤ ·)))) St.substInvalid
  let spans := (List.range (fld o 0x18 4)).map (fun e =>
    let r := 0x40 + 32 * fld o 8 8 + 32 * e
    (fld o (r + 0x18) 8, if fld o (r + 0x10) 4 < n then len (fld o (r + 0x10) 4) else 0))
  need (spans.all (fun s => s.2 == 0 || s.1 + s.2 ≤ le_) && partsApart spans) St.substInvalid

/-! ## MAP (R158, R159) -/

def Dev.mapCheck (d : Dev) (c : Fc) : Sck Unit := do
  let b := c.sect 8
  let n := fld b 4 4
  let ec := fld b 8 8
  let eo := fld b 0x10 8
  let ns := fun i => 0x40 + 32 * i
  let ex := fun i => eo + 32 * i
  let node := fun i => fld b (ns i) 2
  let sbs := fun i => fld b (ns i + 8) 4
  let word := fun i k m => fld b (fld b (ns i + 0x10) 8 + 128 * k + 4 * m) 4
  lenOk 32 n (room b 0x40 32)
  lenOk 64 ec (room b eo 32)
  eachOf n (fun i => do
    lenOk 32 (sbs i) (room b (fld b (ns i + 0x10) 8) 128)
    need (fld b (ns i + 0x18) 8 != 2 ^ 64 - 1) St.lengthReserved)
  eachOf ec (fun i => need (fld b (ex i + 8) 4 != 2 ^ 32 - 1) St.lengthReserved)
  let cws := fun i => cdiv (fld b (ex i + 4) 2 + fld b (ex i + 8) 4) 3840
  let self := fun i => node i == 0xFFF
  let per := d.sbSectors
  need (1 ≤ n && n ≤ 256 && fld b 0 1 == c.f && allZero (slice b 1 3) && allZero (slice b 0x18 40) && eo % 32 == 0
    && upTo n (fun i => fld b (ns i + 3) 1 == 0 && fld b (ns i + 0xC) 4 == 0 && node i ≤ 0xFFF && 1 ≤ fld b (ns i + 2) 1
      && fld b (ns i + 2) 1 ≤ 64 && fld b (ns i + 0x10) 8 % 32 == 0)
    && upTo ec (fun i => fld b (ex i + 6) 2 == 0 && allZero (slice b (ex i + 0x18) 8) && fld b (ex i + 4) 2 ≤ 3839)
    && partsApart ((0, 0x40 + 32 * n) :: (eo, 32 * ec) :: (List.range n).map (fun i => (fld b (ns i + 0x10) 8, 128 * sbs i)))
    && upTo n (fun i => upTo (sbs i) (fun k => upTo 32 (fun m => word i k m < 2 ^ 24)))
    && upTo ec (fun i => fld b (ex i) 2 < n && self (fld b (ex i) 2))
    && upTo ec (fun i => let r := fld b (ex i + 2) 2
      r == 0xFFFF || (r < n && !self r && c.i.peers.any (fun p => p.node == node r && p.replica)))
    && upTo n (fun i => upTo (sbs i) (fun k => upTo 32 (fun m =>
      blkChan (word i k m) == m && (!self i || d.blkMapped (word i k m)))))
    && upTo ec (fun i =>
      let top := fld b (ex i + 0x10) 8 + cws i
      top ≤ fld b (ns (fld b (ex i) 2) + 0x18) 8 && (fld b (ex i + 2) 2 == 0xFFFF || top ≤ fld b (ns (fld b (ex i + 2) 2) + 0x18) 8))
    && upTo ec (fun i => upTo (cws i) (fun j =>
      let s := fld b (ex i + 0x10) 8 + j
      s / per < sbs (fld b (ex i) 2) && c.i.medSlots.getD (placeOf (s % per)).2.1 0 != 0))
    && upTo n (fun i => !self i || (d.ns (fld b (ns i + 2) 1)).any (·.isSealed))
    && upTo n (fun i => !self i || (d.get R.MED_MAP_FLOOR_FLOOR ≤ fld b (ns i + 4) 4 && fld b (ns i + 4) 4 ≤ d.get R.MED_MAP_EPOCH_EPOCH)))
    St.mapInvalid

/-! ## VOCAB (R253, R254, R268) -/

def vocabCheck (c : Fc) : Sck Unit := do
  let b := c.sect 0xB
  let v := fld b 4 4
  let mc := fld b 8 4
  let rc := fld b 0xC 4
  let tb := fld b 0x10 8
  let mo := fld b 0x18 8
  let ro := fld b 0x20 8
  let po := fld b 0x28 8
  let pl := fld b 0x30 8
  let tOff := fun t => fld b (tb + 16 * t) 8
  let tLen := fun t => fld b (tb + 16 * t + 8) 2
  let special := fun t => (fld b (tb + 16 * t + 10) 2).testBit 0
  let bytesOf := fun t => slice b (po + tOff t) (tLen t)
  let trio := fun r => [fld b (mo + 16 * r) 4, fld b (mo + 16 * r + 4) 4, fld b (mo + 16 * r + 8) 4]
  let byteTok := fun x => fld b (0x40 + 4 * x) 4
  lenOk 32 v (room b tb 16)
  lenOk 32 mc (room b mo 16)
  lenOk 32 rc (room b ro 16)
  lenOk 64 pl (b.length - po)
  eachOf v (fun t => lenOk 16 (tLen t) (pl - tOff t))
  need (fld b 0 1 == c.f && allZero (slice b 1 3) && allZero (slice b 0x38 8) && 256 ≤ v && v ≤ 1048576 && mc ≤ 1048575 && rc ≤ 65536
    && tb % 64 == 0 && mo % 64 == 0 && ro % 64 == 0 && po % 64 == 0 && 0x460 ≤ b.length
    && partsApart [(0, 0x460), (tb, 16 * v), (mo, 16 * mc), (ro, 16 * rc), (po, pl)]
    && upTo v (fun t => fld b (tb + 16 * t + 10) 2 < 2 && fld b (tb + 16 * t + 12) 4 == 0)
    && upTo mc (fun r => fld b (mo + 16 * r + 12) 4 == 0) && upTo rc (fun r => allZero (slice b (ro + 16 * r + 9) 7))) St.vocabInvalid
  need (upTo 256 (fun x => byteTok x < v) && upTo mc (fun r => (trio r).all (· < v))) St.vocabInvalid
  need (upTo v (fun t => tLen t ≤ 1024 && (special t || 1 ≤ tLen t))
    && upTo 256 (fun x => !special (byteTok x) && bytesOf (byteTok x) == [BitVec.ofNat 8 x])
    && upTo mc (fun r => (trio r).all (fun t => !special t)
      && bytesOf ((trio r).getD 2 0) == bytesOf ((trio r).getD 0 0) ++ bytesOf ((trio r).getD 1 0))
    && rising (((List.range mc).map (fun r => fld b (mo + 16 * r) 8)).mergeSort (· ≤ ·))
    && upTo rc (fun r =>
      let first := fld b (ro + 16 * r) 4
      let last := fld b (ro + 16 * r + 4) 4
      first ≤ last && last ≤ 0x10FFFF && (r == 0 || fld b (ro + 16 * (r - 1) + 4) 4 < first)
        && 1 ≤ fld b (ro + 16 * r + 8) 1 && fld b (ro + 16 * r + 8) 1 ≤ 15)) St.vocabInvalid

/-! ## GRAMMAR (R260, R268) -/

/-- Whether the transitions of a state that share one TOP value are disjoint and in ascending FIRST order; those of
COUNT 0 are left out. -/
def transOrdered : List (Nat × Nat × Nat) → Bool
  | [] => true
  | (top, a, n) :: l =>
    (n == 0 || l.all (fun x => x.1 != top || x.2.2 == 0 || a + n ≤ x.2.1)) && transOrdered l

def grammarCheck (c : Fc) : Sck Unit := do
  let b := c.sect 0xC
  let n := fld b 4 4
  let g := fun i => 0x40 + 48 * i
  let v := fld (c.sect 0xB) 4 4
  let sts := fun i => fld b (g i + 4) 4
  let so := fun i => fld b (g i + 0x10) 8
  let tb := fun i => fld b (g i + 0x18) 8
  let tc := fun i => fld b (g i + 0x20) 8
  lenOk 32 n (room b 0x40 48)
  eachOf n (fun i => do
    lenOk 32 (sts i) (room b (so i) 16)
    lenOk 64 (tc i) (room b (tb i) 16)
    eachOf (sts i) (fun s => lenOk 32 (fld b (so i + 16 * s + 8) 4) (tc i - fld b (so i + 16 * s) 8))
    eachOf (tc i) (fun t => lenOk 32 (fld b (tb i + 16 * t + 4) 4) (v - fld b (tb i + 16 * t) 4)))
  need (fld b 0 1 == c.f && allZero (slice b 1 3) && allZero (slice b 8 56) && 1 ≤ n && n ≤ 256
    && upTo n (fun i => (fld b (g i) 1 == 1 || fld b (g i) 1 == 2) && fld b (g i + 1) 1 == 0 && 1 ≤ sts i && sts i ≤ 16777216
      && (if fld b (g i) 1 = 2 then 1 ≤ fld b (g i + 2) 2 && fld b (g i + 2) 2 ≤ 4096 else fld b (g i + 2) 2 == 0)
      && so i % 64 == 0 && tb i % 64 == 0 && allZero (slice b (g i + 0x28) 8))
    && partsApart ((0, 0x40 + 48 * n) :: (List.range n).flatMap (fun i => [(so i, 16 * sts i), (tb i, 16 * tc i)]))) St.grammarInvalid
  need (upTo n (fun i => fld b (g i + 0xC) 4 == v && fld b (g i + 8) 4 < sts i
    && upTo (tc i) (fun t =>
      let o := tb i + 16 * t
      fld b (o + 0xB) 1 < 4 && fld b (o + 0xE) 2 ≤ 0xFFFD && fld b (o + 8) 3 < sts i
        && !(fld b (o + 0xC) 2 == 0xFFFE && 2 ≤ fld b (o + 0xB) 1)
        && (fld b (g i) 1 == 2 || (fld b (o + 0xC) 2 == 0xFFFF && fld b (o + 0xB) 1 == 0 && fld b (o + 0xE) 2 == 0)))
    && upTo (sts i) (fun s =>
      let o := so i + 16 * s
      (fld b (o + 0xC) 4 == 2 ^ 32 - 1 || fld b (o + 0xC) 4 < v)
        && transOrdered ((List.range (fld b (o + 8) 4)).map (fun k =>
          let x := tb i + 16 * (fld b o 8 + k)
          (fld b (x + 0xC) 2, fld b x 4, fld b (x + 4) 4)))))) St.grammarInvalid

/-! ## KERNELS (R341 to R343) -/

/-- Whether a branch target and a literal index keep R343 step 5. -/
def wordFits (first len consts w : Nat) (code : Nat) : Bool :=
  match gtcDecode 0 code with
  | some (.br _ _ o) | some (.call _ _ o) =>
    (first : Int) ≤ (w : Int) + o.imm.toInt && (w : Int) + o.imm.toInt < ((first + len : Nat) : Int)
  | some (.lit _ _ o) => o.imm.toNat < consts
  | _ => true

def kernelsCheck (c : Fc) : Sck Unit := do
  let b := c.sect 7
  let n := fld b 4 4
  let cw := fld b 8 8
  let co := fld b 0x10 8
  let kc := fld b 0x18 8
  let ko := fld b 0x20 8
  let k := fun i => 0x40 + 32 * i
  let first := fun i => fld b (k i) 4
  let len := fun i => fld b (k i + 4) 4
  let cf := fun i => fld b (k i + 0xC) 4
  let cl := fun i => fld b (k i + 0x10) 4
  let word := fun w => fld b (co + 4 * w) 4
  lenOk 32 n (room b 0x40 32)
  lenOk 64 cw (room b co 4)
  lenOk 64 kc (room b ko 8)
  eachOf n (fun i => do
    lenOk 32 (len i) (cw - first i)
    lenOk 32 (cl i) (kc - cf i))
  need (fld b 0 1 == c.f && allZero (slice b 1 3) && allZero (slice b 0x28 24) && 1 ≤ n && n ≤ 4096 && 1 ≤ cw && cw ≤ 2 ^ 28
    && co % 64 == 0 && ko % 64 == 0 && (kc != 0 || ko == 0)
    && partsApart [(0, 0x40 + 32 * n), (co, 4 * cw), (ko, 8 * kc)]
    && upTo n (fun i => allZero (slice b (k i + 0x15) 3) && allZero (slice b (k i + 0x1C) 4))) St.kernelsInvalid
  need (upTo n (fun i => 1 ≤ len i && fld b (k i + 8) 4 < len i && 1 ≤ fld b (k i + 0x14) 1 && fld b (k i + 0x14) 1 < 32
    && fld b (k i + 0x18) 4 % 4096 == 0 && fld b (k i + 0x18) 4 ≤ 262144)) St.kernelsInvalid
  need (upTo n (fun i => upTo (len i) (fun w => gtcValid (word (first i + w))))) St.kernelsInvalid
  need (upTo n (fun i => upTo (len i) (fun w => wordFits (first i) (len i) (cl i) (first i + w) (word (first i + w))))) St.kernelsInvalid

end Sys2Proof.Machine
end

