-- ==== Sys2Proof/Machine/Cfg.lean ====
section
/-! DEFINITION. Load stage 0x0D, the configuration records of TABLES (R69, R213, R214, R249, R250, R267, R268, R294, R295,
R344, R420 to R422) and the device-wide sections ROUTES and SHAPE (R368, R369, R414, R415). -/

namespace Sys2Proof.Machine

/-! ## Configuration records -/

/-- The instances that name record `i`. -/
def Fc.users (c : Fc) (i : Nat) : List (Nat × Nat) :=
  ((c.i.eps.filter (fun e => configured e.kind && e.config == i)).map (fun e => (e.kind, e.inst))).eraseDups

/-- Whether a state area lies where R214 lets it: in the plan-and-tables region, or in the Pond region above the slots. -/
def Fc.areaIn (c : Fc) (base size : Nat) : Bool :=
  let o := c.sect 4
  let slots := ((List.range (fld o 8 8)).map (fun i => fld o (0x54 + 32 * i) 4)).filter (fun x => x != 2 ^ 32 - 1)
  let low := if slots.isEmpty then 0 else (slots.foldl max 0 + 1) * fld o 0x38 8
  (c.i.region 2).any (fun g => g.holds base size) || c.i.pond.any (fun g => g.holds base size && g.base + low ≤ base)

/-- A state area kept apart from the areas of the records before it. -/
def Fc.area (c : Fc) (areas : List (Nat × Nat)) (base size : Nat) (st : Status) : Sck (List (Nat × Nat)) := do
  need (c.areaIn base size && areas.all (fun x => !rangesMeet base size x.1 x.2)) st
  pure ((base, size) :: areas)

/-- A size field that has no buffer behind it: only R15 holds. -/
def notOnes (b : Bytes) (o n : Nat) : Sck Unit := need (fld b o n != 2 ^ (8 * n) - 1) St.lengthReserved

/-- The state area of an RCX record (R213). -/
def rcxArea (r : Bytes) : Nat × Nat := (fld r 8 8, fld r 4 4 * fld r 2 2 * 0x10000)

def rcxRecord (c : Fc) (i : Nat) (areas : List (Nat × Nat)) (r : Bytes) : Sck (List (Nat × Nat)) := do
  notOnes r 2 2
  notOnes r 4 4
  notOnes r 0x10 8
  let n := fld r 4 4
  need (fld r 1 1 ≤ 1 && 1 ≤ fld r 2 2 && fld r 2 2 ≤ 256 && n ≤ 65536 && fld r 8 8 % 0x10000 == 0 && (n != 0 || fld r 8 8 == 0)
    && 1 ≤ fld r 0x10 8 && fld r 0x1F 1 == 0 && allZero (slice r 0x24 28)
    && (if fld r 1 1 = 0 then allZero (slice r 0x18 7) && fld r 0x20 4 == 0
      else geometryOk (fld r 0x18 1) (fld r 0x19 1) (fld r 0x1A 2) (fld r 0x1C 2) && fld r 0x1E 1 < 4
        && (n != 0 || fld r 0x1E 1 < 2))) St.rcxConfigInvalid
  if n = 0 then pure areas else do
    need ((c.users i).length ≤ 1) St.rcxConfigInvalid
    c.area areas (rcxArea r).1 (rcxArea r).2 St.rcxConfigInvalid

/-- The context area of a VDE record (R231). -/
def vdeArea (r : Bytes) : Nat × Nat := (fld r 8 8, fld r 6 2 * fld r 5 1 * fld r 0x10 8)

def vdeRecord (c : Fc) (areas : List (Nat × Nat)) (r : Bytes) : Sck (List (Nat × Nat)) := do
  notOnes r 6 2
  notOnes r 0x10 8
  notOnes r 0x20 4
  notOnes r 0x28 8
  let n := fld r 6 2
  need (1 ≤ fld r 1 1 && fld r 1 1 ≤ 7 && fld r 2 1 ≤ 1 && fld r 3 1 ≤ 2 && fld r 4 1 ≤ 1 && 1 ≤ fld r 5 1 && fld r 5 1 ≤ 16
    && n ≤ 1024 && fld r 8 8 % 0x200000 == 0 && (n != 0 || fld r 8 8 == 0) && fld r 0x10 8 % 0x200000 == 0
    && (n == 0 || 0x200000 ≤ fld r 0x10 8) && 1 ≤ fld r 0x1C 4 && 1 ≤ fld r 0x20 4 && fld r 0x24 4 == 0 && 1 ≤ fld r 0x28 8
    && allZero (slice r 0x30 16)) St.vdeConfigInvalid
  if n = 0 then pure areas else c.area areas (vdeArea r).1 (vdeArea r).2 St.vdeConfigInvalid

def jpgRecord (c : Fc) (areas : List (Nat × Nat)) (r : Bytes) : Sck (List (Nat × Nat)) := do
  notOnes r 8 8
  notOnes r 0x18 8
  let prog := (fld r 1 1).testBit 1
  need (1 ≤ fld r 1 1 && fld r 1 1 ≤ 3 && allZero (slice r 2 6) && 1 ≤ fld r 8 8 && fld r 0x10 8 % 4096 == 0
    && (prog || fld r 0x10 8 == 0) && fld r 0x18 8 % 4096 == 0) St.jpgConfigInvalid
  if !prog || fld r 0x18 8 = 0 then pure areas else c.area areas (fld r 0x10 8) (fld r 0x18 8) St.jpgConfigInvalid

/-- Whether an instance lies upstream of the function's CACHE_ENDPOINT. -/
def Fc.beforeCache (c : Fc) (kind inst : Nat) : Bool := (c.i.upstream (fld (c.sect 4) 0x1C 2)).contains (kind, inst)

/-- Whether an FP32 value is finite. -/
def finite32 (x : Nat) : Bool := bits x 30 23 != 255

def imgRecord (c : Fc) (i : Nat) (areas : List (Nat × Nat)) (r : Bytes) : Sck (List (Nat × Nat)) := do
  notOnes r 0x48 8
  notOnes r 0x50 4
  let mode := fld r 1 1
  let aug := fld r 7 1
  let plan := c.sect 3
  need (mode ≤ 2 && fld r 2 1 ≤ 2 && fld r 3 1 ≤ 2 && 1 ≤ fld r 4 1 && fld r 4 1 ≤ 8 && fld r 5 1 ≤ 2 && aug < 32
    && (if fld r 5 1 = 2 then 1 ≤ fld r 0xA 2 && fld r 0xA 2 < fld r 8 2 else fld r 8 2 == 0 && fld r 0xA 2 == 0)
    && 1 ≤ fld r 0xC 2 && fld r 0xC 2 ≤ 16384 && 1 ≤ fld r 0xE 2 && fld r 0xE 2 ≤ 16384
    && (mode != 1 || (1 ≤ fld r 0x18 4 && fld r 0x18 4 ≤ fld r 0x1C 4 && fld r 0x1C 4 ≤ 65536))
    && fld r 0x20 8 + 0x40000 ≤ 0x700000000 && 1 ≤ fld r 0x28 1 && fld r 0x28 1 ≤ 6 && (fld r 0x29 1 == 1 || fld r 0x29 1 == 3)
    && fld r 0x2A 1 ≤ 1 && allZero (slice r 0x2B 5) && upTo 3 (fun k => finite32 (fld r (0x3C + 4 * k) 4)) && 1 ≤ fld r 0x48 8
    && allZero (slice r 0x60 32)
    && (if mode = 2 then 1 ≤ fld r 0x50 4 && fld r 0x50 4 ≤ 65536 && 1 ≤ fld r 0x54 2 && fld r 0x54 2 ≤ 256 && fld r 0x58 8 % 0x800 == 0
        && (List.range (fld plan 0xC 2)).any (fun k => fld plan (0x40 + 16 * k) 2 == fld r 0x56 2)
        && (c.users i).all (fun u => c.i.eps.any (fun e => e.kind == u.1 && e.inst == u.2 && !e.out && e.port == 1))
      else fld r 0x50 4 == 0 && fld r 0x54 2 == 0 && fld r 0x56 2 == 0xFFFF && fld r 0x58 8 == 0)
    && ((mode != 1 && aug % 4 == 0) || (c.users i).all (fun u => !c.beforeCache u.1 u.2))) St.imgConfigInvalid
  if mode ≠ 2 then pure areas
  else c.area areas (fld r 0x58 8) (fld r 0x50 4 * fld r 0x54 2 * 0x800) St.imgConfigInvalid

/-- A BOS or EOS token of a BPE record (R267). -/
def Fc.edgeToken (c : Fc) (on : Bool) (t : Nat) : Bool :=
  let v := c.sect 0xB
  if on then t < fld v 4 4 && (fld v (fld v 0x10 8 + 16 * t + 10) 2).testBit 0 else t == 2 ^ 32 - 1

def bpeRecord (c : Fc) (r : Bytes) : Sck Unit := do
  notOnes r 4 4
  notOnes r 0x10 8
  let fl := fld r 1 1
  need (fl < 4 && fld r 2 2 == 0 && 4 ≤ fld r 4 4 && fld r 4 4 ≤ 65536 && c.edgeToken (fl.testBit 0) (fld r 8 4)
    && c.edgeToken (fl.testBit 1) (fld r 0xC 4) && 1 ≤ fld r 0x10 8 && allZero (slice r 0x18 8)) St.tokConfigInvalid

/-- The state area of a mask record (R267). -/
def maskArea (r : Bytes) : Nat × Nat := (fld r 0x10 8, fld r 8 4 * fld r 0xC 2 * 0x4000)

def maskRecordCheck (c : Fc) (areas : List (Nat × Nat)) (r : Bytes) : Sck (List (Nat × Nat)) := do
  notOnes r 8 4
  notOnes r 0xC 2
  notOnes r 0x18 8
  let n := fld r 8 4
  need (fld r 1 1 ≤ 1 && fld r 2 1 ≤ 1 && fld r 3 1 ≤ 1 && c.has 0xC && fld r 4 4 < fld (c.sect 0xC) 4 4 && n ≤ 4096
    && (fld r 2 1 == 1 || n == 0) && 1 ≤ fld r 0xC 2 && fld r 0xC 2 ≤ 256 && fld r 0xE 2 == 0 && fld r 0x10 8 % 0x10000 == 0
    && (n != 0 || fld r 0x10 8 == 0) && 1 ≤ fld r 0x18 8 && allZero (slice r 0x20 32)) St.tokConfigInvalid
  if n = 0 then pure areas else c.area areas (maskArea r).1 (maskArea r).2 St.tokConfigInvalid

def detokRecord (r : Bytes) : Sck Unit := do
  notOnes r 8 8
  need (fld r 1 1 ≤ 1 && fld r 2 1 ≤ 1 && allZero (slice r 3 5) && 1 ≤ fld r 8 8 && allZero (slice r 0x10 16)) St.tokConfigInvalid

/-- Whether a word keys the generator by the epoch (R295): DRAW, and FCVT, VCVT and TSTORE with SR = 1. -/
def drawsWord (w : Nat) : Bool :=
  match gtcDecode 0 w with
  | some (.draw ..) => true
  | some (.fcvt _ _ o) | some (.vcvt _ _ o) => o.sr
  | some (.tstore _ _ o) => o.fn != 0
  | _ => false

/-- A record's item area and cores (R294). -/
def thrArea (r : Bytes) : Nat × Nat := (fld r 0x10 8, fld r 0x28 4 * (fld r 0x18 8 + fld r 0x20 8))

/-- The thread-array records of TABLES other than record `i`, that stand before it or are named by a queue. -/
def Fc.thrOthers (c : Fc) (i : Nat) (named : Bool) : List Bytes :=
  let b := c.sect 6
  ((List.range (fld b 4 4)).filter (fun j => j < i && fld b (0x4C + 16 * j) 1 = 9 && (!named || !(c.users j).isEmpty))).map (tableRec b)

def thrRecord (c : Fc) (i : Nat) (r : Bytes) : Sck Unit := do
  notOnes r 1 1
  notOnes r 0xA 2
  notOnes r 0xC 4
  notOnes r 0x18 8
  notOnes r 0x20 8
  notOnes r 0x28 4
  let k := c.sect 7
  let e := 0x40 + 32 * fld r 4 4
  let th := fld r 1 1
  let code := (List.range (fld k (e + 4) 4)).map (fun w => fld k (fld k 0x10 8 + 4 * (fld k e 4 + w)) 4)
  let area := thrArea r
  need ([1, 2, 4, 8, 16].contains th && fld r 2 2 == 0 && c.has 7 && fld r 4 4 < fld k 4 4 && 1 ≤ fld r 0xA 2
    && fld r 0xC 4 % 4096 == 0 && 16 / th * fld r 0xC 4 ≤ 262144 && fld r 0x10 8 % 4096 == 0 && fld r 0x18 8 % 4096 == 0
    && 4096 ≤ fld r 0x18 8 && fld r 0x20 8 % 4096 == 0 && 4096 ≤ fld r 0x20 8 && 1 ≤ fld r 0x28 4 && fld r 0x28 4 ≤ 65536
    && fld r 0x2C 4 == 0 && allZero (slice r 0x38 8)
    && c.i.coreBase ≤ fld r 8 2 && fld r 8 2 + fld r 0xA 2 ≤ c.i.coreBase + c.i.coreCount
    && (c.users i).length ≤ 1
    && (c.thrOthers i true).all (fun x => (c.users i).isEmpty || !rangesMeet (fld x 8 2) (fld x 0xA 2) (fld r 8 2) (fld r 0xA 2))
    && c.i.regions.any (fun g => g.kind == 4 && g.holds area.1 area.2)
    && (c.thrOthers i false).all (fun x => !rangesMeet (thrArea x).1 (thrArea x).2 area.1 area.2)
    && fld r 0x30 8 + 2 ^ 32 ≤ 0x700000000
    && (!(code.any drawsWord) || (c.users i).all (fun u => !c.beforeCache u.1 u.2))
    && (fld k (e + 0x14) 1).testBit (Nat.log2 th) && fld k (e + 0x18) 4 ≤ fld r 0xC 4) St.thrConfigInvalid

/-- A splice record (R69, R65). -/
def spliceRecord (c : Fc) (i : Nat) (r : Bytes) : Sck Unit := do
  let mode := fld r 1 1
  need (mode ≤ 2 && allZero (slice r 2 14)) St.tablesInvalid
  (c.users i).forM (fun u =>
    let n := fun out => (c.i.eps.filter (fun e => e.kind = u.1 && e.inst = u.2 && e.out = out)).length
    need (match mode with
      | 0 => n false == 1 && 1 ≤ n true
      | 1 => 1 ≤ n false && n true == 1
      | _ => 2 ≤ n false && n true == 1) St.blendInvalid)

/-- One configuration record; answers the state areas so far. -/
def recordCheck (c : Fc) (areas : List (Nat × Nat)) (i : Nat) : Sck (List (Nat × Nat)) :=
  let r := tableRec (c.sect 6) i
  match fld r 0 1 with
  | 2 => rcxRecord c i areas r
  | 3 => vdeRecord c areas r
  | 4 => jpgRecord c areas r
  | 5 => imgRecord c i areas r
  | 6 => do bpeRecord c r; pure areas
  | 7 => maskRecordCheck c areas r
  | 8 => do detokRecord r; pure areas
  | 9 => do thrRecord c i r; pure areas
  | 0xC => do spliceRecord c i r; pure areas
  | 0x10 => do need (progWf r ((fld c.ident 4 4).testBit 0)) St.colProgramInvalid; pure areas
  | _ => pure areas

/-- The records of a kind that endpoints of that kind name, in an image's function. -/
def Fc.named (c : Fc) (kind : Nat) : List Bytes :=
  ((c.i.eps.filter (fun e => e.kind = kind)).map (·.config)).eraseDups.map (tableRec (c.sect 6))

/-- The same of a loaded function. -/
def Dev.namedBy (d : Dev) (f kind : Nat) : List Bytes :=
  (((d.img f).eps.filter (fun e => e.kind = kind)).map (·.config)).eraseDups.map (d.tabRec f)

/-- The records of TABLES in their order, then the device-wide sums of R250 and R268 over the functions so far. -/
def Dev.recordsCheck (d : Dev) (c : Fc) (before : List Fc) : Sck Unit := do
  if c.has 6 then do
    let _ ← (List.range (fld (c.sect 6) 4 4)).foldlM (recordCheck c) []
    let total := fun kind (g : Bytes → Nat) =>
      sumBy (fun x => sumBy g (Fc.named x kind)) (c :: before) + sumBy (fun (e : Nat × FnImage) => sumBy g (d.namedBy e.1 kind)) (d.otherFns c.b)
    need (total 3 (fun r => fld r 6 2) ≤ 1024) St.contextsExhausted
    need (total 7 (fun r => fld r 8 4) ≤ 4096) St.sequencesExhausted
  else pure ()

/-! ## ROUTES (R368, R369) -/

def rtWidth (b : Bytes) (p : Nat) : Nat := fld b (0x100 + 8 * p) 1
def rtFlags (b : Bytes) (p : Nat) : Nat := fld b (0x101 + 8 * p) 1
def rtEth (b : Bytes) (p : Nat) : Bool := fld b (0x102 + 8 * p) 1 != 0
def rtEnabled (b : Bytes) (p : Nat) : Bool := rtWidth b p != 0 && (rtFlags b p).testBit 0
def rtVl (b : Bytes) (v : Nat) : VlRec := ⟨fld b (0x40 + 8 * v) 2, (fld b (0x42 + 8 * v) 1).testBit 0, fld b (0x44 + 8 * v) 4⟩
def rtVls (b : Bytes) : List VlRec := (List.range 8).map (rtVl b)
def rtTcs (b : Bytes) : List Nat := (List.range 32).map (fun t => fld b (0x80 + t) 1)
def rtEntry (b : Bytes) (n : Nat) : Nat := fld b (0x900 + 8 * n) 8

/-- Whether host relay is open on a lane. -/
def Dev.relayLane (d : Dev) (p : Nat) : Bool := (d.relaySlot p).isSome || d.mgt.relayPort == some p

/-- R369, with the size of the packet-overflow region. -/
def Dev.routesCheck (d : Dev) (b : Bytes) (ovf : Nat) : Sck Unit := do
  need (b.length == 0x8900 && fld b 0 1 == 0xFF && allZero (slice b 2 62) && upTo 8 (fun v => fld b (0x43 + 8 * v) 1 == 0)
    && allZero (slice b 0xA0 96) && upTo 256 (fun p => allZero (slice b (0x103 + 8 * p) 5))
    && upTo 4096 (fun n => bits (rtEntry b n) 31 9 == 0 && bits (rtEntry b n) 7 3 == 0)) St.routesInvalid
  need (1 ≤ fld b 1 1 && fld b 1 1 ≤ 63 && upTo 8 (fun v => (rtVl b v).onDie ≤ 8192 && fld b (0x42 + 8 * v) 1 < 2)
    && (rtTcs b).all (· ≤ 5) && upTo 256 (fun p => fld b (0x102 + 8 * p) 1 ≤ 1 && [0, 1, 2, 4, 8].contains (rtWidth b p))) St.routesInvalid
  let starts := (List.range 256).filter (fun p => rtWidth b p != 0)
  need (starts.all (fun p =>
      let w := rtWidth b p
      p % w == 0 && upTo (w - 1) (fun i => rtWidth b (p + 1 + i) == 0) && rtFlags b p < 16
        && starts.all (fun q => q / 8 != p / 8 || (rtEth b q == rtEth b p && (!rtEth b p || rtWidth b q == w)))
        && (!rtEth b p || (w != 2 && (rtFlags b p &&& 6) == 0))
        && ((rtFlags b p).testBit 1 || upTo w (fun i => !d.relayLane (p + i))))
    && upTo 256 (fun p => rtWidth b p != 0 || (rtFlags b p == 0 && !rtEth b p))) St.routesInvalid
  let vls := rtVls b
  let vl := fun v => vls.getD v ⟨0, false, 0⟩
  need (!(vl 6).lossy && !(vl 7).lossy && (6 :: 7 :: rtTcs b).all (fun v => 65 ≤ (vl v).onDie + (vl v).overflow)
    && vls.all (fun r => !r.lossy || r.overflow == 0)) St.routesInvalid
  need (upTo 4096 (fun n =>
      let e := rtEntry b n
      let ps := (List.range (e % 8)).map (fun i => bits e (39 + 8 * i) (32 + 8 * i))
      e % 8 ≤ 4 && unique ps && ps.all (fun p => rtEnabled b p && !rtEth b p)) && rtEntry b 0xFFF % 8 == 0) St.routesInvalid
  let en := starts.filter (rtEnabled b)
  need (sumBy (fun p => rtWidth b p * sumBy (·.onDie) vls) en ≤ 2097152
    && 64 * sumBy (fun p => rtWidth b p * sumBy (·.overflow) vls) (en.filter (fun p => !rtEth b p)) ≤ ovf) St.packetBufferExhausted

/-! ## SHAPE (R414, R415) -/

def shQueue (b : Bytes) (p q : Nat) : Bytes := slice b (0x40 + (34 * p + q) * 16) 16
def shPolicer (b : Bytes) (p t : Nat) : Bytes := slice b (0x22040 + (32 * p + t) * 16) 16
def shList (b : Bytes) (i : Nat) : Bytes := slice b (0x42040 + 2112 * i) 2112
/-- The first `n` entries of a gate list: (GATES, INTERVAL). -/
def shEntries (l : Bytes) (n : Nat) : List (Nat × Nat) := (List.range n).map (fun e => (fld l (64 + 8 * e) 4, fld l (68 + 8 * e) 4))

/-- RATE, BURST and OVERHEAD of a shaped queue or a policer on a port of width `w` (R415 steps 3 and 4). -/
def paced (eth : Bool) (w rate burst : Nat) (overhead : Int) : Bool :=
  1 ≤ rate && rate ≤ w * (if eth then 100000 else 128000) && ((if eth then 9216 else 4160 : Nat) : Int) + overhead ≤ (burst : Int)
    && burst ≤ 16777216

def overheadOk (x : Int) : Bool := -64 ≤ x && x ≤ 255

def queueOk (eth : Bool) (w : Nat) (r : Bytes) : Bool :=
  let oh := sext 16 (fld r 2 2)
  let fl := fld r 1 1
  fld r 0 1 ≤ 7 && fl < 2 && overheadOk oh && 64 ≤ fld r 4 2 && fld r 4 2 ≤ 65534 && fld r 6 2 == 0
    && (if fl = 1 then paced eth w (fld r 8 4) (fld r 12 4) oh else fld r 8 4 == 0 && fld r 12 4 == 0)

/-- R415, against the ROUTES body of the same image. -/
def shapeCheck (b rt : Bytes) : Sck Unit := do
  let n := fld b 2 2
  lenOk 16 n (room b 0x42040 2112)
  need (b.length == 0x42040 + 2112 * n && n ≤ 256 && fld b 0 1 == 0xFF && fld b 1 1 == 0 && allZero (slice b 4 60)
    && upTo n (fun i => let l := shList b i; fld l 1 1 == 0 && fld l 4 4 == 0 && allZero (slice l 0x14 44))) St.shapeInvalid
  eachOf 256 (fun p => eachOf 34 (fun q => do
    notOnes (shQueue b p q) 4 2
    notOnes (shQueue b p q) 12 4))
  eachOf 256 (fun p => eachOf 32 (fun t => notOnes (shPolicer b p t) 8 4))
  eachOf n (fun i => do
    let l := shList b i
    lenOk 16 (fld l 2 2) 256
    notOnes l 0x10 4
    eachOf 256 (fun e => notOnes l (68 + 8 * e) 4))
  need (upTo 256 (fun p => upTo 34 (fun q =>
    let r := shQueue b p q
    if rtEnabled rt p && (!rtEth rt p || q < 8) then queueOk (rtEth rt p) (rtWidth rt p) r else allZero r))) St.shapeInvalid
  need (upTo 256 (fun p => upTo 32 (fun t =>
    let r := shPolicer b p t
    if fld r 0 1 = 0 then allZero r
    else fld r 0 1 == 1 && fld r 1 1 == 0 && fld r 12 4 == 0 && rtEnabled rt p && !rtEth rt p && (rtVl rt (fld rt (0x80 + t) 1)).lossy
      && overheadOk (sext 16 (fld r 2 2)) && paced false (rtWidth rt p) (fld r 4 4) (fld r 8 4) (sext 16 (fld r 2 2))))) St.shapeInvalid
  need (upTo n (fun i =>
      let l := shList b i
      let p := fld l 0 1
      let k := fld l 2 2
      let es := shEntries l k
      rtEnabled rt p && 1 ≤ k && sumBy (·.2) es == fld l 0x10 4 && gateOk (rtEth rt p) (rtWidth rt p) es
        && allZero (slice l (64 + 8 * k) (8 * (256 - k))))
    && unique ((List.range n).map (fun i => fld (shList b i) 0 1))) St.shapeInvalid

end Sys2Proof.Machine
end

