-- ==== Sys2Proof/Machine/Load.lean ====
section
/-! DEFINITION. The image loader (spec 02, R73 to R81): its requests, its checks in the stage order of R76, and what a
commit does. -/

namespace Sys2Proof.Machine

/-! ## Signed records (R515 to R518) -/

/-- The record of a TYPE in force, empty where there is none. -/
def Dev.recOf (d : Dev) (t : Nat) : Bytes :=
  match Map.find d.sec.inForce t with
  | some c => Map.get [] d.sec.records (2 * t + c)
  | none => []

/-- The owner key in force, empty where the device is unowned. -/
def Dev.ownerKey (d : Dev) : Bytes := (d.recOf 4).drop 64 |>.take 32

/-! ## What a commit puts in force -/

/-- The first 64 bytes of `count` entries, `stride` bytes apart, zeroed (R218). -/
def Dev.zeroHeads (d : Dev) (base count stride : Nat) : Dev :=
  (List.range count).foldl (fun d k => d.zero (base + k * stride) 64) d

/-- The state area of a configuration record: base, entries and bytes per entry. -/
def stateArea (r : Bytes) : Option (Nat × Nat × Nat) :=
  match fld r 0 1 with
  | 2 => some (fld r 8 8, fld r 4 4 * fld r 2 2, 0x10000)
  | 3 => some (fld r 8 8, fld r 6 2 * fld r 5 1, fld r 0x10 8)
  | 5 => if fld r 1 1 = 2 then some (fld r 0x58 8, fld r 0x50 4 * fld r 0x54 2, 0x800) else none
  | 7 => some (fld r 0x10 8, fld r 8 4 * fld r 0xC 2, 0x4000)
  | _ => none

/-- The function's memory at load: state areas without a valid entry (R218), the pool log unused (R124), and, but for one
that is retained, an empty Pond (R59). -/
def Dev.loadMemory (d : Dev) (f : Nat) : Dev :=
  let i := d.img f
  let kept := i.pond.filter (·.retain)
  let n := if (i.sect 6).isSome then d.sfld f 6 4 4 else 0
  let d := (List.range n).foldl (fun d k =>
    match stateArea (d.tabRec f k) with
    | some (base, count, stride) => if kept.any (fun g => g.holds base 1) then d else d.zeroHeads base count stride
    | none => d) d
  let d := d.write (d.sfld f 5 8 8)
    (List.replicate (d.sfld f 5 0x10 8) (List.replicate 8 (0xFF : Byte) ++ List.replicate 8 0)).flatten
  match i.pond with
  | some g => if g.retain || d.pondSlotBytes f = 0 then d else d.zeroHeads g.base (g.size / d.pondSlotBytes f) (d.pondSlotBytes f)
  | none => d

/-- BOUND and FUNCTION of the engines that a function's blend names (R224, R251, R270). -/
def Dev.bindUnits (d : Dev) (f : Nat) (on : Bool) : Dev :=
  (d.img f).instances.foldl (fun d k =>
    let r := engReg k.1 k.2
    if r = 0 then d else
    let d := d.set ⟨r, 35, 32⟩ (if on then f else 0)
    if k.1 = 2 then (d.set ⟨r, 2, 2⟩ (b2n on)).set ⟨r, 1, 1⟩ (if on then fld (d.config f 2 k.2) 1 1 else 0)
    else d.set ⟨r, 1, 1⟩ (b2n on)) d

/-- The registers that start at 0 when an image of function `f` is loaded (R101, R140). -/
def Dev.loadRegs (d : Dev) (f : Nat) : Dev :=
  let d := (((d.setW (R.SEQ_FN_SUBST f) 0).setW (R.SEQ_FN_POOL f) 0).setW (R.SEQ_FN_POND_HITS f) 0).setW (R.SEQ_FN_POND_MISS f) 0
  ((d.set (R.SEQ_FN_RECORD_RECORD f) 0).set (R.SEQ_FN_STATUS_PLAN_END f) 0).set (R.SEQ_FN_STATUS_STALLED f) 0

/-- What a function's image takes hold of. -/
def Dev.bindFn (d : Dev) (f : Nat) : Dev :=
  let d := (((d.loadMemory f).bindUnits f true).thrBind f).loadRegs f
  d.setW (R.SEQ_FN_IMAGE f) (d.img f).imageId

/-- What the image in force lets go: bindings, groups, queue pairs of a range that goes, and windows over regions that
become free (R81, R378, R391, R439). -/
def Dev.releaseFn (d : Dev) (f : Nat) (next : Option FnImage) : Dev :=
  let i := d.img f
  let d := (((d.colRemove f).clearPath f).thrUnbind f).bindUnits f false
  let same := next.any (fun n => n.qpBase = i.qpBase && n.qpCount = i.qpCount)
  let d := if same then d else d.xptRelease i.qpBase i.qpCount
  let kept := next.any (fun n => n.pond.any (·.retain))
  d.revokeRegions (i.regions.filter (fun r => !(kept && r.kind == 1)))

/-- A function loaded into an empty slot. -/
def Dev.installFn (d : Dev) (f : Nat) (i : FnImage) : Dev :=
  let d := (d.setFn f { FnRun.unloaded with image := some i }).bindFn f
  ((d.setW (R.SEQ_FN_STEEP f) 0).lagZero f).setFnState f stStopped

/-- A function changed: steep count, anchor and lag carry over, and record 0 of the new plan is next (R105). Batches that
are complete go on to their consumers. -/
def Dev.changeFn (d : Dev) (f : Nat) (i : FnImage) : Dev :=
  let d := d.releaseFn f (some i)
  let whole := (d.fn f).batches.filter (fun b => !b.whole.isEmpty)
  let d := d.retire (poolNo 5 f) ((d.fn f).batches.length - whole.length)
  let d := d.modFn f (fun r => { r with
    image := some i
    cleanRecord := 0
    cursor := []
    live := []
    pool := []
    fills := []
    reads := []
    batches := whole.map (fun b => { b with old := true })
    delivered := 0
    past := false
    stalls := [] })
  d.bindFn f

/-- A function unloaded: nothing of it stays (R74). -/
def Dev.unloadFn (d : Dev) (f : Nat) : Dev :=
  let d := (d.clearWork f).releaseFn f none
  let d := d.setFn f FnRun.unloaded
  let d := ((d.setW (R.SEQ_FN_IMAGE f) 0).set (R.SEQ_FN_MEMB_CUR_EPOCH f) 0).set (R.SEQ_FN_MEMB_CUR_CONSUMERS f) 0
  ((((d.loadRegs f).set (R.SEQ_FN_STATUS_MEMB_STAGED f) 0).lagZero f).setFnState f stUnloaded).checkEmpty f

/-! ## ROUTES and SHAPE (R370, R371, R416) -/

/-- Whether lane `p`'s record of ROUTES is unlike FAB_PORT_CFG_p or the mode of its octet. -/
def Dev.portDiffers (d : Dev) (rt : Bytes) (p : Nat) : Bool :=
  d.get (R.FAB_PORT_CFG_WIDTH p) != rtWidth rt p || (rtWidth rt p != 0 && (d.has (R.FAB_PORT_CFG_ENABLE p) != (rtFlags rt p).testBit 0
    || d.has (R.FAB_PORT_CFG_RELAY p) != (rtFlags rt p).testBit 1 || d.has (R.FAB_PORT_CFG_PRECODE p) != (rtFlags rt p).testBit 2
    || d.has (R.FAB_PORT_CFG_CR p) != (rtFlags rt p).testBit 3 || d.isEth p != rtEth rt p))

/-- VL6 and VL7 of a port that is UP are sent out before it is disabled, as far as its credit goes. -/
def Dev.drainPort (d : Dev) (p : Nat) : Dev :=
  if d.pstate p ≠ 3 ∨ d.isEth p then d else
  [32, 33].foldl (fun d q => (Map.get [] (d.link p).queues q).foldl (fun d k =>
    if (d.link p).credit.getD k.vl 0 < k.units then d else
    let l := d.link p
    (d.setLink p { l with queues := Map.put [] l.queues q ((Map.get [] l.queues q).drop 1) }).startFrame p k) d) d

/-- Port `p` takes its record of ROUTES. -/
def Dev.takePort (d : Dev) (rt : Bytes) (p : Nat) : Dev :=
  let w := rtWidth rt p
  let fl := rtFlags rt p
  let d := ((((d.set (R.FAB_PORT_CFG_WIDTH p) w).set (R.FAB_PORT_CFG_ENABLE p) (b2n (fl.testBit 0))).set
    (R.FAB_PORT_CFG_RELAY p) (b2n (fl.testBit 1))).set (R.FAB_PORT_CFG_PRECODE p) (b2n (fl.testBit 2))).set
    (R.FAB_PORT_CFG_CR p) (b2n (fl.testBit 3))
  if w ≠ 0 ∧ fl.testBit 0 then d.startPort p w (fl.testBit 1) (fl.testBit 2) (fl.testBit 3)
  else (d.setLink p { Link.boot with
    width := w
    relay := fl.testBit 1
    precode := fl.testBit 2
    cr := fl.testBit 3
    ret := (d.link p).ret }).setPstate p 0

/-- ROUTES takes effect (R370). -/
def Dev.applyRoutes (d : Dev) (rt : Bytes) : Dev :=
  let changed := d.fab.vls != rtVls rt || d.fab.tcMap != rtTcs rt || d.fab.boot
  let ps := (List.range 256).filter (fun p => d.portDiffers rt p || (changed && d.isPort p && d.pstate p != 0))
  let d := ps.foldl (fun d p => if d.isPort p && d.pstate p != 0 then (d.drainPort p).enterDisabled p else d) d
  let d := { d with fab := { d.fab with
    boot := false
    maxHops := fld rt 1 1
    vls := rtVls rt
    tcMap := rtTcs rt } }
  let d := (List.range 4096).foldl (fun d n =>
    (d.setW (R.FAB_ROUTE_SHADOW n) (rtEntry rt n)).setW (R.FAB_ROUTE_ACTIVE n) (rtEntry rt n)) d
  let d := (List.range 256).foldl (fun d p => if rtWidth rt p = 0 then d else d.set (R.FAB_OCTET_MODE (p / 8)) (b2n (rtEth rt p))) d
  ps.foldl (fun d p => d.takePort rt p) d

/-- SHAPE takes effect: records, policers and lists, every credit at its cap (R404, R416). -/
def Dev.applyShape (d : Dev) (sh rt : Bytes) : Dev :=
  let starts := (List.range 256).filter (fun p => rtWidth rt p != 0)
  let d := starts.foldl (fun d p => (List.range 34).foldl (fun d q =>
    let r := shQueue sh p q
    let w := fld r 8 4 * 2 ^ 32 + fld r 4 2 * 2 ^ 16 + fld r 2 2 % 512 * 2 ^ 7 + fld r 0 1 % 8 * 2 ^ 4 + fld r 1 1 % 2
    (d.setW (R.TSH_Q_CFG p q) w).setW (R.TSH_Q_BURST p q) (fld r 12 4)) d) d
  let lists := (List.range (fld sh 2 2)).map (shList sh)
  let d := starts.foldl (fun d p =>
    match lists.find? (fun l => fld l 0 1 = p) with
    | some l => d.gateSet p (shEntries l (fld l 2 2)) (fld l 8 8)
    | none => if d.has (R.TSH_GATE_CTRL_ACTIVE p) || d.has (R.TSH_GATE_CTRL_PENDING p) then d.gateSet p [] 0 else d) d
  let pols := (List.range 8192).filterMap (fun k =>
    let r := shPolicer sh (k / 32) (k % 32)
    if fld r 0 1 = 1 then some (k, (⟨sext 16 (fld r 2 2), fld r 4 4, fld r 8 4⟩ : Policer)) else none)
  { d with fab := { d.fab with
    policers := pols
    polBucket := []
    links := d.fab.links.map (fun e => (e.1, { e.2 with
      bucket := []
      deficit := []
      ptr := [] })) } }

/-! ## Requests (R74, R75, R79) -/

/-- A request has ended: STATUS, STAGE and SECTION show it, and DONE raises IMAGE_DONE. -/
def Dev.loadEnd (d : Dev) (e : LoadErr) : Dev :=
  let d := { d with seq := { d.seq with
    req := none
    pend := none } }
  let d := ((d.set R.SEQ_IMG_STATUS_BUSY 0).set R.SEQ_IMG_STATUS_PENDING 0).set R.SEQ_IMG_STATUS_DONE 1
  ((d.setSt R.SEQ_IMG_STATUS_STATUS e.st).set R.SEQ_IMG_STATUS_STAGE e.stage).set R.SEQ_IMG_STATUS_SECTION e.sect

def loadOk : LoadErr := ⟨0, 0, noSect⟩

/-- The device image's steep length and mode take effect (R56, R84). -/
def Dev.takeSteep (d : Dev) (c : LoadCommit) : Dev :=
  let d := d.set R.GLB_MODE_DET (b2n c.det)
  if c.steepNs = d.steepNs then d else
  (((d.set R.SEQ_TICK_CTRL_ARM 0).set R.SEQ_TICK_CTRL_RUNNING 0).setW R.SEQ_TICK 0).set R.SEQ_STEEP_LEN_STEEP_NS c.steepNs

/-- A request commits (R74). -/
def Dev.loadCommit (d : Dev) (c : LoadCommit) : Dev :=
  let d : Dev :=
    match c.op with
    | 1 =>
      let d := ({ d with seq := { d.seq with overflow := c.overflow } }.takeSteep c).applyRoutes c.routes
      c.fns.foldl (fun d e => d.installFn e.1 e.2) ((d.applyShape c.shape c.routes).set R.SEQ_IMG_STATUS_DEVICE_LOADED 1)
    | 2 => c.fns.foldl (fun d e => d.installFn e.1 e.2) d
    | 3 => c.fns.foldl (fun d e => d.changeFn e.1 e.2) d
    | _ => d.unloadFn c.fn
  d.loadEnd loadOk

/-- Whether a request that has passed its checks commits as they end, and not at a tick or a boundary (R74). -/
def Dev.commitsNow (d : Dev) (c : LoadCommit) : Bool :=
  c.op == 1 || (!d.has R.SEQ_TICK_CTRL_RUNNING && !d.fnRuns c.fn)

/-- The checks of a request have passed. -/
def Dev.loadPassed (d : Dev) (c : LoadCommit) : Dev :=
  if d.commitsNow c then d.loadCommit c else
  ({ d with seq := { d.seq with
    req := none
    pend := some c } }.set R.SEQ_IMG_STATUS_BUSY 0).set R.SEQ_IMG_STATUS_PENDING 1

/-- Stage 0x01: the precondition of the operation (R74, R75). -/
def Dev.loadPre (d : Dev) (op f : Nat) : Status :=
  if op = 1 then (if d.loadedFns.isEmpty then 0 else St.functionsLoaded)
  else if d.fnPending f then St.requestPending
  else if op = 2 then
    if !d.has R.SEQ_IMG_STATUS_DEVICE_LOADED then St.deviceNotLoaded else if d.loaded f then St.functionsLoaded else 0
  else if !d.loaded f then St.functionNotLoaded
  else if op = 4 ∧ d.fnState f ≠ stStopped then St.functionRunning
  else 0

/-- A live firmware update is in progress (R507). -/
def Dev.updating (d : Dev) : Bool := d.get R.MGT_FW_STATUS_STATE == 2 || d.get R.MGT_FW_STATUS_STATE == 3

/-- Why a GO starts no request, 0 where it starts one (R75, R201, R475). -/
def Dev.loadReject (d : Dev) (op : Nat) : Status :=
  if d.fatal then St.deviceFatal
  else if d.powerDown then St.powerState
  else if d.has R.SEQ_IMG_STATUS_BUSY || d.has R.SEQ_IMG_STATUS_PENDING || d.updating then St.loaderBusy
  else if op = 0 ∨ 4 < op then St.opInvalid
  else 0

/-- A GO of the loader with OP and FUNCTION. -/
def Dev.loadGo (d : Dev) (op f : Nat) : Dev :=
  let st := d.loadReject op
  if st ≠ 0 then (d.set R.SEQ_IMG_STATUS_GO_REJECTED 1).setSt R.SEQ_IMG_STATUS_REJECT_STATUS st else
  let pre := d.loadPre op f
  if pre ≠ 0 then d.loadEnd ⟨pre, 1, noSect⟩
  else if op = 4 then d.loadPassed { op := 4, fn := f, imageId := 0, steepNs := 0, det := false, fns := [], routes := [], shape := [], overflow := none }
  else
    let r : LoadReq := ⟨op, f, (d.word R.SEQ_IMG_SRC).toNat, (d.word R.SEQ_IMG_LEN).toNat⟩
    ({ d with seq := { d.seq with req := some r } }.set R.SEQ_IMG_STATUS_BUSY 1).setW R.SEQ_IMG_PROGRESS 0

/-- The write of GO with OP and FUNCTION. -/
def Dev.loadWrite (d : Dev) (op f : Nat) : Dev := ((d.set R.SEQ_IMG_CTRL_OP op).set R.SEQ_IMG_CTRL_FUNCTION f).loadGo op f

def execLoadDevice (s : State) : Host.Outcome State Fault Refusal :=
  s.act .live (fun d => (d.loadWrite 1 (d.get R.SEQ_IMG_CTRL_FUNCTION)).reply St.ok)
def execLoadFunction (f : FnId) (s : State) : Host.Outcome State Fault Refusal := s.act .live (fun d => (d.loadWrite 2 f).reply St.ok)
def execChangeFunction (f : FnId) (s : State) : Host.Outcome State Fault Refusal := s.act .live (fun d => (d.loadWrite 3 f).reply St.ok)
def execUnloadFunction (f : FnId) (s : State) : Host.Outcome State Fault Refusal := s.act .live (fun d => (d.loadWrite 4 f).reply St.ok)
def execLoaderOpInvalid (op : Fin 8) (f : FnId) (s : State) : Host.Outcome State Fault Refusal :=
  s.act .live (fun d =>
    if op.val = 0 ∨ 4 < op.val ∨ d.loadReject op ≠ 0 then (d.loadWrite op f).reply St.ok else d)

/-- ABORT (R79). -/
def Dev.loadAbort (d : Dev) : Dev :=
  if d.seq.req.isSome || d.seq.pend.isSome then d.loadEnd ⟨St.loadAborted, 0, noSect⟩ else d

def execLoadAbort (s : State) : Host.Outcome State Fault Refusal := s.act .live (fun d => d.loadAbort.reply St.ok)

/-! ## The checks (R76) -/

/-- Stage 0x0C: the resident sections copied to their placements. -/
def Dev.copySections (d : Dev) (b : Brq) : Dev :=
  b.entries.foldl (fun d e => if resident e.type then d.write e.place (b.body e) else d) d

/-- What stage 0x0D checks, in its order: at each directory entry, section checks (false) and a function's configuration
records (true). A function's KEYS and TABLES come first, and SHAPE comes after ROUTES. -/
def Brq.order (b : Brq) : List (Bool × Entry) :=
  b.entries.flatMap (fun e =>
    if e.type = 9 then (false, e) :: ((b.entries.filter (fun x => x.type = 0xA && x.idx < e.idx)).map (fun x => (false, x)))
    else if e.type = 0xA then (if b.entries.any (fun x => x.type = 9 && x.idx < e.idx) then [(false, e)] else [])
    else if 16 ≤ e.fn then []
    else
      let mine := b.entries.filter (fun x => x.fn = e.fn)
      let first := mine.head?.any (fun x => x.idx = e.idx)
      let keys := mine.filter (fun x => x.type = 0xD) ++ mine.filter (fun x => x.type = 6)
      (if first then keys.map (fun x => (false, x)) else []) ++
        (if e.type = 2 ∨ e.type = 6 ∨ e.type = 0xD then [] else [(false, e)]))
  ++ (b.entries.filter (fun e => e.type = 6)).map (fun e => (true, e))

/-- One check of stage 0x0D. -/
def Dev.sectCheck (d : Dev) (b : Brq) (k : Bool × Entry) : Sck Unit :=
  let e := k.2
  let c : Fc := ⟨b, e.fn, brqFn b e.fn⟩
  if k.1 then
    d.recordsCheck c ((b.entries.filter (fun x => x.type = 6 && x.idx < e.idx)).map (fun x => ⟨b, x.fn, brqFn b x.fn⟩))
  else match e.type with
  | 3 => planCheck c
  | 4 => d.orderCheck c
  | 5 => substCheck c
  | 6 => tablesCheck c
  | 7 => kernelsCheck c
  | 8 => d.mapCheck c
  | 9 => d.routesCheck (b.body e) (sumBy (·.size) ((brqRegions (b.sect 1 0xFF)).filter (fun r => r.kind = 7)))
  | 0xA => shapeCheck (b.body e) (b.sect 9 0xFF)
  | 0xB => vocabCheck c
  | 0xC => grammarCheck c
  | 0xD => keysCheck c
  | _ => .ok ()

/-- Stages 0x04 to 0x0B. `staged` is the local range that holds the image. -/
def Dev.brqChecks (d : Dev) (r : LoadReq) (staged : Region) (img : Bytes) : Chk Brq := do
  let b ← brqHeader r.op r.fn img
  brqSigned d.ownerKey b
  brqDirectory b
  brqDigests b
  d.brqIdent b
  d.brqLayout r.op staged b
  d.brqBlends b
  pure b

/-- Whether a window over one of the image's regions is still being closed: the regions are not used again before it is
CLOSED (R391). -/
def Dev.regionHeld (d : Dev) (b : Brq) : Bool :=
  (brqRegions (b.sect 1 0xFF)).any (fun g => !g.retain && d.xpt.windows.any (fun e =>
    d.winSt e.1 == 2 && rangesMeet g.base g.size e.2.base e.2.size))

/-- After a refusal at stage 0x0D what stands in the image's new regions is undefined (R77): a free value. -/
def Dev.spoil (d : Dev) (b : Brq) : Dev :=
  (brqRegions (b.sect 1 0xFF)).foldl (fun d g =>
    if g.retain || g.kind = 7 then d else
    let (x, d) := d.drawBytes g.size
    d.write g.base x) d

/-- An image that has passed its checks, as what is to commit. -/
def commitOf (r : LoadReq) (b : Brq) : LoadCommit :=
  let i := b.sect 1 0xFF
  { op := r.op, fn := r.fn, imageId := b.imageId, steepNs := fld i 8 8, det := fld i 4 4 == 1,
    fns := b.fns.map (fun f => (f, brqFn b f)), routes := b.sect 9 0xFF, shape := b.sect 0xA 0xFF,
    overflow := (brqRegions i).find? (fun g => g.kind = 7) }

/-- The image has been fetched: stages 0x04 to 0x0D. -/
def Dev.loadImage (d : Dev) (r : LoadReq) (staged : Region) (img : Bytes) : Dev :=
  let d := d.setW R.SEQ_IMG_PROGRESS img.length
  match d.brqChecks r staged img with
  | .error e => d.loadEnd e
  | .ok b =>
    if d.regionHeld b then d else
    let d := d.copySections b
    match b.order.forM (fun k => at_ 0xD k.2.idx (d.sectCheck b k)) with
    | .error e => (d.spoil b).loadEnd e
    | .ok _ => d.loadPassed (commitOf r b)

/-- The loader's checks end. The image stands in local HBM or comes from a peer, as `src` says what its reads gave. -/
def Dev.loadChecks (d : Dev) (src : Remote) : Dev :=
  match d.seq.req with
  | none => d
  | some r =>
    let a := r.src % 2 ^ 52
    match lenCheck 64 r.len 0x4000000000 with
    | some st => d.loadEnd ⟨st, 2, noSect⟩
    | none =>
      if r.len = 0 then d.loadEnd loadOk
      else if d.isLocal r.src then
        match srcRange a r.len with
        | some st => d.loadEnd ⟨st, 3, noSect⟩
        | none => d.loadImage r ⟨0xFF, 0, false, a, r.len⟩ (d.read a r.len)
      else if d.node = 0xFFF then d.loadEnd ⟨St.nodeIdUnassigned, 3, noSect⟩
      else match src with
        | .none => d
        | .failed st => if st = 0 then d else d.loadEnd ⟨st, 3, noSect⟩
        | .data b => d.loadImage r ⟨0xFF, 0, false, 0, 0⟩ (slice b 0 r.len)

def execLoaderChecksDone (src : Remote) (s : State) : Host.Outcome State Fault Refusal := s.act .engine (fun d => d.loadChecks src)

end Sys2Proof.Machine
end

