-- ==== Sys2Proof/Machine/Sec.lean ====
section
/-! DEFINITION. Identity, signed records and quotes (spec 20). -/

namespace Sys2Proof.Machine

/-! ## Records (R515 to R518) -/

def recMagic : Bytes := [0x47, 0x4C, 0x53, 0x52, 0x45, 0x43, 0x30, 0x31]

def recType (b : Bytes) : Nat := fld b 0xA 1
def recSigner (b : Bytes) : Nat := fld b 0xB 1
def recSeq (b : Bytes) : Nat := fld b 0x10 8
def recDevice (b : Bytes) : Nat := fld b 0x18 8
/-- The body of a record. -/
def recBody (b : Bytes) : Bytes := (b.drop 64).take (fld b 0xC 4)

/-- The body length of a record TYPE (R517). -/
def recLength (t : Nat) : Option Nat :=
  match t with
  | 1 => some 8192
  | 2 => some 64
  | 3 => some 184
  | 4 => some 128
  | 5 => some 16
  | 6 => some 64768
  | _ => none

/-- Header, length and TYPE of a record of `b.length` bytes (R516, R517). -/
def recFormed (b : Bytes) : Bool :=
  b.take 8 == recMagic && fld b 8 2 == 1 && allZero (slice b 0x20 32) && recLength (recType b) == some (fld b 0xC 4)
    && b.length == 128 + fld b 0xC 4

/-- Whether a TYPE takes DEVICE = 0, any device (R517). -/
def recAnyDevice (t : Nat) : Bool := t == 5 || t == 6

/-- Whether the signer is one that the TYPE permits (R517). -/
def recSignerOk (t signer : Nat) : Bool :=
  if t = 5 then signer == 1 || signer == 2 else if t = 4 ∨ t = 6 then signer == 2 else signer == 1

/-- SIGNATURE, and in a MEDIA body its own SIGNATURE, under `key` (R516, R517). -/
def recSignedBy (key b : Bytes) : Bool :=
  let n := 64 + fld b 0xC 4
  edVerify key (b.take n) (slice b n 64) &&
    (recType b != 6 || edVerify key (slice (recBody b) 0 0xFCC0) (slice (recBody b) 0xFCC0 64))

/-- The device's own key ID (R512). -/
def Dev.keyId (d : Dev) : Nat := Sys2Proof.Machine.keyId d.sec.pub

/-- MIN_FW_VERSION in force. -/
def Dev.minVersion (d : Dev) : Nat := (d.word R.SEC_MIN_VERSION).toNat

/-- The slot that is running (0) or inactive (1), by R505. -/
def Dev.slotOf (d : Dev) (n : Nat) : Slot := if n = 0 then d.mgt.slotA else d.mgt.slotB
def Dev.runSlot (d : Dev) : Nat := d.get R.MGT_FW_STATUS_RUNNING_SLOT
def Dev.setSlot (d : Dev) (n : Nat) (x : Slot) : Dev :=
  { d with mgt := if n = 0 then { d.mgt with slotA := x } else { d.mgt with slotB := x } }

/-- VERSION of a firmware image (R522). -/
def fwVersion (b : Bytes) : Nat := fld b 0x10 8

/-- The status of a failure for which no rule gives one: free, and not OK. -/
def Dev.drawStatus (d : Dev) : Status × Dev :=
  let (w, d) := d.draw
  (BitVec.ofNat 16 (1 + w.toNat % 65535), d)

/-! ## Writing a record (R519 to R521) -/

/-- The checks of a record write, in the order of R520. -/
def Dev.recWriteCheck (d : Dev) (len : Nat) : Status :=
  let a := 4096 * d.get R.SEC_REC_SRC_SRC
  if d.fatal then St.deviceFatal
  else if d.get R.MGT_FW_STATUS_STATE ≠ 0 then St.loaderBusy
  else match lenCheck 32 len 0x100000 with
  | some st => st
  | none =>
    if len = 0 then 0 else
    match srcRange a len with
    | some st => st
    | none =>
      let b := d.read a len
      let t := recType b
      if !recFormed b then St.imageFormat
      else if t < 3 then St.accessDenied
      else if !(recDevice b = d.keyId ∨ (recDevice b = 0 ∧ recAnyDevice t = true)) then St.targetMismatch
      else if !recSignerOk t (recSigner b) ∨ (recSigner b = 2 ∧ t ≠ 4 ∧ d.ownerKey = []) then St.ownerKeyMismatch
      else
        let key := if recSigner b = 1 then d.sec.rootKey else if t = 4 ∧ d.ownerKey = [] then slice (recBody b) 0 32 else d.ownerKey
        if !recSignedBy key b then St.signatureInvalid
        else if (d.recOf t ≠ [] ∧ recSeq b ≤ recSeq (d.recOf t)) ∨ (t = 5 ∧ (fld (recBody b) 0 8 < d.minVersion ∨
            fwVersion (d.slotOf (d.get R.MGT_FW_STATUS_NEXT_SLOT)).bytes < fld (recBody b) 0 8)) then St.targetMismatch
        else 0

/-- The key of the copy of TYPE `t` that does not hold the record in force. -/
def Dev.otherCopy (d : Dev) (t : Nat) : Nat := 2 * t + (match Map.find d.sec.inForce t with
  | some c => 1 - c
  | none => 0)

/-- A record write request has ended. -/
def Dev.recWriteEnd (d : Dev) (st : Status) : Dev := (d.setSt R.SEC_REC_STATUS_STATUS st).set R.SEC_REC_STATUS_DONE 1

/-- GO of a record write: a request that passes erases the copy not in force and is BUSY. -/
def Dev.recordWrite (d : Dev) (len : Nat) : Dev :=
  let d := d.set R.SEC_REC_CTRL_LEN len
  if d.has R.SEC_REC_STATUS_BUSY then d.set R.SEC_REC_STATUS_GO_REJECTED 1 else
  let st := d.recWriteCheck len
  if st ≠ 0 ∨ len = 0 then d.recWriteEnd st else
  let b := d.read (4096 * d.get R.SEC_REC_SRC_SRC) len
  let d := { d with sec := { d.sec with
    recOp := some b
    records := Map.erase d.sec.records (d.otherCopy (recType b)) } }
  (d.set R.SEC_REC_STATUS_BUSY 1).set R.SEC_REC_STATUS_TYPE (recType b)

/-- A record written and read back is in force (R520, R521). -/
def Dev.recordInForce (d : Dev) (b : Bytes) : Dev :=
  let t := recType b
  let k := d.otherCopy t
  let d := { d with sec := { d.sec with
    records := Map.insert d.sec.records k b
    inForce := Map.insert d.sec.inForce t (k % 2) } }
  match t with
  | 4 => (d.setW R.SEC_OWNER_KEY_ID (Sys2Proof.Machine.keyId (slice (recBody b) 0 32))).set R.SEC_STATUS_OWNED 1
  | 5 => d.setW R.SEC_MIN_VERSION (fld (recBody b) 0 8)
  | _ => d

/-- The write of a record ends. Where reading back fails the copy is left empty, and no rule gives the status. -/
def Dev.recordWritten (d : Dev) (ok : Bool) : Dev :=
  match d.sec.recOp with
  | none => d
  | some b =>
    let d := { d with sec := { d.sec with recOp := none } }
    let d := d.set R.SEC_REC_STATUS_BUSY 0
    if ok then (d.recordInForce b).recWriteEnd 0
    else
      let (st, d) := d.drawStatus
      d.recWriteEnd st

def execRecordWrite (len : BitVec 32) (s : State) : Host.Outcome State Fault Refusal :=
  s.act .live (fun d => (d.recordWrite len.toNat).reply St.ok)

/-! ## Quotes (R523, R524) -/

/-- The quote of the state now, without its signature. -/
def Dev.quoteBytes (d : Dev) (nonce : Bytes) : Bytes :=
  let dig := fun (b : Bytes) => if b = [] then List.replicate 64 (0 : Byte) else sha512 b
  let flags := b2n d.det + 2 * d.get R.SEC_STATUS_OWNED + 4 * b2n d.fatal + 8 * d.get R.LGR_STATUS_SELF_FENCED
  [0x47, 0x4C, 0x51, 0x55, 0x4F, 0x54, 0x45, 0x31] ++ le 2 1 ++ le 2 (d.get R.GLB_ID_PART_CODE)
    ++ le 2 (256 * d.get R.GLB_ID_STEP_MAJOR + d.get R.GLB_ID_STEP_MINOR) ++ le 1 (d.get R.GLB_ID_GRADE) ++ le 1 flags ++ nonce
    ++ le 8 d.ftNs ++ le 2 d.node ++ List.replicate 6 0 ++ le 8 (d.word (R.MGT_FW_VERSION 0)).toNat ++ le 8 d.minVersion
    ++ sha512 (slice (d.slotOf d.runSlot).bytes 0 256) ++ dig (d.recOf 4) ++ dig d.sec.bootUnits ++ dig d.sec.bootMedia
    ++ List.replicate 48 0 ++ slice (d.recOf 2) 0 192
    ++ (List.range 16).flatMap (fun f => le 8 (d.word (R.SEQ_FN_IMAGE f)).toNat ++ slice (d.img f).digest 0 64 ++ le 1 (d.fnState f)
      ++ List.replicate 7 0)

/-- Whether a range meets a region of a loaded function. -/
def Dev.inRegion (d : Dev) (a n : Nat) : Bool := d.loadedFns.any (fun e => e.2.regions.any (fun g => rangesMeet g.base g.size a n))

/-- A quote request has ended. -/
def Dev.quoteEnd (d : Dev) (st : Status) : Dev := (d.setSt R.SEC_QUOTE_CTRL_STATUS st).set R.SEC_QUOTE_CTRL_DONE 1

/-- GO of a quote: the state is sampled. -/
def Dev.quoteRequest (d : Dev) : Dev :=
  if d.has R.SEC_QUOTE_CTRL_BUSY then d.set R.SEC_QUOTE_CTRL_GO_REJECTED 1 else
  let n := 32 * d.get R.SEC_QUOTE_NONCE_ADDR
  let o := 64 * d.get R.SEC_QUOTE_OUT_ADDR
  match hbmRange n 32, hbmRange o 1920 with
  | some st, _ => d.quoteEnd st
  | none, some st => d.quoteEnd st
  | none, none =>
    if d.inRegion n 32 || d.inRegion o 1920 then d.quoteEnd St.domainMismatch
    else { d with sec := { d.sec with quote := some (o, d.quoteBytes (d.read n 32)) } }.set R.SEC_QUOTE_CTRL_BUSY 1

/-- The quote sampled is signed and written. -/
def Dev.quoteComplete (d : Dev) : Dev :=
  match d.sec.quote with
  | none => d
  | some (o, q) =>
    let (sig, d) := d.signWith q
    let d := { d with sec := { d.sec with quote := none } }
    ((d.write o (q ++ sig)).set R.SEC_QUOTE_CTRL_BUSY 0).quoteEnd 0

def execQuoteRequest (s : State) : Host.Outcome State Fault Refusal := s.act .live (fun d => d.quoteRequest.reply St.ok)
def execQuoteComplete (s : State) : Host.Outcome State Fault Refusal := s.act .live (fun d => d.quoteComplete)

end Sys2Proof.Machine
end

