-- ==== Sys2Proof/Machine/Fw.lean ====
section
/-! DEFINITION. Firmware operations (spec 19, R505 to R508) and the end of a record write, after which a waiting operation
runs. -/

namespace Sys2Proof.Machine

/-! ## Firmware images (R522) -/

/-- Header well formed and signed by the Tabnoto root. -/
def fwSigned (root b : Bytes) : Bool :=
  b.take 8 == [0x47, 0x4C, 0x46, 0x57, 0x49, 0x4D, 0x47, 0x31] && fld b 8 2 == 1 && allZero (slice b 0xA 6)
    && fld b 0x18 8 == b.length && 256 ≤ b.length && b.length ≤ 0x1C000000 && allZero (slice b 0x28 24) && allZero (slice b 0x80 64)
    && edVerify root (slice b 0 0xC0) (slice b 0xC0 64)

/-- A verified image: its body, besides, matches BODY_DIGEST. -/
def fwVerified (root b : Bytes) : Bool := fwSigned root b && sha512 (b.drop 256) == slice b 0x40 64

/-- The handover format check of UPDATE: `old` is the running image. -/
def fwHandoverOk (old new : Bytes) : Bool := fld new 0x24 4 ≤ fld old 0x20 4 && fld old 0x20 4 ≤ fld new 0x20 4

/-! ## Operations (R506, R507) -/

/-- A firmware operation has ended. -/
def Dev.fwEnd (d : Dev) (st : Status) : Dev :=
  let d := { d with mgt := { d.mgt with fw := none } }
  ((d.set R.MGT_FW_STATUS_STATE 0).setSt R.MGT_FW_STATUS_STATUS st).set R.MGT_FW_STATUS_DONE 1

/-- The checks of WRITE_SLOT; the length 0 passes and is OK without effect. -/
def Dev.writeSlotCheck (d : Dev) (len src : Nat) : Status :=
  match lenCheck 32 len 0x1C000000 with
  | some st => st
  | none =>
    if len = 0 then 0 else
    match srcRange src len with
    | some st => st
    | none =>
      let b := d.read src len
      if !fwSigned d.sec.rootKey b then St.signatureInvalid
      else if fwVersion b < d.minVersion then St.targetMismatch
      else 0

/-- The checks of UPDATE. -/
def Dev.updateCheck (d : Dev) : Status :=
  let x := d.slotOf (1 - d.runSlot)
  if d.has R.SEQ_IMG_STATUS_BUSY || d.has R.SEQ_IMG_STATUS_PENDING then St.loaderBusy
  else if !x.verified then St.signatureInvalid
  else if fwVersion x.bytes < d.minVersion || !fwHandoverOk (d.slotOf d.runSlot).bytes x.bytes then St.targetMismatch
  else 0

/-- NEXT_SLOT and the slot-select word name slot `n`. -/
def Dev.nameNext (d : Dev) (n : Nat) : Dev :=
  { d with mgt := { d.mgt with slotSelect := n } }.set R.MGT_FW_STATUS_NEXT_SLOT n

/-- A firmware operation runs its checks, and starts. -/
def Dev.fwRun (d : Dev) (o : FwOp) : Dev :=
  let other := 1 - d.runSlot
  if d.fatal then (d.setSt R.MGT_FW_STATUS_STATUS St.deviceFatal).set R.MGT_FW_STATUS_DONE 1
  else if d.get R.MGT_FW_STATUS_STATE ≠ 0 then (d.setSt R.MGT_FW_STATUS_STATUS St.loaderBusy).set R.MGT_FW_STATUS_DONE 1
  else match o.op with
  | 1 =>
    let st := d.writeSlotCheck o.len o.src
    if st ≠ 0 ∨ o.len = 0 then d.fwEnd st else
    let d := { d.setSlot other ⟨[], false⟩ with mgt := { (d.setSlot other ⟨[], false⟩).mgt with fw := some o } }
    (d.setW (R.MGT_FW_VERSION 1) 0).set R.MGT_FW_STATUS_STATE 1
  | 2 =>
    let st := d.updateCheck
    if st ≠ 0 then d.fwEnd st
    else { d with mgt := { d.mgt with fw := some { o with prepared := false } } }.set R.MGT_FW_STATUS_STATE 2
  | 3 => if (d.slotOf other).verified then (d.nameNext other).fwEnd 0 else d.fwEnd St.signatureInvalid
  | _ => d.fwEnd St.opInvalid

/-- GO of MGT_FW_CTRL: while a record write is BUSY, the operation waits (R520). -/
def Dev.fwGo (d : Dev) (op len : Nat) : Dev :=
  let d := (d.set R.MGT_FW_CTRL_OP op).set R.MGT_FW_CTRL_LEN len
  let o : FwOp := ⟨op, len, 4096 * d.get R.MGT_FW_SRC_SRC, false⟩
  if d.mgt.fwWait then
    (d.setSt R.MGT_FW_STATUS_STATUS (if d.fatal then St.deviceFatal else St.loaderBusy)).set R.MGT_FW_STATUS_DONE 1
  else if d.has R.SEC_REC_STATUS_BUSY then { d with mgt := { d.mgt with
    fw := some o
    fwWait := true } }
  else d.fwRun o

/-- The operation that waited for the record write runs. -/
def Dev.fwResume (d : Dev) : Dev :=
  match d.mgt.fwWait, d.mgt.fw with
  | true, some o => { d with mgt := { d.mgt with
      fw := none
      fwWait := false } }.fwRun o
  | _, _ => d

/-- WRITE_SLOT ends: the bytes written are verified; on failure the slot stays empty. -/
def Dev.slotWritten (d : Dev) (ok : Bool) : Dev :=
  match d.get R.MGT_FW_STATUS_STATE, d.mgt.fw with
  | 1, some o =>
    let b := d.read o.src o.len
    if ok && fwVerified d.sec.rootKey b then
      ((d.setSlot (1 - d.runSlot) ⟨b, true⟩).setW (R.MGT_FW_VERSION 1) (fwVersion b)).fwEnd 0
    else d.fwEnd St.signatureInvalid
  | _, _ => d

/-- HANDOVER starts. -/
def Dev.handover (d : Dev) : Dev :=
  match d.get R.MGT_FW_STATUS_STATE, d.mgt.fw with
  | 2, some o => if o.prepared then d.set R.MGT_FW_STATUS_STATE 3 else d
  | _, _ => d

/-- PREPARING ends: HANDOVER waits for a tick, or starts at once where ticks do not run. -/
def Dev.prepared (d : Dev) : Dev :=
  match d.get R.MGT_FW_STATUS_STATE, d.mgt.fw with
  | 2, some o =>
    let d := { d with mgt := { d.mgt with fw := some { o with prepared := true } } }
    if d.has R.SEQ_TICK_CTRL_RUNNING then d else d.handover
  | _, _ => d

/-- The new image runs (R507 step 3): slots and versions swap. -/
def Dev.swapSlots (d : Dev) : Dev :=
  let n := 1 - d.runSlot
  let v0 := d.word (R.MGT_FW_VERSION 0)
  let v1 := d.word (R.MGT_FW_VERSION 1)
  (((d.set R.MGT_FW_STATUS_RUNNING_SLOT n).nameNext n).setWord (R.MGT_FW_VERSION 0) v1).setWord (R.MGT_FW_VERSION 1) v0

def execWriteSlot (len : BitVec 32) (s : State) : Host.Outcome State Fault Refusal :=
  s.act .live (fun d => (d.fwGo 1 len.toNat).reply St.ok)
def execUpdate (s : State) : Host.Outcome State Fault Refusal := s.act .live (fun d => (d.fwGo 2 (d.get R.MGT_FW_CTRL_LEN)).reply St.ok)
def execSelect (s : State) : Host.Outcome State Fault Refusal := s.act .live (fun d => (d.fwGo 3 (d.get R.MGT_FW_CTRL_LEN)).reply St.ok)
def execFwOpInvalid (s : State) : Host.Outcome State Fault Refusal :=
  s.act .live (fun d => (d.fwGo 0 (d.get R.MGT_FW_CTRL_LEN)).reply St.ok)
def execWriteSlotComplete (ok : Bool) (s : State) : Host.Outcome State Fault Refusal := s.act .live (fun d => d.slotWritten ok)
def execUpdatePreparingEnd (s : State) : Host.Outcome State Fault Refusal := s.act .live (fun d => d.prepared)
def execRecordWriteComplete (ok : Bool) (s : State) : Host.Outcome State Fault Refusal :=
  s.act .live (fun d => if d.sec.recOp.isSome then (d.recordWritten ok).fwResume else d)

end Sys2Proof.Machine
end

