-- ==== Sys2Proof/Machine/Stc.lean ====
section
/-! DEFINITION. Storage commands and power states (spec 06). -/

namespace Sys2Proof.Machine

/-! ## What a command finds -/

/-- Writable capacity of all namespaces together, at most (R192). -/
def writableMax : Nat := 286331153

/-- Capacity reserved by writable namespaces, those being created included. -/
def Dev.reservedCap (d : Dev) : Nat :=
  d.med.live.ns.foldl (fun n e => if e.2.kind = 0 then n + e.2.cap else n) 0
    + d.med.tasks.foldl (fun n t => if t.op = 0x10 ∧ t.kind = 0 then n + t.cap else n) 0

/-- The write pointer as it stands once every accepted command has run. -/
def Dev.projWp (d : Dev) (n : Nat) (x : Ns) : Nat :=
  d.med.tasks.foldl (fun w t =>
    if t.op = 2 ∧ t.nsid = n then w + t.count
    else if ((t.op = 3 ∧ (t.nsid = 0 ∨ t.nsid = n)) ∨ (t.op = 0x16 ∧ t.nsid = n)) ∧ !t.padded then alignUp 124 w
    else w) x.wp

/-- Whether a loaded function's MAP section names the namespace on this device (R193). -/
def Dev.nsInUse (d : Dev) (n : Nat) : Bool :=
  d.loadedFns.any (fun fi => (fi.2.sect secMap).isSome &&
    (List.range (d.sfld fi.1 secMap 4 4)).any (fun i => d.mapNs fi.1 i 0 2 = 0xFFF && d.mapNs fi.1 i 2 1 = n))

/-- OPCODEs of R186. -/
def stcListed (op : Nat) : Bool := [1, 2, 3, 4, 0x10, 0x11, 0x12, 0x13, 0x14, 0x15, 0x16].contains op
/-- Whether a command names a namespace. -/
def stcNames (op : Nat) : Bool := [1, 2, 3, 4, 0x10, 0x11, 0x15, 0x16].contains op
/-- Whether a command uses COUNT, or BUF and LEN. -/
def stcCounts (op : Nat) : Bool := [1, 2, 4].contains op
def stcBuffers (op : Nat) : Bool := [1, 2, 0x12, 0x13, 0x14, 0x15].contains op

/-- Bytes that a command moves or produces. -/
def Dev.stcBytes (d : Dev) (t : Task) : Nat :=
  match t.op with
  | 1 => 3840 * t.count
  | 2 => 3840 * t.count
  | 0x12 => 32 * d.med.live.ns.length
  | 0x13 => 512
  | 0x14 => d.healthLog.1.length
  | 0x15 => match d.ns t.nsid with
    | some x => 32 + 128 * x.sbs.length
    | none => 0
  | _ => 0

/-- Whether a buffer lies on another node. -/
def Dev.bufRemote (d : Dev) (a : Nat) : Bool := a / 2 ^ 52 != 0xFFF && a / 2 ^ 52 != d.node

/-- The kind and state checks of order 6. -/
def Dev.stcKind (d : Dev) (t : Task) (x : Ns) : Status :=
  match t.op with
  | 2 => if x.isSealed || x.ro then St.mediaReadOnly else 0
  | 4 => if x.kind = 1 then St.nsKind else if x.ro then St.mediaReadOnly else 0
  | 0x16 => if x.kind = 0 then St.nsKind else if x.isSealed then St.nsSealed else 0
  | 0x15 => if x.kind = 0 then St.nsKind else if !x.isSealed then St.nsNotSealed else 0
  | 0x11 => if d.nsInUse t.nsid then St.nsInUse else 0
  | _ => 0

/-- The bounds of order 8. -/
def Dev.stcBounds (d : Dev) (t : Task) : Bool :=
  let end_ := t.sector + t.count
  let inNs := match d.ns t.nsid with
    | some x =>
      if !stcCounts t.op then true
      else if x.kind = 0 ∨ t.op = 2 then end_ ≤ x.cap
      else if x.isSealed then end_ ≤ x.sectors
      else end_ ≤ d.projWp t.nsid x
    | none => true
  let cap := t.op ≠ 0x10 ∨ t.kind = 1 ∨ t.cap + d.reservedCap ≤ writableMax
  inNs && (!stcBuffers t.op || d.stcBytes t ≤ t.len) && cap

/-- The buffer of a command checked where it lies on this device (order 11). -/
def Dev.stcBuf (d : Dev) (t : Task) : Status :=
  let n := d.stcBytes t
  let a := t.buf % 2 ^ 52
  if !stcBuffers t.op || d.bufRemote t.buf || n == 0 then 0
  else if d.classOf a = .control then St.accessDenied
  else match hbmRange a n with
  | some st => st
  | none =>
    if d.loadedFns.any (fun fi => fi.2.regions.any (fun r => r.size != 0 && a < r.base + r.size && r.base < a + n)) then
      St.domainMismatch
    else 0

/-- What the checks of R187 make of a command: a status, OK with no effect (none, false), or its parts run (none, true). -/
def Dev.stcCheck (d : Dev) (t : Task) : Status × Bool :=
  let lo := if t.op = 3 then 0 else 1
  let x := d.ns t.nsid
  if !stcListed t.op then (St.opInvalid, false)
  else if stcNames t.op ∧ ¬ (lo ≤ t.nsid ∧ t.nsid ≤ 64) then (St.nsidInvalid, false)
  else if t.op ≠ 0x13 ∧ !d.mOnline then (St.mediaOffline, false)
  else if t.op = 0x10 ∧ x.isSome then (St.nsExists, false)
  else if stcNames t.op ∧ t.op ≠ 0x10 ∧ t.nsid ≠ 0 ∧ x.isNone then (St.nsNotFound, false)
  else if stcNames t.op ∧ t.nsid ≠ 0 ∧ d.med.tasks.any (fun e => (e.op = 0x16 || e.op = 0x11) && e.nsid = t.nsid) = true then
    (St.nsBusy, false)
  else
    let k := match x with
      | some x => if stcNames t.op then d.stcKind t x else 0
      | none => 0
    if k ≠ 0 then (k, false)
    else if (stcCounts t.op ∧ t.count = 2 ^ 32 - 1) ∨ (stcBuffers t.op ∧ t.len = 2 ^ 64 - 1) ∨ (t.op = 0x10 ∧ t.cap = 2 ^ 48 - 1) then
      (St.lengthReserved, false)
    else if !d.stcBounds t then (St.lengthExceedsBuffer, false)
    else if (stcCounts t.op ∧ t.count = 0) ∨ (t.op = 0x10 ∧ t.cap = 0) then (0, false)
    else
      let wpBad := match x with
        | some x => t.op == 2 && x.kind == 1 && t.sector != d.projWp t.nsid x
        | none => false
      if wpBad then (St.writePointer, false) else (d.stcBuf t, true)

/-! ## Completion (R182, R188) -/

/-- A command completes. -/
def Dev.stcComplete (d : Dev) (t : Nat) (st : Status) (result : Nat) : Dev :=
  let d := d.modMed (fun m => { m with tasks := m.tasks.filter (fun e => e.set ≠ t) })
  let d := (d.setSt (R.STC_TASK_STATUS_STATUS t) st).setWord (R.STC_TASK_RESULT t) (BitVec.ofNat 64 (if st = 0 then result else 0))
  (d.set (R.STC_TASK_STATUS_BUSY t) 0).set (R.STC_TASK_STATUS_DONE t) 1

/-- MASK and the PART fields of a command. -/
def Dev.stcParts (d : Dev) (t : Nat) (parts : List Nat) (fails : List (Nat × Status)) : Dev :=
  let d := parts.foldl (fun d p => d.set ⟨R.STC_TASK_PART_MASK t, p, p⟩ 1) d
  fails.foldl (fun d e => if parts.contains e.1 then
      d.set ⟨R.STC_TASK_PART t (e.1 / 4), 16 * (e.1 % 4) + 15, 16 * (e.1 % 4)⟩ e.2.toNat
    else d) d

/-- The status of the lowest-numbered failing part. -/
def partStatus (parts : List Nat) (fails : List (Nat × Status)) : Status :=
  ((parts.findSome? (fun p => (fails.find? (fun e => e.1 = p && e.2 != 0)).map (·.2)))).getD 0

/-! ## Power states: leaving them (R196 to R201) -/

/-- Whether host relay is open over a port (R196, R502). -/
def Dev.relayPortOpen (d : Dev) (p : Nat) : Bool :=
  d.mgt.relayPort == some p || ((d.relaySlot p).isSome && d.gfUp p && d.has R.MGT_HOST_VALID && !d.has R.MGT_HOST_RELAYED)

/-- The ports that a device outside P3 drives and one in P3 does not. -/
def Dev.lanesOff (d : Dev) : Dev :=
  d.portList.foldl (fun d p => if d.pstate p = 0 ∨ d.relayPortOpen p then d else d.enterDisabled p) d
def Dev.lanesOn (d : Dev) : Dev :=
  d.portList.foldl (fun d p =>
    if d.pstate p = 0 ∧ d.has (R.FAB_PORT_CFG_ENABLE p) then
      d.startPort p (d.get (R.FAB_PORT_CFG_WIDTH p)) (d.has (R.FAB_PORT_CFG_RELAY p)) (d.has (R.FAB_PORT_CFG_PRECODE p))
        (d.has (R.FAB_PORT_CFG_CR p))
    else d) d

/-- CURRENT takes a shallower state. -/
def Dev.powerExit (d : Dev) (p : Nat) : Dev :=
  let was := d.get R.STC_POWER_STATUS_CURRENT
  let d := d.set R.STC_POWER_STATUS_CURRENT p
  let d := if was = 3 ∧ p < 3 then d.lanesOn else d
  if 2 ≤ was ∧ p < 2 then (d.modMed (fun m => { m with accessed := false })).disarm .selfRefresh else d

/-- A power request completes. -/
def Dev.powerDone (d : Dev) (st : Status) : Dev := (d.setSt R.STC_POWER_STATUS_STATUS st).set R.STC_POWER_STATUS_DONE 1

/-- A storage command is accepted: an entry is abandoned, or the device returns to P0 (R200). -/
def Dev.powerWake (d : Dev) : Dev :=
  if d.has R.STC_POWER_STATUS_ENTERING then (d.set R.STC_POWER_STATUS_ENTERING 0).powerDone St.powerEntryAbandoned
  else if d.has R.STC_POWER_STATUS_CURRENT then d.powerExit 0 else d

/-! ## GO (R181 to R184) -/

/-- The command that a set's registers describe. -/
def Dev.stcTask (d : Dev) (t : Nat) : Task :=
  { set := t, op := d.get (R.STC_TASK_CMD_OPCODE t), nsid := d.get (R.STC_TASK_CMD_NSID t),
    sector := (d.word (R.STC_TASK_SECTOR t)).toNat, count := d.get (R.STC_TASK_COUNT_COUNT t),
    buf := 256 * d.get (R.STC_TASK_BUF_BUF t), len := (d.word (R.STC_TASK_BUF_LEN t)).toNat,
    kind := d.get (R.STC_TASK_ARG_KIND t), cap := d.get (R.STC_TASK_ARG_CAPACITY t), data := [], rst := 0, rcode := 0,
    padded := false, cover := [] }

/-- A set's task record. -/
def Dev.task (d : Dev) (t : Nat) : Option Task := d.med.tasks.find? (fun e => e.set = t)
def Dev.setTask (d : Dev) (x : Task) : Dev :=
  d.modMed (fun m => { m with tasks := m.tasks.map (fun e => if e.set = x.set then x else e) })

/-- The next request of a transfer with a buffer on another node: a WRITE command reads it in pieces of at most 16 MiB,
the others write it. -/
def Dev.stcRemote (d : Dev) (x : Task) : Dev :=
  let at_ := if x.op = 2 then x.data.length else 0
  let len := if x.op = 2 then min 16777216 (3840 * x.count - at_) else x.data.length
  let part : PartSt := ⟨true, 0, x.buf % 2 ^ 52 + at_, 0, len, 0, 0, 0⟩
  let d := d.setTask { x with rst := 1 }
  d.xptIssue 16 (x.buf / 2 ^ 52) (.storage x.set) 0 (if x.op = 2 then 1 else 0) 0 0 0 [part] (if x.op = 2 then [] else x.data)

/-- A GO on set `t` (R182, R187, R200, R475). -/
def Dev.stcGo (d : Dev) (t : Nat) : Dev :=
  if d.has (R.STC_TASK_STATUS_BUSY t) then d.set (R.STC_TASK_STATUS_GO_REJECTED t) 1 else
  let x := d.stcTask t
  let d := d.setWord (R.STC_TASK_STATUS t) 0
  let d := (d.set (R.STC_TASK_STATUS_OPCODE t) x.op).setWord (R.STC_TASK_RESULT t) 0
  let d := (List.range 8).foldl (fun d k => d.setWord (R.STC_TASK_PART t k) 0) (d.setWord (R.STC_TASK_PART_MASK t) 0)
  if d.fatal then d.stcComplete t St.deviceFatal 0 else
  let d := d.powerWake
  let d := d.set (R.STC_TASK_STATUS_BUSY t) 1
  match d.stcCheck x with
  | (st, runs) =>
    if st ≠ 0 ∨ !runs then d.stcComplete t st 0 else
    let d := d.modMed (fun m => { m with tasks := m.tasks ++ [x] })
    if x.op = 2 ∧ d.bufRemote x.buf then d.stcRemote x else d

/-- A GO on set `t`, where its OPCODE is `op` and the set is free. -/
def stcCommand (op : Nat) (t : Fin 8) (s : State) : Host.Outcome State Fault Refusal :=
  s.act .live (fun d =>
    if d.get (R.STC_TASK_CMD_OPCODE t) = op ∧ !d.has (R.STC_TASK_STATUS_BUSY t) then (d.stcGo t).reply St.ok else d)

def execRead (t : Fin 8) (s : State) : Host.Outcome State Fault Refusal := stcCommand 0x01 t s
def execWrite (t : Fin 8) (s : State) : Host.Outcome State Fault Refusal := stcCommand 0x02 t s
def execFlush (t : Fin 8) (s : State) : Host.Outcome State Fault Refusal := stcCommand 0x03 t s
def execDeallocate (t : Fin 8) (s : State) : Host.Outcome State Fault Refusal := stcCommand 0x04 t s
def execNsCreate (t : Fin 8) (s : State) : Host.Outcome State Fault Refusal := stcCommand 0x10 t s
def execNsDelete (t : Fin 8) (s : State) : Host.Outcome State Fault Refusal := stcCommand 0x11 t s
def execNsList (t : Fin 8) (s : State) : Host.Outcome State Fault Refusal := stcCommand 0x12 t s
def execIdentify (t : Fin 8) (s : State) : Host.Outcome State Fault Refusal := stcCommand 0x13 t s
def execHealth (t : Fin 8) (s : State) : Host.Outcome State Fault Refusal := stcCommand 0x14 t s
def execMapExport (t : Fin 8) (s : State) : Host.Outcome State Fault Refusal := stcCommand 0x15 t s
def execSeal (t : Fin 8) (s : State) : Host.Outcome State Fault Refusal := stcCommand 0x16 t s

def execStcOpcodeInvalid (t : Fin 8) (s : State) : Host.Outcome State Fault Refusal :=
  s.act .live (fun d =>
    if !stcListed (d.get (R.STC_TASK_CMD_OPCODE t)) && !d.has (R.STC_TASK_STATUS_BUSY t) then (d.stcGo t).reply St.ok else d)

def execStcGoRejected (t : Fin 8) (s : State) : Host.Outcome State Fault Refusal :=
  s.act .live (fun d => if d.has (R.STC_TASK_STATUS_BUSY t) then (d.stcGo t).reply St.ok else d)

/-! ## Which command waits (R184, R190, R193, R194) -/

/-- Whether an earlier-accepted command `e` holds `t` back. -/
def Dev.holds (d : Dev) (e t : Task) : Bool :=
  let changes := [2, 4, 0x11, 0x16].contains e.op
  let same := e.nsid == t.nsid
  let ranged := stcCounts e.op && stcCounts t.op
  let overlap := !ranged || (e.sector < t.sector + t.count && t.sector < e.sector + e.count)
  let sealable := match d.ns t.nsid with
    | some x => x.kind == 1
    | none => false
  match t.op with
  | 3 => (e.op == 2 || e.op == 4) && (t.nsid == 0 || same) || (changes && same)
  | 0x11 => stcNames e.op && (same || (e.op == 3 && e.nsid == 0))
  | 0x16 => stcNames e.op && (same || (e.op == 3 && e.nsid == 0))
  | 2 => changes && same && overlap ||
      (sealable && ((e.op == 2 && same) || (e.op == 3 && (same || e.nsid == 0) && !e.padded)))
  | op => stcNames op && changes && same && overlap

/-- The commands accepted before set `t`'s. -/
def Dev.earlier (d : Dev) (t : Nat) : List Task := d.med.tasks.takeWhile (fun e => e.set ≠ t)

/-! ## Sectors -/

/-- The superblock and sector in it of sector `s` of a sealable namespace. -/
def Dev.nsPlace (d : Dev) (x : Ns) (s : Nat) : Nat × Nat := (x.sbs.getD (s / d.sbSectors) 0, s % d.sbSectors)

/-- The superblock and sector in it of sector `s` of namespace `n`; none where it is unmapped. -/
def Dev.secPlace (d : Dev) (n s : Nat) : Option (Nat × Nat) :=
  match d.ns n with
  | none => none
  | some x =>
    if x.kind = 1 then some (d.nsPlace x s)
    else (Map.find d.med.live.pmap (2 ^ 48 * n + s)).map (fun i => (i / d.sbSectors, i % d.sbSectors))

/-- The part that a sector of a superblock lies on. -/
def partOf (q : Nat) : Nat := (placeOf q).2.1

/-- One page sense counted for a sector that is read from flash. -/
def Dev.senseSector (d : Dev) (k q : Nat) : Dev :=
  let (page, m, cw) := placeOf q
  if (Map.find d.med.wbuf (placeNo k page m cw)).isSome then d
  else ((d.hlth cwRead).hlth cwHard).sense_ (d.resolve ((d.sb k).members.getD m 0) 0) 1

/-- A payload put into the write buffer. -/
def Dev.bufPut (d : Dev) (place : Nat) (b : Bytes) : Dev := d.modMed (fun m => { m with wbuf := Map.insert m.wbuf place b })

/-- The write buffer's room, in sectors (R189). -/
def wbufSectors : Nat := 1073741824 / 3840

/-- A superblock for a sealable namespace, numbered from 2^20. -/
def Dev.sealableSb (d : Dev) (n : Nat) : Option (Nat × Dev) :=
  let k := Map.fresh d.med.live.sbs (d.med.live.sbs.length + 1) (2 ^ 20)
  (d.newSb k n).map (fun d => (k, d))

/-- One payload appended to a sealable namespace at its write pointer; none where no erased superblock is left. -/
def Dev.append (d : Dev) (n : Nat) (b : Bytes) : Option Dev :=
  match d.ns n with
  | none => none
  | some x =>
    let i := x.wp / d.sbSectors
    let got := if i < x.sbs.length then some (d, x) else (d.sealableSb n).map (fun kd => (kd.2, { x with sbs := x.sbs ++ [kd.1] }))
    got.map (fun dx =>
      let (d, x) := dx
      let (page, m, cw) := placeOf (x.wp % d.sbSectors)
      (d.setNs n { x with wp := x.wp + 1 }).bufPut (placeNo (x.sbs.getD i 0) page m cw) b)

/-- Payloads appended in order. -/
def Dev.appendAll (d : Dev) (n : Nat) (l : List Bytes) : Option Dev :=
  l.foldl (fun o b => o.bind (fun d => d.append n b)) (some d)

/-- One sector of a writable namespace written; none where no erased superblock is left. -/
def Dev.putSector (d : Dev) (n s : Nat) (b : Bytes) : Option Dev :=
  d.wPlace.map (fun x => (x.2.bufPut (x.2.placeOfIndex x.1) b).modLive (fun m => { m with pmap := Map.insert m.pmap (2 ^ 48 * n + s) x.1 }))

/-- Whether GC can still free space of the writable region (R176). -/
def Dev.gcCanFree (d : Dev) : Bool :=
  let opened := d.med.live.wNext.map (fun i => i / d.sbSectors)
  !d.med.live.gcHalted && d.wSbs.any (fun e => some e.1 != opened && (d.validIn e.1).length < d.sbSectors)

/-- A payload of zeros. -/
def zeroSector : Bytes := List.replicate 3840 0

/-- The incomplete stripe of a sealable namespace padded (R149, R190). -/
def Dev.padNs (d : Dev) (n : Nat) : Dev :=
  match d.ns n with
  | none => d
  | some x =>
    if x.kind ≠ 1 ∨ x.isSealed then d
    else (d.appendAll n (List.replicate (alignUp 124 x.wp - x.wp) zeroSector)).getD d

/-- The incomplete stripe of the writable region padded. -/
def Dev.padWritable (d : Dev) : Dev :=
  match d.med.live.wNext with
  | none => d
  | some i =>
    (List.range (alignUp 124 i - i)).foldl (fun d _ =>
      match d.wPlace with
      | some (j, d) => d.bufPut (d.placeOfIndex j) zeroSector
      | none => d) d

/-- Every incomplete stripe padded. -/
def Dev.padAll (d : Dev) : Dev := ((d.med.live.ns.map (·.1)).foldl (fun d n => d.padNs n) d).padWritable

/-- The places of the write buffer that a FLUSH of `n` covers. -/
def Dev.coverOf (d : Dev) (n : Nat) : List Nat :=
  let all := d.med.wbuf.map (·.1)
  if n = 0 then all else
  match d.ns n with
  | none => []
  | some x => all.filter (fun p => if x.kind = 1 then x.sbs.contains (p / 131072) else p / 131072 < 2 ^ 20)

/-! ## Effects -/

/-- Data for a command's buffer: written here, or sent to the node of the buffer first. None while that is under way. -/
def Dev.stcDeliver (d : Dev) (x : Task) (b : Bytes) : Option (Status × Dev) × Dev :=
  if !d.bufRemote x.buf then (some (0, d.write (x.buf % 2 ^ 52) b), d)
  else match x.rst with
  | 0 => (none, d.stcRemote { x with data := b })
  | 1 => (none, d)
  | _ => (some (x.rcode, d), d)

/-- A command that answers data completes, or waits for its buffer. -/
def Dev.stcAnswer (d : Dev) (x : Task) (b : Bytes) (after : Dev → Dev) : Dev :=
  match d.stcDeliver x b with
  | (none, d) => d
  | (some (st, e), _) => (after e).stcComplete x.set st b.length

/-- READ. -/
def Dev.stcRead (d : Dev) (x : Task) (fails : List (Nat × Status)) : Dev :=
  let secs := (List.range x.count).map (fun i => d.secPlace x.nsid (x.sector + i))
  let parts := secs.foldl (fun l o => match o with
    | some (_, q) => insNat (partOf q) l
    | none => l) []
  let bad := partStatus parts fails
  let gone := match d.ns x.nsid with
    | some y => y.kind == 1 && !y.isSealed && y.wp < x.sector + x.count
    | none => true
  if gone then d.stcComplete x.set St.lengthExceedsBuffer 0
  else if bad ≠ 0 then (d.stcParts x.set parts fails).stcComplete x.set bad 0
  else
    let data := secs.flatMap (fun o => match o with
      | some (k, q) => slice (d.payloadAt k q) 0 3840
      | none => zeroSector)
    d.stcAnswer x data (fun d => secs.foldl (fun d o => match o with
      | some (k, q) => d.senseSector k q
      | none => d) (d.stcParts x.set parts []))

/-- A write that finds no erased block: it waits while GC can free space, or is rejected (R176). -/
def Dev.writeFull (d : Dev) (x : Task) (kind : Nat) : Dev :=
  if kind = 0 ∧ d.gcCanFree then d else (d.readOnly [x.nsid]).stcComplete x.set St.mediaReadOnly 0

/-- The bytes that a WRITE reads from its buffer. -/
def Dev.writeData (d : Dev) (x : Task) : Bytes :=
  if d.bufRemote x.buf then x.data else d.read (x.buf % 2 ^ 52) (3840 * x.count)

/-- WRITE (R188, R189). -/
def Dev.stcWrite (d : Dev) (x : Task) (fails : List (Nat × Status)) : Dev :=
  match d.ns x.nsid with
  | none => d.stcComplete x.set St.nsNotFound 0
  | some y =>
    if d.bufRemote x.buf ∧ x.rst ≠ 2 then d
    else if d.bufRemote x.buf ∧ x.rcode ≠ 0 then d.stcComplete x.set x.rcode 0
    else if y.isSealed ∨ y.ro = true then d.stcComplete x.set St.mediaReadOnly 0
    else if y.kind = 1 ∧ x.sector ≠ y.wp then d.stcComplete x.set St.writePointer 0
    else if wbufSectors < d.med.wbuf.length + x.count then d
    else
      let l := chunks 3840 (d.writeData x)
      let got := if y.kind = 1 then d.appendAll x.nsid l
        else ((List.range l.length).zip l).foldl (fun o e => o.bind (fun d => d.putSector x.nsid (x.sector + e.1) e.2)) (some d)
      match got with
      | none => d.writeFull x y.kind
      | some e =>
        let parts := (List.range x.count).foldl (fun acc i => match e.secPlace x.nsid (x.sector + i) with
          | some (_, q) => insNat (partOf q) acc
          | none => acc) []
        let bad := partStatus parts fails
        if bad ≠ 0 then (d.stcParts x.set parts fails).stcComplete x.set bad 0
        else ((e.modMed (fun m => { m with dirty := true })).stcParts x.set parts []).stcComplete x.set 0
          (if y.kind = 1 then y.wp + x.count else 0)

/-- FLUSH: the stripes are padded, and the command completes once what it covers is protected (R190). -/
def Dev.stcFlush (d : Dev) (x : Task) : Dev :=
  let d := if x.padded then d else
    let d := if x.nsid = 0 then d.padAll else match d.ns x.nsid with
      | some y => if y.kind = 1 then d.padNs x.nsid else d.padWritable
      | none => d
    d.setTask { x with
      padded := true
      cover := d.coverOf x.nsid }
  let cover := ((d.task x.set).map (fun y => y.cover)).getD []
  if cover.any (fun p => (Map.find d.med.wbuf p).isSome) then d else
  let parts := cover.foldl (fun l p => insNat (p / 4 % 32) l) []
  let d := d.saveMeta
  let d := if d.med.wbuf.isEmpty then d.modMed (fun m => { m with dirty := false }) else d
  let result := match d.ns x.nsid with
    | some y => if y.kind = 1 then y.wp else 0
    | none => 0
  (d.stcParts x.set parts []).stcComplete x.set 0 result

/-- SEAL (R156): SECTORS is the write pointer before the padding. -/
def Dev.stcSeal (d : Dev) (x : Task) : Dev :=
  match d.ns x.nsid with
  | none => d.stcComplete x.set St.nsNotFound 0
  | some y =>
    let d := if x.padded then d else
      let d := (d.setNs x.nsid { y with sectors := y.wp }).padNs x.nsid
      d.setTask { x with
        padded := true
        cover := d.coverOf x.nsid }
    let cover := ((d.task x.set).map (fun z => z.cover)).getD []
    if cover.any (fun p => (Map.find d.med.wbuf p).isSome) then d else
    let parts := cover.foldl (fun l p => insNat (p / 4 % 32) l) []
    match d.ns x.nsid with
    | none => d
    | some z =>
      let d := (d.setNs x.nsid { z with isSealed := true }).saveMeta
      let d := if d.med.wbuf.isEmpty then d.modMed (fun m => { m with dirty := false }) else d
      (d.stcParts x.set parts []).stcComplete x.set 0 z.sectors

/-- DEALLOCATE. -/
def Dev.stcDealloc (d : Dev) (x : Task) : Dev :=
  let lo := 2 ^ 48 * x.nsid + x.sector
  let d := d.modLive (fun m => { m with pmap := m.pmap.filter (fun e => e.1 < lo || lo + x.count ≤ e.1) })
  (d.modMed (fun m => { m with dirty := true })).stcComplete x.set 0 0

/-- NS_CREATE (R192). -/
def Dev.stcNsCreate (d : Dev) (x : Task) : Dev :=
  if (d.ns x.nsid).isSome then d.stcComplete x.set St.nsExists 0 else
  ((d.setNs x.nsid ⟨x.kind, x.cap, false, false, 0, 0, []⟩).saveMeta).stcComplete x.set 0 0

/-- NS_DELETE (R193). -/
def Dev.stcNsDelete (d : Dev) (x : Task) : Dev :=
  match d.ns x.nsid with
  | none => d.stcComplete x.set St.nsNotFound 0
  | some y =>
    let blocks := y.sbs.flatMap (fun k => (d.sb k).members.map (fun a => d.resolve a 0))
    let gone := d.med.live.reloc.filter (fun r => blocks.contains r.new)
    let olds := y.sbs.flatMap (fun k => (d.sb k).members)
    let freed := (blocks ++ olds ++ gone.map (·.old)).foldl (fun l a => insNat a l) []
    let d := freed.foldl (fun d a => if (d.blk a).st = 1 then d.setBlkSt a 2 else d) d
    let d := d.modLive (fun m => { m with
      ns := Map.erase m.ns x.nsid
      pmap := m.pmap.filter (fun e => e.1 / 2 ^ 48 ≠ x.nsid)
      reloc := m.reloc.filter (fun r => !gone.contains r)
      sbs := m.sbs.filter (fun e => !y.sbs.contains e.1) })
    let d := d.modMed (fun m => { m with
      wbuf := m.wbuf.filter (fun e => !y.sbs.contains (e.1 / 131072))
      queue := m.queue.filter (fun a => !freed.contains a)
      repair := m.repair.filter (fun a => !freed.contains a) })
    (d.saveMeta.relocRegs).stcComplete x.set 0 0

/-- NS_LIST entries (R194). -/
def nsEntry (n : Nat) (x : Ns) : Bytes :=
  le 1 n ++ le 1 x.kind ++ le 1 (if x.ro then 2 else if x.isSealed then 1 else 0) ++ [0] ++ le 4 x.sbs.length ++ le 8 x.cap
    ++ le 8 (if x.kind = 0 then 0 else if x.isSealed then x.sectors else x.wp) ++ List.replicate 8 0

/-- Erased superblocks available to sealable namespaces: whole superblocks of blocks beyond the spare reserve. -/
def Dev.sbFree (d : Dev) : Nat :=
  ((List.range 32).map (fun ch => (d.erased ch).length - d.spareLeft ch)).foldl min (d.mDies * d.mPlanes * d.mBlocks)

/-- The identify record (R195). -/
def Dev.identifyRec (d : Dev) : Bytes :=
  let on := d.mOnline
  [0x47, 0x4C, 0x49, 0x44, 0x45, 0x4E, 0x54, 0x31] ++ le 2 1 ++ le 2 (d.get R.GLB_ID_PART_CODE) ++ le 1 (d.get R.GLB_ID_STEP_MAJOR)
    ++ le 1 (d.get R.GLB_ID_STEP_MINOR) ++ le 1 (d.get R.GLB_ID_GRADE) ++ le 1 (d.get R.STC_POWER_STATUS_CURRENT)
    ++ le 8 (d.word (R.MGT_FW_VERSION 0)).toNat ++ le 2 3840 ++ le 1 64 ++ le 1 d.med.live.ns.length ++ le 1 d.mDies ++ le 1 d.mPlanes
    ++ le 2 d.mBlocks ++ le 2 d.mPages ++ le 2 0 ++ le 4 (if on then d.sbFree else 0) ++ le 8 d.sbSectors ++ le 8 writableMax
    ++ le 8 (if on then writableMax - d.reservedCap else 0) ++ le 8 1073741824
    ++ le 4 (if on then d.get R.MED_MAP_EPOCH_EPOCH else 0) ++ le 4 (if on then d.get R.MED_MAP_FLOOR_FLOOR else 0)
    ++ List.replicate 432 0

/-- The output of MAP_EXPORT (R157, R165). -/
def Dev.mapExport (d : Dev) (n : Nat) (x : Ns) : Bytes :=
  le 2 0xFFF ++ le 1 n ++ [0] ++ le 4 d.med.live.epoch ++ le 4 x.sbs.length ++ le 4 0 ++ le 8 32 ++ le 8 x.sectors
    ++ x.sbs.flatMap (fun k => (d.sb k).members.flatMap (fun a => le 4 (d.resolve a 0)))

/-- STC_COMMAND_COMPLETE: set `t`'s command has run its parts, with the statuses of those that fail; its effect and its
completion, where nothing holds it back. -/
def Dev.stcRun (d : Dev) (t : Nat) (fails : List (Nat × Status)) : Dev :=
  match d.task t with
  | none => d
  | some x =>
    if (d.earlier t).any (fun e => d.holds e x) then d
    else if [1, 2, 3, 0x16].contains x.op ∧ !(List.range 32).all (fun c => 0 < d.unowned c) then d
    else match x.op with
    | 1 => d.stcRead x fails
    | 2 => d.stcWrite x fails
    | 3 => d.stcFlush x
    | 4 => d.stcDealloc x
    | 0x10 => d.stcNsCreate x
    | 0x11 => d.stcNsDelete x
    | 0x12 => d.stcAnswer x (d.med.live.ns.flatMap (fun e => nsEntry e.1 e.2)) id
    | 0x13 => d.stcAnswer x d.identifyRec id
    | 0x14 => let (b, d) := d.healthLog; d.stcAnswer x b id
    | 0x15 => match d.ns x.nsid with
      | none => d.stcComplete t St.nsNotFound 0
      | some y => d.stcAnswer x (d.mapExport x.nsid y) (fun d => d.modLive (fun m => { m with
          exported := true
          raised := false }))
    | _ => d.stcSeal x

def execStcCommandComplete (t : Fin 8) (fails : List (Nat × Status)) (s : State) : Host.Outcome State Fault Refusal :=
  s.act .engine (fun d => if d.get R.MGT_FW_STATUS_STATE = 3 then d else d.stcRun t fails)

/-- The storage path takes the completions of its transport requests. -/
def Dev.settleStorage (d : Dev) : Dev :=
  let mine : List (Nat × Completion) := d.xpt.done.filterMap (fun c => match c.issuer with
    | .storage t => some (t, c)
    | _ => none)
  let d := d.modXpt (fun t => { t with done := t.done.filter (fun c => match c.issuer with
    | .storage _ => false
    | _ => true) })
  mine.foldl (fun d e =>
    match d.task e.1 with
    | none => d
    | some x =>
      if e.2.status ≠ St.ok then d.setTask { x with
          rst := 2
          rcode := e.2.status }
      else
        let x := { x with data := if x.op = 2 then x.data ++ e.2.data else x.data }
        if x.op = 2 ∧ x.data.length < 3840 * x.count then (d.setTask x).stcRemote x else d.setTask { x with rst := 2 }) d

/-! ## Power requests (R198 to R201) -/

/-- A power request for P`p`. -/
def Dev.powerRequest (d : Dev) (p : Nat) : Dev :=
  let cur := d.get R.STC_POWER_STATUS_CURRENT
  let d := d.set R.STC_POWER_CTRL_TARGET p
  if d.fatal then d.powerDone St.deviceFatal
  else if d.has R.STC_POWER_STATUS_ENTERING then d.powerDone St.requestPending
  else if p = cur then (d.set R.STC_POWER_STATUS_TARGET p).powerDone St.ok
  else if p < cur then ((d.set R.STC_POWER_STATUS_TARGET p).powerExit p).powerDone St.ok
  else if !(List.range 16).all (fun f => d.fnState f ≤ stStopped) then (d.set R.STC_POWER_STATUS_TARGET p).powerDone St.functionRunning
  else if d.has R.SEQ_IMG_STATUS_BUSY || d.has R.SEQ_IMG_STATUS_PENDING then
    (d.set R.STC_POWER_STATUS_TARGET p).powerDone St.loaderBusy
  else ((d.set R.STC_POWER_STATUS_TARGET p).set R.STC_POWER_STATUS_ENTERING 1).set R.STC_POWER_STATUS_DONE 0

def powerCommand (p : Nat) (s : State) : Host.Outcome State Fault Refusal :=
  s.act .live (fun d => (d.powerRequest p).reply St.ok)

def execPowerRequestP0 (s : State) : Host.Outcome State Fault Refusal := powerCommand 0 s
def execPowerRequestP1 (s : State) : Host.Outcome State Fault Refusal := powerCommand 1 s
def execPowerRequestP2 (s : State) : Host.Outcome State Fault Refusal := powerCommand 2 s
def execPowerRequestP3 (s : State) : Host.Outcome State Fault Refusal := powerCommand 3 s

/-- POWER_ENTRY_COMMIT (R199): no set is BUSY and the write buffer is drained; else the drain goes on. -/
def Dev.powerCommit (d : Dev) : Dev :=
  if !d.has R.STC_POWER_STATUS_ENTERING ∨ !d.med.tasks.isEmpty then d else
  let d := if d.mOnline then d.padAll else d
  if !d.med.wbuf.isEmpty then d else
  let p := d.get R.STC_POWER_STATUS_TARGET
  let d := if d.mOnline then (d.saveMeta).modMed (fun m => { m with dirty := false }) else d
  let d := if p = 3 then d.lanesOff else d
  ((d.set R.STC_POWER_STATUS_CURRENT p).set R.STC_POWER_STATUS_ENTERING 0).powerDone St.ok

def execPowerEntryCommit (s : State) : Host.Outcome State Fault Refusal := s.act .engine (fun d => d.powerCommit)

/-- HBM_SELF_REFRESH_ENTRY (R197). -/
def execHbmSelfRefreshEntry (s : State) : Host.Outcome State Fault Refusal :=
  s.act .live (fun d =>
    if d.med.accessed && d.expired .selfRefresh then
      (d.modMed (fun m => { m with accessed := false })).disarm .selfRefresh
    else d)

end Sys2Proof.Machine
end

