-- ==== Sys2Proof/Machine/XptCmd.lean ====
section
/-! DEFINITION. The commands of remote memory access (spec 14): queue pairs, windows, protection domains, requests and
received packets. -/

namespace Sys2Proof.Machine

/-- The units that issue requests take what has completed (R398). -/
def Dev.settle (d : Dev) : Dev := d.settleThreads.settleStorage.settleShards

/-! ## Queue pairs (R376 to R378) -/

/-- The setup record in XPT_QP_SETUP_0 to XPT_QP_SETUP_7. -/
def Dev.qpRecord (d : Dev) : Bytes := (List.range 8).flatMap (fun k => le 8 (d.word (R.XPT_QP_SETUP k)).toNat)

/-- The fields of a setup record. -/
def qpSetupOf (b : Bytes) : QpSetup :=
  { mode := fld b 0 1, tc := fld b 1 1, pd := fld b 2 2, peerNode := fld b 4 2, port := fld b 6 1, mtu := fld b 7 1,
    peerQp := fld b 8 4, psnTx := fld b 0xC 4, psnRx := fld b 0x10 4, creditMax := fld b 0x14 2, prio := fld b 0x16 1,
    dscp := fld b 0x17 1, peerMac := fld b 0x18 6, udpSrc := fld b 0x1E 2, peerIp := unbe (slice b 0x20 16),
    recvHandle := fld b 0x30 4, imm := (fld b 0x34 1).testBit 0 }

/-- Whether a setup record keeps its table. Fields marked RoCEv2 alone are not looked at on GF. -/
def Dev.qpRecordOk (d : Dev) (b : Bytes) : Bool :=
  let u := qpSetupOf b
  u.mode ≤ 1 && u.tc ≤ 31 && u.pd ≤ 4095 && u.peerNode ≤ 0xFFE && u.peerNode != d.node && allZero (slice b 0x35 11) &&
    (if u.mode = 0 then
      u.port == 0 && u.mtu == 0 && u.peerQp < 2 ^ 20 &&
        (if d.creditClass u.tc then 1 ≤ u.creditMax && u.creditMax ≤ 64 else u.creditMax == 0)
    else
      1 ≤ u.mtu && u.mtu ≤ 3 && u.peerQp < 2 ^ 24 && u.psnTx < 2 ^ 24 && u.psnRx < 2 ^ 24 && u.creditMax == 0 &&
        u.prio ≤ 7 && u.dscp < 64 && fld b 0x34 1 ≤ 1)

/-- Whether a traffic class is open to a queue pair of an owner. -/
def Dev.tcOk (d : Dev) (owner tc : Nat) : Bool :=
  if owner < 16 then (d.img owner).tcMask.testBit tc else d.loadedFns.all (fun e => !e.2.tcMask.testBit tc)

/-- Why CREATE refuses, 0 where it does not (R377, R475, R481). -/
def Dev.createCheck (d : Dev) (q : Nat) : Status :=
  let u := qpSetupOf d.qpRecord
  let owner := d.qpOwner q
  if d.fatal then St.deviceFatal
  else if d.has R.LGR_STATUS_SELF_FENCED then St.fenced
  else if (d.qp q).isSome then St.qpState
  else if !d.qpRecordOk d.qpRecord then St.qpInvalid
  else if !d.tcOk owner u.tc then St.qpInvalid
  else if !d.has (R.XPT_PD_VALID u.pd) ∨ d.get (R.XPT_PD_OWNER u.pd) ≠ owner then St.qpInvalid
  else if u.mode = 1 ∧ (!d.isPort u.port ∨ !d.isEth u.port ∨ d.creditClass u.tc) then St.qpInvalid
  else 0

/-- A queue pair as CREATE leaves it. -/
def Dev.qpFresh (d : Dev) (u : QpSetup) : Qp :=
  { st := 1, setup := u, err := 0, psnTx := u.psnTx, psnRx := u.psnRx, unhandled := [], seqNaked := false, rnrAt := none, reqs := [],
    flight := [], rnrFrom := none, cwnd := d.cwndMax u.tc, lastCut := 0, granted := 0, unused := 0, grants := 0, grantsUsed := 0,
    atomics := [], msn := 0, retries := 7, rnrRetries := 7, lastCnp := none, ringAt := 0, msg := none, sendBuf := [] }

/-- A queue-pair command has completed with a status. -/
def Dev.qpDone (d : Dev) (st : Status) : Dev :=
  ((d.set R.XPT_QP_CMD_BUSY 0).set R.XPT_QP_CMD_DONE 1).setSt R.XPT_QP_CMD_STATUS st

/-- CREATE. The new state stands on die where a cached state can make room for it. -/
def Dev.createQp (d : Dev) (q : Nat) : Dev :=
  let st := d.createCheck q
  if st ≠ 0 then d.qpDone st else
  let d := d.setQp q (d.qpFresh (qpSetupOf d.qpRecord))
  (((d.bringIn q).getD (d.wantQp q)).topUp q).qpDone 0

/-- DESTROY ends: the queue pair is in RESET. -/
def Dev.destroyEnd (d : Dev) (q : Nat) : Dev :=
  let waiting := (d.xpt.miss.filter (fun e => e.1 = q)).length
  let d := d.modXpt (fun t => { t with
    miss := t.miss.filter (fun e => e.1 ≠ q)
    cached := t.cached.filter (· != q)
    fetching := t.fetching.filter (· != q)
    destroying := none })
  ((d.retire (poolNo 0x10 0) waiting).qpReset q).qpDone 0

/-- DESTROY: at once where no request is outstanding. -/
def Dev.destroyQp (d : Dev) (q : Nat) : Dev :=
  if d.fatal then d.qpDone St.deviceFatal else
  match d.qp q with
  | none => d.qpDone 0
  | some x =>
    if x.reqs.isEmpty then d.destroyEnd q
    else (d.modXpt (fun t => { t with destroying := some q })).set R.XPT_QP_CMD_BUSY 1

/-- QUERY: the queue pair's state as XPT_QP_STATUS shows it. -/
def Dev.queryQp (d : Dev) (q : Nat) : Dev :=
  if d.fatal then d.qpDone St.deviceFatal else
  let d := d.setW R.XPT_QP_STATUS 0
  let d := d.set R.XPT_QP_STATUS_CACHED (b2n (d.onDie q))
  let d : Dev := match d.qp q with
    | none => d
    | some x =>
      (((((d.set R.XPT_QP_STATUS_STATE x.st).set R.XPT_QP_STATUS_MODE x.setup.mode).set R.XPT_QP_STATUS_PEER_NODE
        x.setup.peerNode).set R.XPT_QP_STATUS_PD x.setup.pd).set R.XPT_QP_STATUS_TC x.setup.tc).setSt R.XPT_QP_STATUS_ERR_STATUS x.err
  d.qpDone 0

/-- A GO of XPT_QP_CMD. -/
def Dev.qpGo (d : Dev) (op q : Nat) : Dev :=
  let d := (d.set R.XPT_QP_CMD_OP op).set R.XPT_QP_CMD_QP q
  if d.has R.XPT_QP_CMD_BUSY then d.set R.XPT_QP_CMD_GO_REJECTED 1 else
  match op with
  | 1 => d.createQp q
  | 2 => d.destroyQp q
  | 3 => d.queryQp q
  | _ => d.qpDone (if d.fatal then St.deviceFatal else St.opInvalid)

def execCreate (qp : BitVec 20) (s : State) : Host.Outcome State Fault Refusal := s.act .live (fun d => (d.qpGo 1 qp.toNat).reply St.ok)
def execDestroy (qp : BitVec 20) (s : State) : Host.Outcome State Fault Refusal := s.act .live (fun d => (d.qpGo 2 qp.toNat).reply St.ok)
def execQuery (qp : BitVec 20) (s : State) : Host.Outcome State Fault Refusal := s.act .live (fun d => (d.qpGo 3 qp.toNat).reply St.ok)
def execQpCmdInvalid (qp : BitVec 20) (s : State) : Host.Outcome State Fault Refusal :=
  s.act .live (fun d => (d.qpGo 0 qp.toNat).reply St.ok)

/-- DESTROY_COMPLETE: the queue pair that a DESTROY waits for has no request outstanding. -/
def execDestroyComplete (s : State) : Host.Outcome State Fault Refusal :=
  s.act .engine (fun d =>
    match d.xpt.destroying with
    | none => d
    | some q => if ((d.qp q).map (fun x => x.reqs.isEmpty)).getD true then d.destroyEnd q else d)

/-! ## Windows (R388 to R390) -/

/-- Whether regions between them hold the bytes from `a` up to `e`, in at most `n` pieces. -/
def coveredBy (rs : List Region) (e : Nat) : Nat → Nat → Bool
  | 0, a => decide (e ≤ a)
  | n + 1, a =>
    if e ≤ a then true else
    match rs.find? (fun r => r.base ≤ a && a < r.base + r.size) with
    | none => false
    | some r => coveredBy rs e n (r.base + r.size)

/-- Whether the range of a window suits its protection domain (R388). -/
def Dev.windowRangeOk (d : Dev) (w pd a n : Nat) : Bool :=
  let c := d.classOf a
  let owner := d.get (R.XPT_PD_OWNER pd)
  let i := d.img owner
  a % 4096 == 0 && n % 4096 == 0 && n != 0 && a + n ≤ 2 ^ 52 && c == d.classOf (a + n - 1) && c != .fixed && c != .control &&
    (if owner = 16 then
      c != .hbm || d.loadedFns.all (fun e => e.2.regions.all (fun r => a + n ≤ r.base || r.base + r.size ≤ a))
    else c == .media || (c == .hbm && coveredBy i.regions (a + n) i.regions.length a) ||
      (c == .scratch && scratchBase + 0x40000 * i.coreBase ≤ a && a + n ≤ scratchBase + 0x40000 * (i.coreBase + i.coreCount))) &&
    d.xpt.windows.all (fun e => e.1 == w || d.winSt e.1 == 0 || e.2.pd != pd || a + n ≤ e.2.base || e.2.base + e.2.size ≤ a)

/-- Why OPEN refuses, 0 where it does not. -/
def Dev.openCheck (d : Dev) (w pd : Nat) : Status :=
  let a := 4096 * d.get R.XPT_WIN_BASE_BASE
  let n := (d.word R.XPT_WIN_SIZE).toNat
  if d.fatal then St.deviceFatal
  else if d.winSt w ≠ 0 then St.windowState
  else if n = 2 ^ 64 - 1 then St.lengthReserved
  else if !d.has (R.XPT_PD_VALID pd) then St.windowInvalid
  else if !d.windowRangeOk w pd a n then St.windowInvalid
  else 0

/-- A window command has completed with a status. -/
def Dev.winDoneWith (d : Dev) (st : Status) : Dev :=
  ((d.set R.XPT_WIN_STATUS_BUSY 0).set R.XPT_WIN_STATUS_DONE 1).setSt R.XPT_WIN_STATUS_STATUS st

/-- OPEN: a new generation, and ACTIVE at once. -/
def Dev.openWin (d : Dev) (w pd access : Nat) : Dev :=
  let st := d.openCheck w pd
  if st ≠ 0 then d.winDoneWith st else
  let a := 4096 * d.get R.XPT_WIN_BASE_BASE
  let gen := d.get (R.XPT_WIN_STATE_GEN w)
  let x : Win := ⟨a, (d.word R.XPT_WIN_SIZE).toNat, pd, if mediaBase ≤ a then access % 2 else access⟩
  let d := d.modXpt (fun t => { t with windows := Map.insert t.windows w x })
  ((d.set (R.XPT_WIN_STATE_GEN w) (if gen = 0xFFFF then 1 else gen + 1)).set (R.XPT_WIN_STATE_STATE w) 1).winDoneWith 0

/-- A DRAINING window whose admitted packets have all ended becomes CLOSED (R390). -/
def Dev.closeWin (d : Dev) (w : Nat) : Dev :=
  if d.winSt w ≠ 2 ∨ d.get (R.XPT_WIN_STATE_ADMITTED w) ≠ 0 then d else
  let d := (d.set (R.XPT_WIN_STATE_STATE w) 0).modXpt (fun t => { t with windows := Map.erase t.windows w })
  if d.xpt.revoking = some w then (d.modXpt (fun t => { t with revoking := none })).winDoneWith 0 else d

/-- REVOKE: the fence falls at once, and the command is in progress until the window is CLOSED. -/
def Dev.revokeGo (d : Dev) (w : Nat) : Dev :=
  if d.fatal then d.winDoneWith St.deviceFatal
  else if d.winSt w ≠ 1 then d.winDoneWith 0
  else ((d.revokeWin w).modXpt (fun t => { t with revoking := some w })).set R.XPT_WIN_STATUS_BUSY 1

/-- A GO of XPT_WIN_CTRL. -/
def Dev.winGo (d : Dev) (op w pd access : Nat) : Dev :=
  let d := (((d.set R.XPT_WIN_CTRL_OP op).set R.XPT_WIN_CTRL_INDEX w).set R.XPT_WIN_CTRL_PD pd).set R.XPT_WIN_CTRL_ACCESS access
  if d.has R.XPT_WIN_STATUS_BUSY then d.set R.XPT_WIN_STATUS_GO_REJECTED 1 else
  match op with
  | 1 => d.openWin w pd access
  | 2 => d.revokeGo w
  | _ => d.winDoneWith (if d.fatal then St.deviceFatal else St.opInvalid)

def execOpen (index : BitVec 16) (pd : BitVec 12) (access : BitVec 3) (s : State) : Host.Outcome State Fault Refusal :=
  s.act .live (fun d => (d.winGo 1 index.toNat pd.toNat access.toNat).reply St.ok)
def execRevoke (index : BitVec 16) (s : State) : Host.Outcome State Fault Refusal :=
  s.act .live (fun d => (d.winGo 2 index.toNat (d.get R.XPT_WIN_CTRL_PD) (d.get R.XPT_WIN_CTRL_ACCESS)).reply St.ok)
def execWindowClosed (index : BitVec 16) (s : State) : Host.Outcome State Fault Refusal := s.act .engine (fun d => d.closeWin index.toNat)

/-! ## Protection domains, peer entries, traffic classes (R379, R387, R401) -/

/-- A write to XPT_PD_p; none while a queue pair or a window names the domain. -/
def Dev.pdWrite (d : Dev) (p : Nat) (v : Word) : Dev :=
  if d.xpt.qps.any (fun e => e.2.setup.pd = p) || d.xpt.windows.any (fun e => d.winSt e.1 != 0 && e.2.pd = p) then d
  else (d.set (R.XPT_PD_VALID p) (getBits v 63 63)).set (R.XPT_PD_OWNER p) (getBits v 4 0)

def execPdWrite (pd : BitVec 12) (v : Word) (s : State) : Host.Outcome State Fault Refusal :=
  s.act .live (fun d => (d.pdWrite pd.toNat v).reply St.ok)

/-- A write to XPT_PEER_f_d; none where it names a queue pair of another owner. -/
def Dev.peerWrite (d : Dev) (f n : Nat) (v : Word) : Dev :=
  let q := getBits v 19 0
  if v.getLsbD 63 && d.qpOwner q != f then d
  else d.setW (R.XPT_PEER f n) (getBits v 63 63 * 2 ^ 63 + q)

def execPeerEntryWrite (f : Fin 17) (n : BitVec 12) (v : Word) (s : State) : Host.Outcome State Fault Refusal :=
  s.act .live (fun d => (d.peerWrite f.val n.toNat v).reply St.ok)

/-- A write to XPT_TC_t; none where it changes MODE while a READY queue pair uses the class. -/
def Dev.tcWrite (d : Dev) (t : Nat) (v : Word) : Dev :=
  if v.getLsbD 0 != d.creditClass t && d.xpt.qps.any (fun e => e.2.st = 1 && e.2.setup.tc = t) then d
  else (((d.set (R.XPT_TC_CWND_MAX t) (getBits v 63 48)).set (R.XPT_TC_TARGET t) (getBits v 47 32)).set (R.XPT_TC_RNR_WAIT t)
    (getBits v 31 24)).set (R.XPT_TC_MODE t) (getBits v 0 0)

def execTcConfigWrite (t : Fin 32) (v : Word) (s : State) : Host.Outcome State Fault Refusal :=
  s.act .live (fun d => (d.tcWrite t.val v).reply St.ok)

/-! ## Requests (R396 to R398) -/

/-- A part as the engine keeps it. -/
def partState (p : Part) : PartSt := ⟨p.addrForm, p.handle.toNat, p.addr.toNat, p.buf.toNat, p.len.toNat, 0, 0, 0⟩

/-- A request of 1 to 16 parts of a unit of `owner`; an atomic has one part of 8 bytes. -/
def Dev.requestIssue (d : Dev) (owner node token : Nat) (k : ReqKind) (ps : List Part) : Dev :=
  let parts := ps.map partState
  if parts.isEmpty || 16 < parts.length then d else
  match k with
  | .write => d.xptIssue owner node .command token 0 0 0 0 parts []
  | .read => d.xptIssue owner node .command token 1 0 0 0 parts []
  | .atomic ctl a b =>
    d.xptIssue owner node .command token 2 ctl.toNat a.toNat b.toNat ((parts.take 1).map (fun p => { p with len := 8 })) []

def execTransportRequestIssue (owner : Fin 17) (node : BitVec 12) (token : Word) (k : ReqKind) (parts : List Part) (s : State) :
    Host.Outcome State Fault Refusal :=
  s.act .engine (fun d => d.requestIssue owner.val node.toNat token.toNat k parts)

/-! ## Received packets (R380 to R386) -/

/-- The transport inbox without the malformed packets at its head. -/
def Dev.purgeXpt (d : Dev) : Dev := { d with fab := { d.fab with xptRx := d.fab.xptRx.dropWhile (fun m => !xptWf m.payload) } }

/-- The packet at the head of the transport inbox, where it has the opcode, is handled. -/
def Dev.takeXpt (d : Dev) (op : Nat) : Dev :=
  let d := d.purgeXpt
  match d.fab.xptRx with
  | [] => d
  | m :: r =>
    if (xptHdr m.payload).op ≠ op then d else
    let d := { d with fab := { d.fab with xptRx := r } }
    (if op = 1 ∨ op = 2 ∨ op = 4 then d.arriveRequest m else d.arriveResponse m).settle

def execTransportWrite (s : State) : Host.Outcome State Fault Refusal := s.act .engine (fun d => d.takeXpt 1)
def execReadReq (s : State) : Host.Outcome State Fault Refusal := s.act .engine (fun d => d.takeXpt 2)
def execReadResp (s : State) : Host.Outcome State Fault Refusal := s.act .engine (fun d => d.takeXpt 3)
def execAtomic (s : State) : Host.Outcome State Fault Refusal := s.act .engine (fun d => d.takeXpt 4)
def execAtomicResp (s : State) : Host.Outcome State Fault Refusal := s.act .engine (fun d => d.takeXpt 5)
def execAck (s : State) : Host.Outcome State Fault Refusal := s.act .engine (fun d => d.takeXpt 6)
def execNak (s : State) : Host.Outcome State Fault Refusal := s.act .engine (fun d => d.takeXpt 7)
def execGrant (s : State) : Host.Outcome State Fault Refusal := s.act .engine (fun d => d.takeXpt 8)

/-- The oldest PSN that is not acknowledged and answered. -/
def Qp.oldest (x : Qp) : Nat := ((x.flight.head?).map (fun t => t.psn)).getD x.psnTx

/-- 16 µs without ACK progress (R383, R393). -/
def execTransportRetransmitTimeout (qp : BitVec 20) (s : State) : Host.Outcome State Fault Refusal :=
  s.act .engine (fun d =>
    let q := qp.toNat
    match d.qp q with
    | none => d
    | some x => if d.expired (.retransmit q) then (d.cutHalf q).resendFrom q x.oldest else d)

/-- RNR_WAIT, or the RoCEv2 RNR timer, has passed since an RNR NAK (R383, R400). -/
def execRnrWaitExpiry (qp : BitVec 20) (s : State) : Host.Outcome State Fault Refusal :=
  s.act .engine (fun d =>
    let q := qp.toNat
    match (d.qp q).bind (fun x => x.rnrFrom) with
    | none => d
    | some n => if d.expired (.rnr q) then (((d.disarm (.rnr q)).resendFrom q n).xptSend q).settle else d)

/-- QP_STATE_FETCHED (R385). -/
def execQpStateFetched (qp : BitVec 20) (s : State) : Host.Outcome State Fault Refusal :=
  s.act .engine (fun d => (d.fetched qp.toNat).settle)

/-! ## Ethernet (R399, R400) -/

/-- The frame at the head of the Ethernet inbox, where it is a CNP or is none, is handled. -/
def Dev.takeRoce (d : Dev) (cnp : Bool) : Dev :=
  match d.fab.ethRx with
  | [] => d
  | (p, f) :: r =>
    if f.cnp != cnp then d else
    ((({ d with fab := { d.fab with ethRx := r } }).ethFree p f).roceFrame p f).settle

def execRocePacket (s : State) : Host.Outcome State Fault Refusal := s.act .engine (fun d => d.takeRoce false)
def execCnp (s : State) : Host.Outcome State Fault Refusal := s.act .engine (fun d => d.takeRoce true)

/-- 65.536 µs without an acknowledgement (R400). -/
def execRoceAckTimeout (qp : BitVec 20) (s : State) : Host.Outcome State Fault Refusal :=
  s.act .engine (fun d =>
    let q := qp.toNat
    match d.qp q with
    | none => d
    | some x => if d.expired (.roceAck q) then (d.roceRetry q x.oldest).settle else d)

end Sys2Proof.Machine
end

