-- ==== Sys2Proof/Machine/Rec.lean ====
section
/-! DEFINITION. Faults and recovery (spec 18, R473 to R486): memory errors, fences, leases, heartbeats, recovery records. -/

namespace Sys2Proof.Machine

/-! ## Uncorrectable memory errors (R473, R474) -/

/-- An uncorrectable error recorded, counted and raised. -/
def Dev.memErr (d : Dev) (addr : Nat) (st : Status) (block : Nat) : Dev :=
  let d := { d with lgr := { d.lgr with errors := (d.lgr.errors ++ [(⟨addr, st, block⟩ : ErrRec)]).take 256 } }
  (d.inc R.LGR_ECC_UNCORRECTABLE).raise 835 0

/-- The Pond slot that holds an address can hit no more: its tag is cleared (R127). -/
def Dev.pondSpoil (d : Dev) (a : Nat) : Dev :=
  match d.loadedFns.findSome? (fun e => (e.2.region 1).bind (fun r =>
      if r.holds a 1 && d.pondSlotBytes e.1 != 0 then some (r.base + (a - r.base) / d.pondSlotBytes e.1 * d.pondSlotBytes e.1) else none)) with
  | some s => d.zero s 64
  | none => d

/-- The oldest packet that came in on port `p` and still stands in a queue is discarded, its units and descriptor
returned (R357). -/
def Dev.dropStored (d : Dev) (p : Nat) : Dev :=
  let at_ := d.fab.links.findSome? (fun e => e.2.queues.findSome? (fun q =>
    (q.2.find? (fun k => k.inPort = some p)).map (fun k => (e.1, q.1, k))))
  match at_ with
  | none => d
  | some (op, q, k) =>
    let l := d.link op
    (d.setLink op { l with queues := Map.put [] l.queues q ((Map.get [] l.queues q).erase k) }).freePkt k

/-- An uncorrectable error is met and contained by its location. -/
def Dev.uncorrectable (d : Dev) (loc : ErrLoc) : Dev :=
  let e := St.memoryUncorrectable
  match loc with
  | .pond a => (d.memErr a e 3).pondSpoil a
  | .channelBuf f a => if d.loaded f then (d.memErr a e 1).stall f (2 ^ 80 + a) e else d.memErr a e 1
  | .stateArea f a => if d.loaded f then (d.memErr a e 3).stall f (2 ^ 80 + a) e else d.memErr a e 3
  | .planTables f a => if d.loaded f then (d.memErr a e 1).stall f (2 ^ 81 + a) e else d.memErr a e 1
  | .gtcCode f a => if d.loaded f then (d.memErr a e 7).stall f (2 ^ 81 + a) e else d.memErr a e 7
  | .packetBuffer p a => (d.memErr a e 8).dropStored p
  | .qpState q a => ((d.memErr a e 9).report 0xFF 9 e q).qpError q e
  | .core c a => ((d.memErr a St.coreError 7).report 0xFF 7 St.coreError c).coreFail c
  | .fixedRegion a => (d.memErr a e 3).goFatal e
  | .mgtSram a => (d.memErr a e 15).goFatal e
  | .ledger a => (d.memErr a e 13).goFatal e
  | .sec a => (d.memErr a e 16).goFatal e

def execUncorrectableError (loc : ErrLoc) (s : State) : Host.Outcome State Fault Refusal :=
  s.act .live (fun d => (d.uncorrectable loc).settle)

/-- CORE_FAILURE (R308). -/
def execCoreFailure (c : Nat) (addr : Nat) (s : State) : Host.Outcome State Fault Refusal :=
  s.act .engine (fun d => if c < d.get R.GLB_UNITS_THR_CORES then d.uncorrectable (.core c addr) else d)

/-- HBM_SCRUB: one address read by the 24-hour scrub. -/
def execHbmScrub (addr : Nat) (found : Scrub) (s : State) : Host.Outcome State Fault Refusal :=
  s.act .live (fun d =>
    if hbmSize ≤ addr then d else
    match found with
    | .clean => d
    | .correctable => d.inc R.LGR_ECC_CORRECTED
    | .uncorrectable => d.memErr addr St.memoryUncorrectable 3)

/-- FIRMWARE_ASSERT (R474). -/
def execFirmwareAssert (s : State) : Host.Outcome State Fault Refusal := s.act .live (fun d => d.goFatal St.firmwareAssert)

/-- A write of 1 to LGR_DUMP.RELEASE (R476). -/
def Dev.dumpRelease (d : Dev) : Dev :=
  ((d.write dumpBase (List.replicate 8 0)).set R.LGR_DUMP_LENGTH 0).set R.LGR_STATUS_DUMP 0

def execDumpRelease (s : State) : Host.Outcome State Fault Refusal := s.act .live (fun d => d.dumpRelease.reply St.ok)

/-! ## Fences, leases, heartbeats (R362, R375, R479 to R482) -/

/-- A write to FAB_NODE_ID. -/
def Dev.nodeWrite (d : Dev) (v : Word) : Dev :=
  if getBits v 11 0 ≠ d.node ∧ !d.loadedFns.isEmpty ∧ d.node ≠ 0xFFF then d
  else (d.set R.FAB_NODE_ID_NODE (getBits v 11 0)).set R.FAB_NODE_ID_ADMIT_EPOCH (getBits v 63 32)

def execNodeIdWrite (v : Word) (s : State) : Host.Outcome State Fault Refusal := s.act .live (fun d => (d.nodeWrite v).reply St.ok)

/-- A write to FAB_FENCE_n with VALID and EPOCH: none where it would clear VALID, lower the epoch of a valid entry or leave
it as it stands. -/
def Dev.fence (d : Dev) (n : Nat) (valid : Bool) (epoch : Nat) : Dev :=
  let was := d.has (R.FAB_FENCE_VALID n)
  if 0xFFF ≤ n then d
  else if was && (!valid || epoch ≤ d.get (R.FAB_FENCE_EPOCH n)) then d
  else
    let d := (d.set (R.FAB_FENCE_VALID n) (b2n valid)).set (R.FAB_FENCE_EPOCH n) epoch
    if valid then (d.xptFence n).settle else d

def execFenceWrite (n : BitVec 12) (v : Word) (s : State) : Host.Outcome State Fault Refusal :=
  s.act .live (fun d => (d.fence n.toNat (v.getLsbD 63) (getBits v 31 0)).reply St.ok)

/-- The node fences itself at an epoch (R481). -/
def Dev.selfFence (d : Dev) (epoch : Nat) : Dev :=
  let d := (d.set R.LGR_STATUS_SELF_FENCED 1).set R.LGR_LEASE_FENCE_EPOCH (max epoch (d.get R.LGR_LEASE_FENCE_EPOCH))
  let qs := (d.xpt.qps.filter (fun e => e.2.st = 1 && e.2.setup.peerNode != d.node)).map (·.1)
  let d := (qs.foldl (fun d q => d.qpError q St.fenced) d).settle
  (d.loadedFns.filter (fun e => d.fnState e.1 != stStopped)).foldl (fun d e => d.killWrite e.1) d

/-- LEASE_EXPIRY (R480, R481). -/
def Dev.leaseOut (d : Dev) : Dev :=
  if !d.expired .lease then d else
  let d := (d.disarm .lease).set R.LGR_LEASE_ACTIVE 0
  if d.has R.LGR_STATUS_SELF_FENCED then d else d.selfFence (d.get R.FAB_NODE_ID_ADMIT_EPOCH)

def execLeaseExpiry (s : State) : Host.Outcome State Fault Refusal := s.act .live (fun d => d.leaseOut)

/-- HEARTBEAT_SEND: every 1 ms, while a node ID is assigned. -/
def Dev.heartbeatOut (d : Dev) (p : Nat) : Dev :=
  if !(d.gfUp p && d.expired (.heartbeatSend p)) then d else
  let d := d.arm (.heartbeatSend p) (ms 1)
  if d.node = 0xFFF then d else
  d.sendTime p ([0x20, BitVec.ofNat 8 (d.get R.LGR_STATUS_SELF_FENCED)] ++ List.replicate 6 0 ++ timeField d.tim.ft.toNat
    ++ List.replicate 10 0 ++ le 4 (d.get R.FAB_NODE_ID_ADMIT_EPOCH))

def execHeartbeatSend (p : PortId) (s : State) : Host.Outcome State Fault Refusal := s.act .engine (fun d => d.heartbeatOut p)

/-- HEARTBEAT: a received heartbeat is recorded. -/
def Dev.heartbeatIn (d : Dev) : Dev :=
  match d.takeTim 0x20 with
  | (none, d) => d
  | (some m, d) =>
    let p := m.port
    let d := ((d.set (R.LGR_NBR_ADMIT_EPOCH p) (fld m.payload 0x1C 4)).set (R.LGR_NBR_NODE p) m.src).set (R.LGR_NBR_SELF_FENCED p)
      (fld m.payload 1 1 % 2)
    ((d.set (R.LGR_NBR_SILENT p) 0).set (R.LGR_NBR_HEARD p) 1).arm (.heartbeat p) (ms 4)

def execHeartbeat (s : State) : Host.Outcome State Fault Refusal := s.act .engine (fun d => d.heartbeatIn)

/-- NEIGHBOUR_SILENT: 4 ms without a heartbeat on a port that is UP. -/
def execNeighbourSilent (p : PortId) (s : State) : Host.Outcome State Fault Refusal :=
  s.act .engine (fun d =>
    if d.gfUp p && d.expired (.heartbeat p) then (d.disarm (.heartbeat p)).set (R.LGR_NBR_SILENT p) 1 else d)

/-! ## Completions to the host (R500, R501) -/

/-- The COMPLETION of a request. -/
def completionOf (t : Txn) (st : Status) (data : Bytes) : Txn :=
  { kind := 7, index := t.index, tag := t.tag, status := st, rsv := false, addr := 0, len := BitVec.ofNat 32 data.length, arg := 0,
    payload := data }

/-- The completions that no request under way holds back are sent, in order. -/
def Dev.flushCompletions (d : Dev) : Dev :=
  let go := d.mgt.completions.takeWhile (fun t => t.kind = 7)
  go.foldl (fun d t => d.toHost t) { d with mgt := { d.mgt with completions := d.mgt.completions.drop go.length } }

/-- A request has completed. -/
def Dev.complete (d : Dev) (t : Txn) (st : Status) (data : Bytes) : Dev :=
  { d with mgt := { d.mgt with completions := d.mgt.completions ++ [completionOf t st data] } }.flushCompletions

/-- The list with the first element equal to `a` replaced. -/
def replaceFirst (a b : Txn) : List Txn → List Txn
  | [] => []
  | x :: r => if x = a then b :: r else x :: replaceFirst a b r

/-! ## Recovery records (R483 to R485, R510) -/

/-- The fault-manager key in force, empty where the device is unowned. -/
def Dev.fmKey (d : Dev) : Bytes := slice (d.recOf 4) 96 32

/-- A reply to a record, signed with the device key. -/
def Dev.replyBytes (d : Dev) (st : Status) (rsn count : Nat) (stats : List Status) : Bytes × Dev :=
  let body := [0x47, 0x4C, 0x52, 0x50] ++ le 2 1 ++ le 2 st.toNat ++ le 8 rsn ++ le 2 count ++ List.replicate 14 0
    ++ padTo 8 ((List.range count).flatMap (fun i => le 2 (stats.getD i 0).toNat))
  let (sig, d) := d.signWith body
  (body ++ sig, d)

/-- A reply goes back on the path of its record. -/
def Dev.sendReply (d : Dev) (to_ : ReplyTo) (st : Status) (rsn count : Nat) (stats : List Status) : Dev :=
  let (b, d) := d.replyBytes st rsn count stats
  match to_ with
  | .net s => d.emit (.udp s b)
  | .host t _ =>
    { d with mgt := { d.mgt with completions := replaceFirst t (completionOf t st b) d.mgt.completions } }.flushCompletions

/-- An action's fields (R484). -/
def actionOf (b : Bytes) (i : Nat) : Action :=
  let o := 32 + 32 * i
  ⟨fld b o 1, fld b (o + 1) 1, fld b (o + 2) 2, fld b (o + 4) 4, fld b (o + 8) 8, fld b (o + 0x10) 8, fld b (o + 0x18) 8⟩

/-- Whether an action is one of the table, its function and its node in their ranges. -/
def Action.wf (a : Action) : Bool :=
  1 ≤ a.code && a.code ≤ 6 && (a.code < 4 || a.fn < 16) && (a.code != 1 || a.node < 0xFFF)

/-- Why a record is refused before its RSN is looked at, 0 where it is not. -/
def Dev.recCheck (d : Dev) (b : Bytes) : Status :=
  let n := fld b 6 2
  if d.fatal then St.deviceFatal
  else if b.length < 32 ∨ b.take 4 ≠ [0x47, 0x4C, 0x52, 0x52] ∨ fld b 4 2 ≠ 1 then St.recoveryInvalid
  else if n = 0xFFFF then St.lengthReserved
  else if 64 < n then St.lengthExceedsBuffer
  else if b.length ≠ 32 + 32 * n ∨ !allZero (slice b 0x10 16) then St.recoveryInvalid
  else if !(List.range n).all (fun i => (actionOf b i).wf) then St.recoveryInvalid
  else 0

/-- The record at the head of the queue has ended: its reply is stored and sent. -/
def Dev.recEnd (d : Dev) (r : RecoveryRec) : Dev :=
  let st := firstBad r.stats
  let n := r.actions.length
  let stats := (List.range n).map (fun i => r.stats.getD i 0)
  let d := { d with lgr := { d.lgr with
    queue := d.lgr.queue.drop 1
    replies := ((⟨r.rsn, st, stats, n⟩ : RecoveryReply) :: d.lgr.replies).take 64 } }
  r.replyTo.foldl (fun d x => d.sendReply x st r.rsn n stats) d

/-- Whether a record has ended. -/
def RecoveryRec.ended (r : RecoveryRec) : Bool := r.stats.length == r.actions.length || r.stats.any (· != 0)

/-- Records that have ended leave the queue; at most `n` do. -/
def Dev.recSettle (d : Dev) : Nat → Dev
  | 0 => d
  | n + 1 =>
    match d.lgr.queue with
    | r :: _ => if r.ended then (d.recEnd r).recSettle n else d
    | [] => d

/-- A record with a good signature, from the network or the host (R483). -/
def Dev.recTake (d : Dev) (b : Bytes) (to_ : ReplyTo) : Dev :=
  let rsn := fld b 8 8
  let n := fld b 6 2
  let st := d.recCheck b
  if st ≠ 0 then d.sendReply to_ st rsn (if n ≤ 64 ∧ 8 ≤ b.length then n else 0) []
  else if d.lgr.accepted.contains rsn then
    match d.lgr.replies.find? (fun r => r.rsn = rsn) with
    | some r => d.sendReply to_ r.status rsn r.count r.stats
    | none => { d with lgr := { d.lgr with queue := d.lgr.queue.map (fun r =>
        if r.rsn = rsn then { r with replyTo := r.replyTo ++ [to_] } else r) } }
  else if rsn ≤ (d.word R.LGR_RSN).toNat then d.sendReply to_ St.rsnStale rsn n []
  else if 16 ≤ d.lgr.queue.length then d.sendReply to_ St.tableFull rsn n []
  else
    let r : RecoveryRec := ⟨rsn, (List.range n).map (actionOf b), [], false, [to_]⟩
    let d := { d with lgr := { d.lgr with
      queue := d.lgr.queue ++ [r]
      accepted := (rsn :: d.lgr.accepted).take 64 } }
    (d.setW R.LGR_RSN rsn).recSettle 17

/-- A datagram or a RECORD payload: the record and its signature. -/
def Dev.recSigned (d : Dev) (b : Bytes) : Bool :=
  64 ≤ b.length && edVerify d.fmKey (b.take (b.length - 64)) (b.drop (b.length - 64))

/-- A datagram to port 7,410; in a handover it is held. -/
def Dev.recNet (d : Dev) (b : Bytes) (s : Sender) : Dev :=
  if d.get R.MGT_FW_STATUS_STATE = 3 then { d with mgt := { d.mgt with heldNet := d.mgt.heldNet ++ [(b, s)] } }
  else if !d.recSigned b then d.inc R.MGT_STATUS_NET_BAD
  else d.recTake (b.take (b.length - 64)) (.net s)

def execRecoveryRecord (rec : Bytes) (sender : Sender) (s : State) : Host.Outcome State Fault Refusal :=
  s.act .live (fun d => d.recNet rec sender)

/-- The action under way of the record at the head of the queue has ended. -/
def Dev.actionEnd (d : Dev) (st : Status) : Dev :=
  match d.lgr.queue with
  | [] => d
  | r :: rest =>
    match r.actions[r.stats.length]? with
    | none => d
    | some a =>
      let d := { d with lgr := { d.lgr with queue := { r with
        stats := r.stats ++ [st]
        waiting := false } :: rest } }
      (d.trace 3 (if a.code < 4 then 0xFF else a.fn) 13 st r.rsn a.code).recSettle 17

/-- The next action of the record at the head of the queue, where it is of CODE `code`, is run. `body` answers its status, or
none where it waits for a tick. -/
def Dev.action (d : Dev) (code : Nat) (body : Dev → Action → Option Status × Dev) : Dev :=
  if d.get R.MGT_FW_STATUS_STATE = 3 then d else
  match d.lgr.queue with
  | [] => d
  | r :: rest =>
    if r.waiting then d else
    match r.actions[r.stats.length]? with
    | none => d
    | some a =>
      if a.code ≠ code then d else
      match body d a with
      | (some st, d) => d.actionEnd st
      | (none, d) => { d with lgr := { d.lgr with queue := { r with waiting := true } :: rest } }

/-- FENCE: raises a node's fence; this node fences itself. -/
def Dev.actFence (d : Dev) (a : Action) : Option Status × Dev :=
  if a.node = d.node then (some 0, if d.get R.FAB_NODE_ID_ADMIT_EPOCH ≤ a.epoch then d.selfFence a.epoch else d)
  else (some 0, d.fence a.node true a.epoch)

/-- ADMIT: the admission epoch, the fence lifted, the lease started. -/
def Dev.actAdmit (d : Dev) (a : Action) : Option Status × Dev :=
  if a.epoch ≤ d.get R.LGR_LEASE_FENCE_EPOCH ∨ a.epoch < d.get R.FAB_NODE_ID_ADMIT_EPOCH then (some St.epochNotNewer, d)
  else
    let d := (d.set R.FAB_NODE_ID_ADMIT_EPOCH a.epoch).set R.LGR_LEASE_FENCE_EPOCH 0
    (some 0, (((d.set R.LGR_STATUS_SELF_FENCED 0).set R.LGR_STATUS_ADMITTED 1).set R.LGR_LEASE_ACTIVE 1).arm .lease (ms 2000))

/-- LEASE: the lease renewed. -/
def Dev.actLease (d : Dev) (a : Action) : Option Status × Dev :=
  if a.epoch ≠ d.get R.FAB_NODE_ID_ADMIT_EPOCH ∨ d.has R.LGR_STATUS_SELF_FENCED then (some St.fenced, d)
  else (some 0, if d.has R.LGR_LEASE_ACTIVE then d.arm .lease (ms 2000) else d)

/-- KILL of a function that is STARTING, RUNNING or STOPPING, at the next tick. -/
def Dev.actKill (d : Dev) (a : Action) : Option Status × Dev :=
  if !d.loaded a.fn then (some St.functionNotLoaded, d)
  else if d.fnState a.fn = stStopped then (some 0, d)
  else (none, d.killWrite a.fn)

/-- START with the resume point and the tick of the action. -/
def Dev.actStart (d : Dev) (a : Action) : Option Status × Dev :=
  let f := a.fn
  let d := (((d.set (R.SEQ_FN_FROM_USE f) (a.arg0 / 2 ^ 63)).set (R.SEQ_FN_FROM_RECORD f) (a.arg0 % 2 ^ 48)).setW (R.SEQ_FN_START_AT f)
    a.arg1).set (R.SEQ_FN_CTRL_CMD f) 1
  let (st, d) := d.startFn f a.arg1 (a.arg0.testBit 63) (a.arg0 % 2 ^ 48)
  (if st = 0 then none else some st, d)

/-- MEMBERSHIP: STAGE, none where the same epoch is staged or in force. -/
def Dev.actMembership (d : Dev) (a : Action) : Option Status × Dev :=
  let r := d.fn a.fn
  let same := fun (m : Memb) => m.epoch == a.epoch && m.steep == a.arg0 && m.consumers == a.arg2
  if r.staged.any same || r.memb.any same then (some 0, d)
  else
    let n := if a.arg2 = 2 ^ 64 - 1 then 0xFFFF else if a.arg2 < 0xFFFF then a.arg2 else 0xFFFE
    let (st, d) := d.stageMemb a.fn a.epoch a.arg0 a.arg1 n
    (some st, d)

def execRecoveryFence (s : State) : Host.Outcome State Fault Refusal := s.act .engine (fun d => d.action 1 Dev.actFence)
def execAdmitNode (s : State) : Host.Outcome State Fault Refusal := s.act .engine (fun d => d.action 2 Dev.actAdmit)
def execLease (s : State) : Host.Outcome State Fault Refusal := s.act .engine (fun d => d.action 3 Dev.actLease)
def execRecoveryKill (s : State) : Host.Outcome State Fault Refusal := s.act .engine (fun d => d.action 4 Dev.actKill)
def execRecoveryStart (s : State) : Host.Outcome State Fault Refusal := s.act .engine (fun d => d.action 5 Dev.actStart)
def execMembership (s : State) : Host.Outcome State Fault Refusal := s.act .engine (fun d => d.action 6 Dev.actMembership)

/-- At a device tick, after KILLs and STARTs have acted: the action that waited for it has ended. -/
def Dev.recTick (d : Dev) : Dev :=
  match d.lgr.queue with
  | [] => d
  | r :: _ =>
    if !r.waiting then d else
    match r.actions[r.stats.length]? with
    | none => d
    | some a =>
      if a.code = 4 then (if (d.fn a.fn).pendKill then d else d.actionEnd 0)
      else if (d.fn a.fn).pendStart.isSome then d
      else d.actionEnd (if d.fnRuns a.fn then 0 else St.functionStopped)

end Sys2Proof.Machine
end

