-- ==== Sys2Proof/Machine/Power.lean ====
section
/-! DEFINITION. Power, clocks, reset and boot (spec 21; spec 22, R548 to R552). -/

namespace Sys2Proof.Machine

/-! ## Reset (R537, R538) -/

/-- The reset cause register: PREV is held in VDD_AON. -/
def Dev.prev (d : Dev) : Nat := d.get R.GLB_RESET_CAUSE_PREV

/-- Everything at its reset value but what the reset keeps: package flash and the NAND; PREV; and on a warm reset HBM. A power-on
reset that follows writes without FLUSH counts as a power loss (R170). -/
def Dev.wipe (d : Dev) (warm : Bool) (phase : Phase) : Dev :=
  let m := d.med
  { Dev.reset with
    regs := Map.put (regReset R.GLB_RESET_CAUSE) [] R.GLB_RESET_CAUSE (BitVec.ofNat 64 (256 * d.prev))
    mem := if warm then d.mem.filter (fun c => c.1 < hbmSize) else []
    clk := d.clk
    resp := d.resp
    sent := d.sent
    free := d.free
    mgt := { Mgt.reset with
      slotA := d.mgt.slotA
      slotB := d.mgt.slotB
      slotSelect := d.mgt.slotSelect }
    sec := { Sec.reset with
      rootKey := d.sec.rootKey
      seed := []
      pub := []
      records := d.sec.records
      inForce := []
      bootUnits := []
      bootMedia := [] }
    pwr := { Pwr.reset with
      phase := phase
      faultN := phase != .clockFault
      straps := d.pwr.straps }
    med := { Med.reset with
      live := m.saved
      saved := m.saved
      nand := m.nand
      lost := m.lost || (!warm && m.dirty) } }

/-- Whether the part is held where only POR_N acts: after a trip, or in a power-on reset. -/
def Dev.heldByPor (d : Dev) : Bool := d.pwr.phase = .tripped || d.pwr.phase = .inReset 1

def execPowerOnReset (s : State) : Host.Outcome State Fault Refusal := s.act .always (fun d => d.wipe false (.inReset 1))

/-- WARM_RST_N low: with POR_N low as well, the reset is a power-on reset (R552); a clock fault holds on (R532). -/
def execWarmResetPin (s : State) : Host.Outcome State Fault Refusal :=
  s.act .always (fun d => if d.heldByPor || d.pwr.phase = .clockFault then d else d.wipe true (.inReset 2))

/-- A write to GLB_RESET. -/
def Dev.resetWrite (d : Dev) (key : Nat) : Dev := if key = 0x5752 then d.wipe true (.inReset 3) else d

def execGlbResetWrite (key : BitVec 16) (s : State) : Host.Outcome State Fault Refusal :=
  s.act .live (fun d => (d.resetWrite key.toNat).reply St.ok)

/-- A clock fault holds the part in warm reset with FAULT_N low (R532). -/
def execClockFault (s : State) : Host.Outcome State Fault Refusal :=
  s.act .always (fun d => if d.heldByPor then d else d.wipe true .clockFault)

def execClockFaultEnd (s : State) : Host.Outcome State Fault Refusal :=
  s.act .always (fun d => if d.pwr.phase = .clockFault then { d with pwr := { d.pwr with
    phase := .inReset 4
    faultN := true } } else d)

/-! ## Boot ROM (R513, R518, R519, R539) -/

/-- The copies of a TYPE in the record area whose header and length hold. -/
def Dev.copies (d : Dev) (t : Nat) : List (Nat × Bytes) :=
  (List.range 2).filterMap (fun c => (Map.find d.sec.records (2 * t + c)).bind (fun b =>
    if recFormed b && recType b == t && recSignerOk t (recSigner b) then some (c, b) else none))

/-- Of copies that are valid, the one with the higher SEQ. -/
def newest : List (Nat × Bytes) → Option (Nat × Bytes)
  | [] => none
  | x :: r =>
    match newest r with
    | none => some x
    | some y => some (if recSeq x.2 < recSeq y.2 then y else x)

/-- Whether DEVICE names this device, or any where the TYPE permits it. -/
def Dev.deviceOk (d : Dev) (b : Bytes) : Bool := recDevice b == d.keyId || (recDevice b == 0 && recAnyDevice (recType b))

/-- The key under which a copy's SIGNATURE is checked at boot. An OWNER copy was checked when it was written. -/
def Dev.bootSigned (d : Dev) (b : Bytes) : Bool :=
  if recType b = 4 then true
  else if recSigner b = 1 then recSignedBy d.sec.rootKey b
  else recSignedBy d.ownerKey b

/-- The record of TYPE `t` is selected. -/
def Dev.selectRec (d : Dev) (t : Nat) (ok : Bytes → Bool) : Dev :=
  match newest ((d.copies t).filter (fun x => d.deviceOk x.2 && d.bootSigned x.2 && ok x.2)) with
  | some (c, _) => { d with sec := { d.sec with inForce := Map.insert d.sec.inForce t c } }
  | none => d

/-- The enabled counts of a UNITS record: cores, VDE, JPG, RCX, BPE, MASK, DETOK. -/
def unitCounts (b : Bytes) : List Nat :=
  let x := recBody b
  [(8, 128, 1024), (136, 8, 32), (144, 8, 64), (152, 8, 16), (160, 8, 64), (168, 8, 32), (176, 8, 64)].map (fun (o, n, w) =>
    w - popCount w (fld x o n))

/-- R5: the least counts of a grade. -/
def gradeCounts (g : Nat) : Option (List Nat) :=
  match g with
  | 1 => some [1024, 32, 64, 16, 64, 32, 64]
  | 2 => some [960, 30, 60, 15, 60, 30, 60]
  | 3 => some [896, 28, 56, 14, 56, 28, 56]
  | _ => none

/-- Whether the counts of a UNITS record meet R5 for its GRADE. -/
def unitsOk (b : Bytes) : Bool :=
  match gradeCounts (fld (recBody b) 0 1) with
  | some least => (least.zip (unitCounts b)).all (fun x => x.1 ≤ x.2)
  | none => false

/-- The boot ROM stops at a step: it starts no firmware, drives FAULT_N low and sets CODE. -/
def Dev.bootStop (d : Dev) (code : Nat) : Dev :=
  let d := d.set R.GLB_BOOT_CODE code
  { d with pwr := { d.pwr with
    phase := .dead
    faultN := false } }

/-- Whether slot `n` may be started. -/
def Dev.slotStarts (d : Dev) (n : Nat) : Bool := (d.slotOf n).verified && d.minVersion ≤ fwVersion (d.slotOf n).bytes

/-! ## Firmware's part (R476, R540, R549) -/

/-- The EEPROM record, where it answers and its MAGIC, FORMAT and CRC hold. -/
def eepromOk (e : Option Bytes) : Option Bytes :=
  e.bind (fun b => if b.length = 256 ∧ b.take 4 = [0x47, 0x4C, 0x42, 0x44] ∧ fld b 4 2 = 1 ∧ fld b 0xFC 4 = crc32c (b.take 0xFC)
    then some b else none)

/-- Lane polarities, and those of the host link. -/
def Dev.polarities (d : Dev) (e : Option Bytes) : Dev :=
  match eepromOk e with
  | none => d
  | some b =>
    let d := (List.range 256).foldl (fun d n =>
      (d.set (R.FAB_LANE_TX_INV n) (b2n (bmBit (slice b 8 32) n))).set (R.FAB_LANE_RX_INV n) (b2n (bmBit (slice b 0x28 32) n))) d
    { d with pwr := { d.pwr with hostInv := fld b 0x48 1 % 16 } }

/-- A dump kept over a warm reset is found again. -/
def Dev.keptDump (d : Dev) : Dev :=
  let n := d.readLe (dumpBase + 0x28) 8
  if d.read dumpBase 8 ≠ [0x47, 0x4C, 0x44, 0x55, 0x4D, 0x50, 0x30, 0x31] ∨ d.readLe (dumpBase + 8) 2 ≠ 1 ∨ 0x40000000 < n ∨ n < 192 then d else
  let dig := sha512 (d.read dumpBase (n - 128))
  if d.read (dumpBase + n - 128) 64 ≠ dig then d else
  let good := edVerify d.sec.pub dig (d.read (dumpBase + n - 64) 64)
  (d.set R.LGR_DUMP_LENGTH n).set R.LGR_STATUS_DUMP (if good then 2 else 3)

/-- Firmware's boot: the unit counts and what it shows of records and slots, polarities, the kept dump; then READY. -/
def Dev.firmwareBoot (d : Dev) (slot : Nat) (fallback : Bool) (e : Option Bytes) : Dev :=
  let u := d.recOf 3
  let k := unitCounts u
  let d := { d with sec := { d.sec with
    bootUnits := u
    bootMedia := d.recOf 6 } }
  let d := (d.set R.GLB_ID_GRADE (fld (recBody u) 0 1)).set R.GLB_UNITS_THR_CORES (k.getD 0 0)
  let d := (((d.set R.GLB_UNITS_VDE (k.getD 1 0)).set R.GLB_UNITS_JPG (k.getD 2 0)).set R.GLB_UNITS_RCX (k.getD 3 0))
  let d := ((d.set R.GLB_UNITS_BPE_LANES (k.getD 4 0)).set R.GLB_UNITS_MASK_UNITS (k.getD 5 0)).set R.GLB_UNITS_DETOK (k.getD 6 0)
  let d := if d.ownerKey = [] then d
    else (d.set R.SEC_STATUS_OWNED 1).setW R.SEC_OWNER_KEY_ID (Sys2Proof.Machine.keyId d.ownerKey)
  let other := d.slotOf (1 - slot)
  let d := (d.setW (R.MGT_FW_VERSION 0) (fwVersion (d.slotOf slot).bytes)).setW (R.MGT_FW_VERSION 1)
    (if other.verified then fwVersion other.bytes else 0)
  let d := (d.set R.MGT_FW_STATUS_RUNNING_SLOT slot).set R.MGT_FW_STATUS_NEXT_SLOT (d.mgt.slotSelect % 2)
  let d := ((d.set R.GLB_BOOT_SLOT slot).set R.GLB_BOOT_FALLBACK (b2n fallback)).set R.GLB_BOOT_STAGE 7
  let d := ((d.polarities e).keptDump).set R.GLB_BOOT_READY 1
  { d with pwr := { d.pwr with phase := .running } }

/-- Steps 3 to 6 of the boot ROM. -/
def Dev.bootSelect (d : Dev) (e : Option Bytes) : Dev :=
  let d := d.set R.GLB_BOOT_STAGE 3
  let d := ((((d.selectRec 4 (fun _ => true)).selectRec 3 unitsOk).selectRec 5 (fun _ => true)).selectRec 6 (fun _ => true))
  if d.recOf 3 = [] then d.bootStop 3
  else if d.recOf 5 = [] then d.bootStop 4
  else
    let d := (d.setW R.SEC_MIN_VERSION (fld (recBody (d.recOf 5)) 0 8)).set R.GLB_BOOT_STAGE 5
    let n := d.mgt.slotSelect % 2
    if d.slotStarts n then d.firmwareBoot n false e
    else if d.slotStarts (1 - n) then ({ d with mgt := { d.mgt with slotSelect := 1 - n } }).firmwareBoot (1 - n) true e
    else d.bootStop (if d.mgt.slotA.verified || d.mgt.slotB.verified then 6 else 5)

/-- Step 2: the identity. `seed` is what SEC derives from the PUF and the HELPER record. -/
def Dev.bootIdentity (d : Dev) (seed : Option Bytes) (e : Option Bytes) : Dev :=
  let d := d.set R.GLB_BOOT_STAGE 2
  let good := fun t => ((d.copies t).filter (fun x => recSignedBy d.sec.rootKey x.2)).map (·.2)
  if good 1 = [] ∨ good 2 = [] then (d.set R.SEC_STATUS_IDENTITY 2).bootStop 2 else
  match seed with
  | none => (d.set R.SEC_STATUS_IDENTITY 2).bootStop 1
  | some x =>
    let d : Dev := { d with sec := { d.sec with
      seed := x
      pub := edPublic x } }
    let d : Dev := (List.range 4).foldl (fun d k => d.setW (R.SEC_DEVICE_KEY k) (fld d.sec.pub (8 * k) 8)) d
    let d := (d.selectRec 1 (fun _ => true)).selectRec 2 (fun _ => true)
    if d.recOf 1 = [] ∨ d.recOf 2 = [] ∨ slice (recBody (d.recOf 2)) 0 32 ≠ d.sec.pub then (d.set R.SEC_STATUS_IDENTITY 2).bootStop 1
    else (d.set R.SEC_STATUS_IDENTITY 1).bootSelect e

/-- Reset release: the straps are latched and the boot ROM runs. -/
def Dev.boot (d : Dev) (straps : Nat) (seed e : Option Bytes) : Dev :=
  match d.pwr.phase with
  | .inReset c =>
    let d := { d with pwr := { d.pwr with straps := straps } }
    ((d.set R.GLB_RESET_CAUSE_CAUSE c).set R.GLB_BOOT_STAGE 1).bootIdentity seed e
  | _ => d

def execResetRelease (straps : BitVec 7) (pufSeed : Option Bytes) (eeprom : Option Bytes) (s : State) : Host.Outcome State Fault Refusal :=
  s.act .always (fun d => d.boot straps.toNat pufSeed eeprom)

/-! ## Clocks, limits and voltage (R530 to R536) -/

/-- The loss of a SerDes reference clock: every enabled port of its octets goes to DOWN, with group 0 the host link as well. -/
def Dev.refclkLoss (d : Dev) (g : Nat) : Dev :=
  let d := (List.range 32).foldl (fun d i =>
    let p := 32 * g + i
    if d.isPort p && d.pstate p != 0 && d.pstate p != 5 then d.enterDown p else d) d
  if g = 0 then d.linkDown else d

def execSerdesRefclkLoss (g : Fin 8) (s : State) : Host.Outcome State Fault Refusal := s.act .live (fun d => (d.refclkLoss g.val).settle)

/-- A trip stops every clock outside VDD_AON until POR_N (R536). -/
def Dev.trip (d : Dev) (thermal : Bool) : Dev :=
  let d := d.set R.GLB_RESET_CAUSE_PREV (if thermal then 0x10 else 0x11)
  { d with pwr := { d.pwr with
    phase := .tripped
    thermtripN := d.pwr.thermtripN && !thermal
    faultN := d.pwr.faultN && thermal } }

/-- One sample of the junction sensors, in 1/16 °C: Tj is the highest. -/
def Dev.thermal (d : Dev) (sensors : List (BitVec 16)) : Dev :=
  match sensors with
  | [] => d
  | x :: r =>
    let tj := r.foldl (fun m s => max m s.toInt) x.toInt
    let peak := sext 16 (d.get R.GLB_THERMAL_TJ_PEAK)
    let d := (d.set R.GLB_THERMAL_TJ (wrap 16 tj)).set R.GLB_THERMAL_TJ_PEAK (wrap 16 (max tj peak))
    let c := tj / 16
    let d := { d with
      pwr := { d.pwr with cool := if tj < 1648 then d.pwr.cool + 1 else 0 }
      med := { d.med with tj := some (match d.med.tj with
        | some h => (max h.1 c, min h.2 c)
        | none => (c, c)) } }
    if 1840 ≤ tj then d.trip true else d

def execThermalSample (sensors : List (BitVec 16)) (s : State) : Host.Outcome State Fault Refusal :=
  s.act .always (fun d => if d.pwr.phase = .tripped then d else d.thermal sensors)

def execRailFault (s : State) : Host.Outcome State Fault Refusal :=
  s.act .always (fun d => if d.pwr.phase = .tripped then d else d.trip false)

/-- LEVEL_CAP and CORE_ILIMIT as they act (R541). -/
def Dev.levelCap (d : Dev) : Nat := min 16 (max 4 (d.get R.GLB_LIMITS_LEVEL_CAP))
def Dev.coreLimit (d : Dev) : Nat := min 1150 (d.get R.GLB_LIMITS_CORE_ILIMIT)

/-- The throttle level moves, every 100 µs; `amps` is the VDD_CORE current (R534). -/
def Dev.throttle (d : Dev) (amps : Nat) : Dev :=
  let calm := if 100 * amps < 95 * d.coreLimit then d.pwr.calm + 1 else 0
  let d := { d with pwr := { d.pwr with calm := calm } }
  let tj := sext 16 (d.get R.GLB_THERMAL_TJ)
  let level := d.get R.GLB_THERMAL_LEVEL
  if 1680 ≤ tj ∨ d.coreLimit ≤ amps ∨ d.levelCap < level then d.set R.GLB_THERMAL_LEVEL (max 4 (level - 1))
  else if 100 ≤ d.pwr.cool ∧ 10 ≤ calm then d.set R.GLB_THERMAL_LEVEL (min d.levelCap (level + 1))
  else d

def execThrottleUpdate (amps : Nat) (s : State) : Host.Outcome State Fault Refusal := s.act .live (fun d => d.throttle amps)

/-- The sensed die voltage 50 mV below target for 1 µs: alternate pulses are suppressed until it recovers (R530). -/
def execVoltageDroop (mv : BitVec 16) (s : State) : Host.Outcome State Fault Refusal :=
  s.act .live (fun d =>
    let d := d.set R.GLB_AVS_SENSED_MV mv.toNat
    if mv.toNat + 50 ≤ d.get R.GLB_AVS_TARGET_MV then { d with pwr := { d.pwr with droop := true } } else d)
def execVoltageDroopEnd (mv : BitVec 16) (s : State) : Host.Outcome State Fault Refusal :=
  s.act .live (fun d => { d.set R.GLB_AVS_SENSED_MV mv.toNat with pwr := { d.pwr with droop := false } })

/-- A write to GLB_AVS.OFFSET_MV: the target that the GL9 computes, a free value, moves by the bias within the command window. -/
def Dev.avsWrite (d : Dev) (v : Nat) : Dev :=
  let off := max (-25 : Int) (min 25 (sext 8 v))
  let (w, d) := d.draw
  let own : Int := 5 * (w.toNat % 65536 : Nat)
  (d.set R.GLB_AVS_OFFSET_MV v).set R.GLB_AVS_TARGET_MV (max 650 (min 800 (own + off))).toNat

/-! ## SMBus target (R550) -/

/-- The level of SMBT_ALERT_N: low on a fatal error or while throttled. -/
def Dev.alertN (d : Dev) : Bool := !(d.fatal || d.get R.GLB_THERMAL_LEVEL < 16)

/-- The register of a command code. -/
def smbusReg (c : Nat) : Option Nat :=
  match c with
  | 0 => some R.GLB_ID
  | 1 => some R.GLB_BOOT
  | 2 => some R.GLB_THERMAL
  | 3 => some R.GLB_RESET_CAUSE
  | 4 => some R.SEC_STATUS
  | 5 => some R.LGR_STATUS
  | _ => none

/-- A Block Read: 8 bytes of the register, or no acknowledgement. -/
def Dev.smbusRead (d : Dev) (c : Nat) : Dev :=
  match smbusReg c with
  | some r => d.emit (.smbus (le 8 (d.word r).toNat))
  | none => d.emit .smbusNack

def execSmbusBlockRead (c : Byte) (s : State) : Host.Outcome State Fault Refusal :=
  s.act .always (fun d => if d.pwr.phase = .running ∨ d.pwr.phase = .dead then d.smbusRead c.toNat else d)

end Sys2Proof.Machine
end

