-- ==== Sys2Proof/Machine/Tick.lean ====
section
/-! DEFINITION. Device ticks and the steep boundaries of functions (spec 01, R34 to R40; spec 03, R82 to R107). -/

namespace Sys2Proof.Machine

/-! ## What a device tick does (R35, R83, R470) -/

/-- `g` unless a fatal cause has arisen. -/
def Dev.unlessFatal (d : Dev) (g : Dev → Dev) : Dev := if d.fatal then d else g d

/-- KILLs that wait act (R106). -/
def Dev.tickKills (d : Dev) : Dev :=
  (List.range 16).foldl (fun d f => if (d.fn f).pendKill then d.unlessFatal (fun d => d.killTick f) else d) d

/-- STARTs due at tick `n` commit (R102). -/
def Dev.tickStarts (d : Dev) (n : Nat) : Dev :=
  (List.range 16).foldl (fun d f =>
    if (d.fn f).pendStart.any (fun x => x.1 ≤ n) then d.unlessFatal (fun d => d.startCommit f n) else d) d

/-- A loader request that waits for a tick commits, the function's pools checked first (R74, R470). -/
def Dev.tickLoad (d : Dev) : Dev :=
  match d.seq.pend with
  | none => d
  | some c =>
    if c.op = 3 ∧ d.fnRuns c.fn then d
    else (if c.op = 2 then d else d.checkFn c.fn).unlessFatal (fun d => d.loadCommit c)

/-- The shadow route bank is copied at its tick (R365). -/
def Dev.tickRoutes (d : Dev) (n : Nat) : Dev :=
  let t := (d.word R.FAB_ROUTE_TICK).toNat
  if d.has R.FAB_ROUTE_CTRL_PENDING && t ≤ n then d.routeCopy else d

/-- What waits for a boundary of the function is tried again: failed media reads, stalled items, the oldest held shard
(R133, R151, R307). -/
def Dev.retryAll (d : Dev) (f : Nat) : Dev :=
  let d := d.modFn f (fun r => { r with
    reads := r.reads.map (fun m => if m.failed = 1 then { m with failed := 2 } else m) })
  (d.thrBoundary f).retryHeld f

/-- Where a function's steep is past its planned end with its work incomplete, the tick stands for the boundary that the
steep waits for: what is stalled is tried again (DEDUCED, log entry 25). -/
def Dev.tickRetry (d : Dev) : Dev :=
  (List.range 16).foldl (fun d f => if d.fnRuns f && !d.workDone f && d.plannedEnd f ≤ d.ftNs then d.retryAll f else d) d

/-- Device tick `n` falls. -/
def Dev.tickFall (d : Dev) (n : Nat) : Dev :=
  let d := ((d.set R.SEQ_TICK_CTRL_RUNNING 1).set R.SEQ_TICK_CTRL_ARM 0).setW R.SEQ_TICK n
  let d := if d.get R.GLB_THERMAL_LEVEL < 16 then d.inc R.GLB_THERMAL_THROTTLE_STEEPS else d
  d.checkDev.unlessFatal (fun d =>
    d.tickKills.unlessFatal (fun d =>
      (d.tickStarts n).unlessFatal (fun d =>
        d.tickLoad.unlessFatal (fun d =>
          (((((d.tickRoutes n).colTick n).thrTick).recTick).handover).tickRetry.settle))))

/-- The number of the first tick to fall after the ticks were last armed (R83). -/
def Dev.firstTick (d : Dev) : Nat := if d.seq.armedAt ≤ d.launch then 0 else cdiv (d.seq.armedAt - d.launch) d.steepNs

/-- The next tick, where one is to fall by COUNT. -/
def Dev.nextTick (d : Dev) : Option Nat :=
  if d.ticking then some (d.tickNo + 1)
  else if d.has R.SEQ_TICK_CTRL_ARM && !d.has R.SEQ_TICK_CTRL_SRC then some d.firstTick
  else none

/-- The next tick falls where its time has come. -/
def Dev.tickDue (d : Dev) : Dev :=
  match d.nextTick with
  | some n => if d.tickAt n ≤ d.ftNs then d.tickFall n else d
  | none => d

def execDeviceTick (s : State) : Host.Outcome State Fault Refusal := s.act .engine (fun d => d.tickDue)

/-! ## Arming (R83) -/

/-- The device is armed, or counts as armed again: with SRC = 1 a local arrival at the barrier; with SRC = 0 a tick whose time is
this very instant falls now. -/
def Dev.rearm (d : Dev) : Dev :=
  let d := { d.set R.SEQ_TICK_CTRL_ARM 1 with seq := { d.seq with armedAt := d.ftNs } }
  if d.has R.SEQ_TICK_CTRL_SRC then (if d.fatal then d else d.arriveLocal (d.get R.SEQ_TICK_CTRL_BARRIER))
  else if d.fatal then d else d.tickDue

/-- A write to SEQ_TICK_CTRL: none of it has an effect while ticks fall. -/
def Dev.tickCtrl (d : Dev) (arm src : Bool) (barrier : Nat) : Dev :=
  if d.ticking then d else
  let d := (d.set R.SEQ_TICK_CTRL_SRC (b2n src)).set R.SEQ_TICK_CTRL_BARRIER barrier
  if arm || d.has R.SEQ_TICK_CTRL_ARM then d.rearm else d

/-- A write to SEQ_LAUNCH_FT. -/
def Dev.launchWrite (d : Dev) (v : Word) : Dev :=
  if d.ticking then d else
  let d := d.setWord R.SEQ_LAUNCH_FT v
  if d.has R.SEQ_TICK_CTRL_ARM then d.rearm else d

def execTickArm (src : Bool) (barrier : BitVec 8) (s : State) : Host.Outcome State Fault Refusal :=
  s.act .live (fun d => (d.tickCtrl true src barrier.toNat).reply St.ok)
def execTickRearmWrite (w : Rearm) (s : State) : Host.Outcome State Fault Refusal :=
  s.act .live (fun d => (match w with
    | .launch v => d.launchWrite v
    | .ctrl src b => d.tickCtrl false src b.toNat).reply St.ok)

/-! ## Steep boundaries (R37, R80, R92 to R107) -/

/-- The fabric time of the boundary that ends the running steep (R96). -/
def Dev.boundaryAt (d : Dev) (f : Nat) : Nat := max (d.earliestEnd f) (d.fn f).doneAt

/-- The lag registers at a boundary (R98, R100). -/
def Dev.boundaryLag (d : Dev) (f lag : Nat) : Dev :=
  let was := (d.fn f).lag
  let d := d.setW (R.SEQ_FN_LAG_MAX f) (d.lagMax f)
  if lag = 0 then (if was = 0 then d else d.raise 67 f).lagZero f
  else
    let d := (d.modFn f (fun r => { r with lag := lag })).setW (R.SEQ_FN_LAG f) lag
    (d.setW (R.SEQ_FN_LAG_MAX f) (max lag (d.word (R.SEQ_FN_LAG_MAX f)).toNat)).set (R.SEQ_FN_STATUS_CATCHUP f) 1

/-- Whether no work of the function is in flight: every admitted sample complete, every channel empty (R80, R103). -/
def Dev.drained (d : Dev) (f : Nat) : Bool :=
  (d.fn f).live.isEmpty && (d.img f).chans.all (fun c => (d.chan c).q.isEmpty) && d.thrQuiet f

/-- A pending change of function `f`, where one may commit at its boundary. -/
def Dev.changePending (d : Dev) (f : Nat) : Option LoadCommit :=
  match d.seq.pend with
  | some c => if c.op = 3 ∧ c.fn = f ∧ (d.fn f).pendKill = false then some c else none
  | none => none

/-- The function stops at a boundary: the next record is its resume record. -/
def Dev.stopAt (d : Dev) (f rec_ : Nat) (planEnd : Bool) : Dev :=
  let d := (d.setW (R.SEQ_FN_STEEP f) (d.steepNo f + 1)).set (R.SEQ_FN_RECORD_RECORD f) rec_
  let d := d.modFn f (fun r => { r with
    pendStop := false
    past := false })
  (if planEnd then d.set (R.SEQ_FN_STATUS_PLAN_END f) 1 else d).setFnState f stStopped

/-- The next steep starts; what waited for a boundary is tried again (R133, R151, R307). -/
def Dev.nextSteep (d : Dev) (f b : Nat) : Dev :=
  let d := (d.setW (R.SEQ_FN_STEEP f) (d.steepNo f + 1)).modFn f (fun r => { r with bPrev := b })
  ((d.beginSteep f).retryAll f).settle

/-- Rows 4 and 5 of R37. -/
def Dev.boundaryRequests (d : Dev) (f b : Nat) : Dev :=
  let r := d.recordNo f
  let run := d.fn f
  let last := run.past || d.steepCount f ≤ r + 1
  let quiesce := run.past || (d.record f r).2.2
  let clean := quiesce && d.drained f
  let d := if clean then d.modFn f (fun x => { x with cleanRecord := r + 1 })
    else if quiesce then d.inc (R.SEQ_FN_COUNTS_QUIESCE_MISS f) else d
  if clean && run.pendStop && !run.pendKill then (d.stopAt f (r + 1) last).fnDone f 0
  else match d.changePending f, clean with
  | some c, true => (d.loadCommit c).nextSteep f b
  | _, _ =>
    if clean && last then d.stopAt f (r + 1) true
    else if last then (d.modFn f (fun x => { x with past := true })).nextSteep f b
    else (d.set (R.SEQ_FN_RECORD_RECORD f) (r + 1)).nextSteep f b

/-- A function's steep boundary, once its time has come and its work is complete. -/
def Dev.boundary (d : Dev) (f : Nat) : Dev :=
  let b := d.boundaryAt f
  if !(d.fnRuns f && d.workDone f && b ≤ d.ftNs) || d.get R.MGT_FW_STATUS_STATE = 3 then d else
  (d.checkAll f).unlessFatal (fun d =>
    let d := d.boundaryLag f (b - d.plannedEnd f)
    let d := if (d.fn f).staged.any (fun m => m.steep ≤ d.steepNo f + 1) then d.membership f else d
    d.boundaryRequests f b)

def execSteepBoundary (f : FnId) (s : State) : Host.Outcome State Fault Refusal := s.act .engine (fun d => d.boundary f.val)

/-- OVERRUN: once for each steep whose work is incomplete at its end (R100). -/
def Dev.overran (d : Dev) (f : Nat) : Dev :=
  if d.fnRuns f && !d.workDone f && !(d.fn f).overCounted && d.earliestEnd f ≤ d.ftNs then
    ((d.modFn f (fun r => { r with overCounted := true })).inc (R.SEQ_FN_COUNTS_OVERRUNS f)).raise 66 f
  else d

def execOverrun (f : FnId) (s : State) : Host.Outcome State Fault Refusal := s.act .engine (fun d => d.overran f.val)

/-- SCHEDULE_LOST: the current lag has passed LAG_CEIL steeps (R98). -/
def Dev.schedLost (d : Dev) (f : Nat) : Dev :=
  if d.fnRuns f && !d.has (R.SEQ_FN_STATUS_SCHED_LOST f) && d.lagCeil f * d.steepNs < d.currentLag f then
    ((d.set (R.SEQ_FN_STATUS_SCHED_LOST f) 1).inc (R.SEQ_FN_COUNTS_SCHED_LOST f)).report f 1 St.scheduleLost 0
  else d

def execScheduleLost (f : FnId) (s : State) : Host.Outcome State Fault Refusal := s.act .engine (fun d => d.schedLost f.val)

end Sys2Proof.Machine
end

