-- ==== Sys2Proof/Machine/TimCmd.lean ====
section
/-! DEFINITION. The commands of fabric time and barriers (spec 17, R441 to R456). -/

namespace Sys2Proof.Machine

/-! ## Calibration (R446 to R449) -/

/-- TIME_EXCHANGE_SEND: a port that is UP sends SYNC and DELAY_REQ every 125 µs. T_A is written as each leaves. -/
def Dev.exchangeOut (d : Dev) (p : Nat) : Dev :=
  if !(d.gfUp p && d.expired (.exchange p)) then d else
  let d := d.arm (.exchange p) (us 125)
  if !d.timOn then d else
  let dom := d.get R.TIM_CTRL_DOMAIN
  (d.sendTime p (ctlPayload 1 (b2n (d.has R.TIM_STATUS_ACCURATE)) dom 0 0 0 0)).sendTime p (ctlPayload 2 0 dom 0 0 0 0)

def execTimeExchangeSend (p : PortId) (s : State) : Host.Outcome State Fault Refusal := s.act .engine (fun d => d.exchangeOut p.val)

/-- The message of KIND `kind` at the head of the inbox, handled. -/
def Dev.timMsg (d : Dev) (kind : Nat) (g : Dev → RxPkt → Dev) : Dev :=
  match d.takeTim kind with
  | (some m, d) => g d m
  | (none, d) => d

def execSync (s : State) : Host.Outcome State Fault Refusal := s.act .engine (fun d => d.timMsg 1 Dev.onSync)
def execDelayReq (s : State) : Host.Outcome State Fault Refusal := s.act .engine (fun d => d.timMsg 2 Dev.onDelayReq)
def execDelayResp (s : State) : Host.Outcome State Fault Refusal := s.act .engine (fun d => d.timMsg 3 Dev.onDelayResp)

/-- SYNC_LOSS_TIMEOUT: 1 ms without a SYNC from upstream. -/
def Dev.syncLost (d : Dev) : Dev := if d.expired .syncLoss then ((d.disarm .syncLoss).holdover).judgeAccurate else d

def execSyncLossTimeout (s : State) : Host.Outcome State Fault Refusal := s.act .live (fun d => d.syncLost)

/-- ACCURATE_CLEAR: 1 ms after entry to HOLDOVER. -/
def Dev.accurateOut (d : Dev) : Dev := if d.expired .accurate then (d.disarm .accurate).set R.TIM_STATUS_ACCURATE 0 else d

def execAccurateClear (s : State) : Host.Outcome State Fault Refusal := s.act .live (fun d => d.accurateOut)

/-- A write to TIM_FT_SET: the root's FT steps while ticks do not fall. -/
def Dev.ftSet (d : Dev) (v : Nat) : Dev :=
  if d.has R.TIM_CTRL_ROOT && !d.ticking then d.stepFt (v * 65536) else d

def execFtSet (ns : Word) (s : State) : Host.Outcome State Fault Refusal := s.act .live (fun d => (d.ftSet ns.toNat).reply St.ok)

/-- A read of TIM_FT_NS: integer ns, and the fraction latched (R442). -/
def Dev.ftNsRead (d : Dev) : Dev := (d.set R.TIM_FT_FRAC_FRAC (d.tim.ft.toNat % 65536)).reply St.ok (BitVec.ofNat 64 d.ftNs)

def execFtNsRead (s : State) : Host.Outcome State Fault Refusal := s.act .live (fun d => d.ftNsRead)
def execTimCtrlWrite (v : Word) (s : State) : Host.Outcome State Fault Refusal := s.act .live (fun d => (d.timCtrl v).reply St.ok)

/-- How far FT lies from the nearest instant congruent to OFFSET_NS modulo 1 s, in ns. -/
def Dev.ppsError (d : Dev) : Int :=
  let e := (d.ftNs + 1000000000 - d.get R.TIM_PPS_OFFSET_NS % 1000000000) % 1000000000
  if e < 500000000 then (e : Int) else (e : Int) - 1000000000

/-- A rising edge of 1PPS: captured, unless less than 900 ms after the last captured one; it steers the root (R451, R553). -/
def Dev.ppsEdge (d : Dev) : Dev :=
  if d.tim.ppsAt.any (fun t => d.clk < t + ms 900) then d else
  let d := { d with tim := { d.tim with ppsAt := some d.clk } }.setW R.TIM_PPS_CAPTURE d.ftNs
  if d.timOn && d.has R.TIM_CTRL_ROOT && d.has R.TIM_PPS_ENABLE then
    { d with tim := { d.tim with rate := clampRate 1 (Config.ppsRate d.tim.rate d.ppsError) } }
  else d

def execPpsEdge (s : State) : Host.Outcome State Fault Refusal := s.act .live (fun d => d.ppsEdge)

/-! ## Barriers (R452 to R456) -/

def execArrive (b : PortId) (s : State) : Host.Outcome State Fault Refusal := s.act .live (fun d => (d.arriveLocal b.val).reply St.ok)
def execBarArrive (s : State) : Host.Outcome State Fault Refusal := s.act .engine (fun d => d.timMsg 0x10 Dev.onBarArrive)

/-- Barrier `b` releases: tick 0 falls in that cycle where an ARM waits on it, and COUNT becomes R_FT (R454). -/
def Dev.release (d : Dev) (b : Nat) : Dev :=
  let rft := (d.bar b).rft
  let waits := d.has R.SEQ_TICK_CTRL_ARM && !d.ticking && d.has R.SEQ_TICK_CTRL_SRC && d.get R.SEQ_TICK_CTRL_BARRIER == b
  let d := d.barReleased b
  if waits then (d.setW R.SEQ_LAUNCH_FT rft).unlessFatal (fun d => d.tickFall 0) else d

/-- A received BAR_RELEASE; one that comes too late releases at once (R453, R455). -/
def Dev.barReleaseIn (d : Dev) (m : RxPkt) : Dev :=
  let (late, d) := d.onBarRelease m
  if late then d.release (fld m.payload 4 1) else d

def execBarRelease (s : State) : Host.Outcome State Fault Refusal := s.act .engine (fun d => d.timMsg 0x11 Dev.barReleaseIn)

/-- BARRIER_RELEASE: the countdown has reached 0. -/
def Dev.countdownEnd (d : Dev) (b : Nat) : Dev := if (d.bar b).countdown.any (fun c => c ≤ 0) then d.release b else d

def execBarrierRelease (b : PortId) (s : State) : Host.Outcome State Fault Refusal := s.act .live (fun d => d.countdownEnd b.val)
def execCancel (b : PortId) (s : State) : Host.Outcome State Fault Refusal := s.act .live (fun d => (d.barClear b.val).reply St.ok)

end Sys2Proof.Machine
end

