-- ==== Sys2Proof/Machine/Ctl.lean ====
section
/-! DEFINITION. Control space: the register file as software reads and writes it (R11 to R14, R23, R375). -/

namespace Sys2Proof.Machine

/-- Whether the registers of a row are implemented for index `i` (R224, R251, R270, R318, R375, R417, R466, R488). -/
def Dev.implemented (d : Dev) (c : Cond) (i : Nat) : Bool :=
  match c with
  | .always => true
  | .rcx => i < d.get R.GLB_UNITS_RCX
  | .vde => i < d.get R.GLB_UNITS_VDE
  | .jpg => i < d.get R.GLB_UNITS_JPG
  | .bpe => i < d.get R.GLB_UNITS_BPE_LANES
  | .mask => i < d.get R.GLB_UNITS_MASK_UNITS
  | .detok => i < d.get R.GLB_UNITS_DETOK
  | .thrCore => i < d.get R.GLB_UNITS_THR_CORES
  | .port => d.isPort i
  | .gfPort => d.isGf i

/-! ## Reads -/

/-- A value whose fields stand elsewhere in the state: what a read returns in place of the word held. -/
def Dev.view (d : Dev) (block base i j : Nat) (w : Word) : Word :=
  match block, base with
  | 1, 0x2030 => BitVec.ofNat 64 (d.currentLag i)
  | 1, 0x2038 => BitVec.ofNat 64 (d.lagMax i)
  | 10, 0x10010 =>
    let c := if d.has (R.TSH_Q_CFG_SHAPED i j) then d.qCredit i j else 0
    setBits (setBits w 63 16 c) 0 0 (b2n !(Map.get [] (d.link i).queues j).isEmpty)
  | 12, 0 => BitVec.ofNat 64 d.ftNs
  | 13, 0x10 => setBits w 10 0 (d.left .lease / ms 1)
  | 14, 0x1000 => setBits w 23 16 (d.current i)
  | 14, 0x1008 =>
    match d.claim i with
    | some s => BitVec.ofNat 64 (2 ^ 63 + s)
    | none => 0
  | 14, 0x10000 => setBits w 0 0 (b2n (d.irq.pend.contains i))
  | 14, 0x10008 =>
    let q := d.irq
    let tgt := ((q.service.find? (fun e => e.1 = i)).map (·.2)).getD 0
    BitVec.ofNat 64 (Map.get 0 q.inst i * 2 ^ 48 + Map.get 0 q.count i * 2 ^ 40 + tgt * 2 ^ 16 + 8 * b2n (q.hostService.contains i)
      + 4 * b2n (q.hostPend.contains i) + 2 * b2n (q.inService i) + b2n (q.sig.contains i))
  | 15, 0 => setBits w 47 32 (if d.hostPathUp then 0 else d.irq.hostPend.length)
  | _, _ => w

/-- A read of an 8-byte register; TIM_FT_NS latches its fraction (R442). -/
def Dev.ctlRead (d : Dev) (off : Nat) : Word × Dev :=
  match regAt off with
  | none => (0, d)
  | some (r, i, j) =>
    if !d.implemented r.cond i then (0, d) else
    let d := if off = R.TIM_FT_NS then d.set R.TIM_FT_FRAC_FRAC (d.tim.ft.toNat % 65536) else d
    (d.view (off / 0x1000000) r.base i j (d.word off), d)

/-! ## Writes -/

/-- The fields of a register updated by their access types. -/
def Dev.plainWrite (d : Dev) (off : Nat) (fields : List FSpec) (v : Word) : Dev :=
  d.setWord off (fields.foldl (fun w f =>
    let x := getBits v f.hi f.lo
    match f.acc with
    | .rw => setBits w f.hi f.lo x
    | .w1c => setBits w f.hi f.lo (getBits w f.hi f.lo - (getBits w f.hi f.lo &&& x))
    | .w1s => setBits w f.hi f.lo (getBits w f.hi f.lo ||| x)
    | _ => w) (d.word off))

/-- SEQ_FN_CTRL_n: KILL goes before GO (R101). -/
def Dev.fnCtrl (d : Dev) (f : Nat) (v : Word) : Dev :=
  let cmd := getBits v 1 0
  let d := d.set (R.SEQ_FN_CTRL_CMD f) cmd
  if v.getLsbD 9 then (if d.fatal then d.fnDone f St.deviceFatal else d.killWrite f)
  else if !v.getLsbD 8 then d
  else match cmd with
  | 1 => (d.startFn f (d.word (R.SEQ_FN_START_AT f)).toNat (d.has (R.SEQ_FN_FROM_USE f)) (d.get (R.SEQ_FN_FROM_RECORD f))).2
  | 2 => d.stopFn f
  | _ => d.fnDone f (if d.fatal then St.deviceFatal else St.opInvalid)

/-- SEQ_IMG_CTRL: ABORT goes before GO (R75, R79). -/
def Dev.imgCtrl (d : Dev) (v : Word) : Dev :=
  let d := if v.getLsbD 9 then d.loadAbort else d
  if v.getLsbD 8 then d.loadWrite (getBits v 2 0) (getBits v 7 4)
  else (d.set R.SEQ_IMG_CTRL_OP (getBits v 2 0)).set R.SEQ_IMG_CTRL_FUNCTION (getBits v 7 4)

/-- THR_CORE_c: a withdrawal or a restore waits for a device tick (R302). -/
def Dev.coreCtrl (d : Dev) (c : Nat) (v : Word) : Dev :=
  if d.fatal then d else
  let ask := fun (d : Dev) (out : Bool) => d.modThr (fun t => { t with reqs := t.reqs ++ [(c, out)] })
  let d := if v.getLsbD 0 then ask d true else d
  if v.getLsbD 1 then ask d false else d

/-- Whether a port of octet `g` is enabled. -/
def Dev.octetOn (d : Dev) (g : Nat) : Bool := (List.range 8).any (fun k => d.isPort (8 * g + k) && d.pstate (8 * g + k) != 0)

/-- INT_SRC_CTRL_s: reserved SENSE values leave it unchanged; PEND written 1 makes the source pending (R493, R498). -/
def Dev.srcCtrl (d : Dev) (off s : Nat) (fields : List FSpec) (v : Word) : Dev :=
  let v := if 5 ≤ getBits v 10 8 then setBits v 10 8 (d.sense s) else v
  let d := d.plainWrite off (fields.filter (fun f => f.acc = .rw)) v
  if v.getLsbD 0 then d.setPending s else d

/-- A write to the register of row `base`, indices `i` and `j`, where the write does more than update fields, or is held back by a
condition of its own. -/
def Dev.ctlEffect (d : Dev) (block base i j off : Nat) (fields : List FSpec) (v : Word) : Dev :=
  let plain := d.plainWrite off fields v
  match block, base with
  | 0, 0x20 => d.resetWrite (getBits v 15 0)
  | 0, 0x48 => d.avsWrite (getBits v 7 0)
  | 1, 0x8 => d.launchWrite v
  | 1, 0x10 => d.tickCtrl (v.getLsbD 0) (v.getLsbD 2) (getBits v 15 8)
  | 1, 0x1010 => d.imgCtrl v
  | 1, 0x2000 => d.fnCtrl i v
  | 1, 0x2078 =>
    if v.getLsbD 32 then
      (plain.stageMemb i (d.get (R.SEQ_FN_MEMB_EPOCH_EPOCH i)) (d.word (R.SEQ_FN_MEMB_STEEP i)).toNat
        (4096 * d.get (R.SEQ_FN_MEMB_TABLE_ADDR i)) (getBits v 15 0)).2
    else plain
  | 2, 0x18 => d.floorWrite (getBits v 31 0)
  | 7, 0x10000 => d.coreCtrl i v
  | 8, 0x0 => d.nodeWrite v
  | 8, 0x8 => if v.getLsbD 8 then plain.routeGo else plain
  | 8, 0x100 => if d.octetOn i then d else plain
  | 8, 0x10000 => d.portEnable i v
  | 8, 0x100000 => if d.has R.FAB_ROUTE_CTRL_PENDING then d else plain
  | 8, 0x120000 => d.fence i (v.getLsbD 63) (getBits v 31 0)
  | 9, 0x0 => if v.getLsbD 20 then plain.qpGo (getBits v 29 28) (getBits v 19 0) else plain
  | 9, 0x110 => if v.getLsbD 47 then plain.winGo (getBits v 46 45) (getBits v 15 0) (getBits v 27 16) (getBits v 44 42) else plain
  | 9, 0x200 => d.tcWrite i v
  | 9, 0x200000 => d.pdWrite i v
  | 9, 0x800000 => d.peerWrite i j v
  | 10, 0x10000 => if d.pstate i = 0 then plain else d
  | 10, 0x10008 => if d.pstate i = 0 then plain else d
  | 10, 0x90000 => if v.getLsbD 19 then plain.gateGo i (getBits v 8 0) else plain
  | 11, 0x0 => if v.getLsbD 23 then plain.colGo (getBits v 17 16) (getBits v 11 0) else plain
  | 12, 0x10 => d.timCtrl v
  | 12, 0x20 => d.ftSet v.toNat
  | 12, 0x2000 => if d.get (R.TIM_BAR_STATUS_COUNT i) ≠ 0 ∨ (d.bar i).countdown.isSome then d else plain
  | 12, 0x2008 =>
    let d := if v.getLsbD 0 then d.arriveLocal i else d
    if v.getLsbD 1 then d.barClear i else d
  | 13, 0x28 => if v.getLsbD 0 then d.dumpRelease else d
  | 14, 0x1010 => d.eoi i (getBits v 9 0)
  | 14, 0x10000 => d.srcCtrl off i fields v
  | 15, 0x8 => d.relayTable v
  | 15, 0x30 => if v.getLsbD 8 then d.fwGo (getBits v 1 0) (getBits v 63 32) else plain
  | 15, 0x48 => d.hostEoi (getBits v 9 0)
  | 16, 0x48 => if v.getLsbD 8 then d.recordWrite (getBits v 63 32) else plain
  | 16, 0x70 => if v.getLsbD 8 then plain.quoteRequest else plain
  | 18, 0x30 => if v.getLsbD 0 then d.stcGo i else d
  | 18, 0x8000 => if v.getLsbD 8 then d.powerRequest (getBits v 1 0) else plain
  | _, _ => plain

/-- A write of an 8-byte register. -/
def Dev.ctlWrite (d : Dev) (off : Nat) (v : Word) : Dev :=
  match regAt off with
  | none => d
  | some (r, i, j) => if d.implemented r.cond i then d.ctlEffect (off / 0x1000000) r.base i j off r.fields v else d

/-- The status of an access of `size` bytes at control-space offset `off` (R14, R23). -/
def ctlStatus (off size : Nat) : Status :=
  if 0x100000000 ≤ off then St.addressUnmapped else if size ≠ 8 ∨ off % 8 ≠ 0 then St.accessSize else 0

def execRegisterWrite (off size : Nat) (v : Word) (s : State) : Host.Outcome State Fault Refusal :=
  s.act .live (fun d =>
    let st := ctlStatus off size
    if st ≠ 0 then d.reply st else (d.ctlWrite off v).reply St.ok)

end Sys2Proof.Machine
end

