-- ==== Sys2Proof/Machine/Host.lean ====
section
/-! DEFINITION. Transactions of the host link (spec 19, R499 to R504, R510) and the end of a live update (R507, R508). -/

namespace Sys2Proof.Machine

/-! ## The host register window (R503) -/

/-- The control-space offset behind window offset `o`, where the window lists one. -/
def Dev.hrwTarget (d : Dev) (o : Nat) : Option Nat :=
  if o = 0 then some R.GLB_ID
  else if o = 8 then some (R.MGT_FW_VERSION 0)
  else if o = 0x10 then some R.MGT_HOST_VERSION
  else if o = 0x18 then some R.MGT_HRW_APERTURE
  else if o = 0x20 then some R.MGT_HOST
  else if 0x1000 ≤ o ∧ o < 0x1040 then some (R.STC_TASK_GO ((o - 0x1000) / 8))
  else if o = 0x1040 then some R.MGT_HOST_EOI
  else if 0x8000 ≤ o ∧ o < 0x10000 then some (d.get R.MGT_HRW_APERTURE_BASE * 0x8000 + (o - 0x8000))
  else none

/-- Whether a write at window offset `o` is a direct doorbell, which firmware does not emulate. -/
def Dev.doorbell (d : Dev) (o : Nat) : Bool :=
  (0x1000 ≤ o && o ≤ 0x1040) || (match d.hrwTarget o with
    | some c => (List.range 8).any (fun t => c == R.STC_TASK_GO t)
    | none => false)

/-- The status of a window access at `o`. -/
def hrwStatus (o : Nat) : Status := if 0x10000 ≤ o then St.addressUnmapped else if o % 8 ≠ 0 then St.accessSize else 0

/-! ## One request (R500) -/

/-- The checks of LENGTH, none where they pass; `reg` says that 8 is the length asked for. No rule gives the status of a length
that is not a multiple of 8: it is free. -/
def Dev.txnLength (d : Dev) (n : Nat) (reg : Bool) : Option Status × Dev :=
  match lenCheck 32 n 4096 with
  | some st => (some st, d)
  | none =>
    if n = 0 then (none, d)
    else if reg then (if n = 8 then none else some St.accessSize, d)
    else if n % 8 = 0 then (none, d)
    else
      let (st, d) := d.drawStatus
      (some st, d)

/-- The address checks of a MEM request. -/
def Dev.memStatus (d : Dev) (a n : Nat) : Status :=
  match hbmRange a n with
  | some st => st
  | none => if d.inRegion a n then St.domainMismatch else 0

/-- Step 4 for a request of KIND `kind` whose LENGTH has passed. -/
def Dev.txnRun (d : Dev) (t : Txn) (kind : Nat) : Dev :=
  let a := t.addr.toNat
  let n := t.len.toNat
  match kind with
  | 1 =>
    let st := hrwStatus a
    if st ≠ 0 then d.complete t st [] else
    let (w, d) : Word × Dev := match d.hrwTarget a with
      | some c => d.ctlRead c
      | none => (0, d)
    d.complete t 0 (le 8 w.toNat)
  | 2 =>
    let st := hrwStatus a
    if st ≠ 0 then d.complete t st [] else
    (match d.hrwTarget a with
      | some c => d.ctlWrite c (BitVec.ofNat 64 (fld t.payload 0 8))
      | none => d).complete t 0 []
  | 3 => let st := d.memStatus a n; d.complete t st (if st = 0 then d.read a n else [])
  | 4 => let st := d.memStatus a n; (if st = 0 then d.write a (slice t.payload 0 n) else d).complete t st []
  | _ =>
    if d.get R.LGR_DUMP_LENGTH < a + n then d.complete t St.lengthExceedsBuffer []
    else d.complete t 0 (d.read (dumpBase + a) n)

/-- A RECORD: the recovery record is taken, and its reply is the COMPLETION; a bad signature completes at once (R510). -/
def Dev.txnRecord (d : Dev) (t : Txn) (src : HostSrc) : Dev :=
  let b := slice t.payload 0 t.len.toNat
  if !d.recSigned b then d.complete t St.signatureInvalid []
  else { d with mgt := { d.mgt with completions := d.mgt.completions ++ [t] } }.recTake (b.take (b.length - 64)) (.host t src)

/-- One request, its checks in the order of R500. -/
def Dev.hostRun (d : Dev) (t : Txn) (src : HostSrc) : Dev :=
  let k := t.kind.toNat
  let n := t.len.toNat
  if k = 0 ∨ 6 < k ∨ t.rsv = true ∨ 64 ≤ t.index.toNat then d.complete t St.opInvalid [] else
  match (if k = 6 then (lenCheck 32 n 4096, d) else d.txnLength n (k ≤ 2)) with
  | (some st, d) => d.complete t st []
  | (none, d) =>
    if n = 0 then d.complete t 0 []
    else if k = 6 then d.txnRecord t src
    else d.txnRun t k

/-- Whether a request is one that a handover holds: an emulated window access or a recovery record (R507). -/
def Dev.heldKind (d : Dev) (t : Txn) : Bool :=
  let k := t.kind.toNat
  k == 1 || k == 6 || (k == 2 && !d.doorbell t.addr.toNat)

/-- A request for this device: carried out in arrival order, or held in a handover with all that follow it. -/
def Dev.hostTake (d : Dev) (t : Txn) (src : HostSrc) : Dev :=
  if d.get R.MGT_FW_STATUS_STATE = 3 ∧ (d.heldKind t = true ∨ d.mgt.heldReqs ≠ []) then
    { d with mgt := { d.mgt with heldReqs := d.mgt.heldReqs ++ [(src, t)] } }
  else d.hostRun t src

/-- The slot of a relayed INDEX, where it is usable: the fabric port (R502). -/
def Dev.relayTo (d : Dev) (index : Nat) : Option Nat :=
  let own := d.get R.MGT_HOST_INDEX
  if own % 8 ≠ 0 ∨ index / 8 ≠ own / 8 ∨ index % 8 = 0 then none else
  let w := (d.word R.MGT_RELAY_TABLE).toNat
  let i := index % 8 - 1
  let p := bits w (8 * i + 7) (8 * i)
  if w.testBit (56 + i) && d.gfUp p then some p else none

/-- A request at the host link or at the head of the relay inbox, where its KIND is one that `want` accepts. -/
def Dev.hostIn (d : Dev) (h : HostSrc) (want : Txn → Bool) : Dev :=
  match h with
  | .link t =>
    if !d.mgt.hostUp || !want t then d else
    let x := t.index.toNat % 64
    if x = d.get R.MGT_HOST_INDEX then d.hostTake t h
    else match d.relayTo x with
      | some p => d.sendRelay p t
      | none => d.complete t St.addressUnmapped []
  | .relay =>
    match d.fab.relayRx with
    | [] => d
    | (p, t) :: r =>
      if t.kind = 9 ∨ !want t then d else
      let d := { d with fab := { d.fab with relayRx := r } }
      if d.mgt.hostUp ∨ d.mgt.relayPort ≠ some p then d else
      d.hostTake t h

/-- Whether a transaction is a request of KIND `k` with its reserved bytes 0. -/
def isReq (k : Nat) (t : Txn) : Bool := t.kind.toNat == k && !t.rsv && t.index.toNat < 64

def execRegRead (h : HostSrc) (s : State) : Host.Outcome State Fault Refusal := s.act .live (fun d => (d.hostIn h (isReq 1)).settle)
def execRegWrite (h : HostSrc) (s : State) : Host.Outcome State Fault Refusal := s.act .live (fun d => (d.hostIn h (isReq 2)).settle)
def execMemRead (h : HostSrc) (s : State) : Host.Outcome State Fault Refusal := s.act .live (fun d => (d.hostIn h (isReq 3)).settle)
def execMemWrite (h : HostSrc) (s : State) : Host.Outcome State Fault Refusal := s.act .live (fun d => (d.hostIn h (isReq 4)).settle)
def execDumpRead (h : HostSrc) (s : State) : Host.Outcome State Fault Refusal := s.act .live (fun d => (d.hostIn h (isReq 5)).settle)
def execRecord (h : HostSrc) (s : State) : Host.Outcome State Fault Refusal := s.act .live (fun d => (d.hostIn h (isReq 6)).settle)
def execHostOpInvalid (h : HostSrc) (s : State) : Host.Outcome State Fault Refusal :=
  s.act .live (fun d => (d.hostIn h (fun t => !((List.range 7).any (fun k => k != 0 && isReq k t)))).settle)

/-! ## The end of a handover (R507, R508) -/

/-- HANDOVER ends: the new image runs, and what was held is taken in order. An invalid handover record is fatal, and the requests it
carried are gone. -/
def Dev.handoverEnd (d : Dev) (ok : Bool) : Dev :=
  if d.get R.MGT_FW_STATUS_STATE ≠ 3 then d else
  let nets := d.mgt.heldNet
  let reqs := d.mgt.heldReqs
  let d := { d with mgt := { d.mgt with
    heldNet := []
    heldReqs := [] } }
  if !ok then
    let d := { d with mgt := { d.mgt with fw := none } }
    (d.set R.MGT_FW_STATUS_STATE 0).goFatal St.firmwareAssert
  else
    let d := (d.swapSlots).fwEnd 0
    let d := nets.foldl (fun d e => d.recNet e.1 e.2) d
    reqs.foldl (fun d e => d.hostTake e.2 e.1) d

def execHandoverComplete (recordValid : Bool) (s : State) : Host.Outcome State Fault Refusal :=
  s.act .live (fun d => (d.handoverEnd recordValid).settle)

end Sys2Proof.Machine
end

