-- ==== Sys2Proof/Machine/Dump.lean ====
section
/-! DEFINITION. The dump after a fatal cause (spec 18, R475 to R478). -/

namespace Sys2Proof.Machine

/-! ## The device as it was latched -/

/-- The device with what was latched in the cycle of the fatal cause put back. -/
def Dev.latched (d : Dev) (l : Latch) : Dev :=
  { d with
    regs := l.regs
    clk := l.clk
    timers := l.timers
    irq := l.irq
    tim := l.tim
    fab := l.fab
    lgr := { d.lgr with ports := l.ports } }

/-! ## REGISTERS -/

/-- The blocks of control space (R23). -/
def dumpBlocks : List Nat := [0, 1, 2, 3, 4, 5, 6, 7, 8, 9, 10, 11, 12, 13, 14, 15, 16, 18]

/-- Every implemented register of a block, with its row's offset and indices, in ascending offset; SEC_DEVICE_KEY_k is left out. -/
def Dev.blockRegs (d : Dev) (b : Nat) : List (Nat × Nat × Nat × Nat) :=
  let all := (regTable b).flatMap (fun r => (List.range r.n1).flatMap (fun i =>
    if !d.implemented r.cond i then [] else
    (List.range r.n2).map (fun j => (b * 0x1000000 + r.base + i * r.s1 + j * r.s2, r.base, i, j))))
  (all.filter (fun x => !((List.range 4).any (fun k => R.SEC_DEVICE_KEY k == x.1)))).mergeSort (fun x y => x.1 ≤ y.1)

/-- Whether a register shows its state at capture: the port registers of FAB, and TIM. -/
def atCapture (off : Nat) : Bool :=
  off / 0x1000000 = 12 || (List.range 256).any (fun p => off == R.FAB_PORT_STATE p)

/-- The value of the REGISTERS section; `c` is the device at capture and `f` the device as latched. -/
def dumpRegs (c f : Dev) : Bytes :=
  dumpBlocks.flatMap (fun b => (f.blockRegs b).flatMap (fun x =>
    let d := if atCapture x.1 then c else f
    le 8 (ctlBase + x.1) ++ le 8 (d.view b x.2.1 x.2.2.1 x.2.2.2 (d.word x.1)).toNat))

/-! ## LEDGER -/

/-- One record of the LEDGER section. -/
def poolRec (k port fn kind : Nat) (ok : Bool) (size issued retired held : Nat) : Bytes :=
  le 2 k ++ le 2 port ++ le 1 fn ++ le 1 kind ++ le 2 (b2n !ok) ++ le 8 size ++ le 8 issued ++ le 8 retired ++ le 8 held

/-- The record of a pool kept in the registers. -/
def Dev.poolRecOf (d : Dev) (kind f fn : Nat) : Bytes :=
  let k := poolNo kind f
  poolRec k 0xFFFF fn kind (d.poolOk kind f) ((d.poolSize kind f).getD 0) (d.word (R.LGR_POOL_ISSUED k)).toNat
    (d.word (R.LGR_POOL_RETIRED k)).toNat (d.held kind f)

/-- The record of a port pool of port `p`; the size of link receive units is the sum over the virtual lanes. -/
def Dev.portRecOf (d : Dev) (kind p : Nat) : Bytes :=
  let w := (d.link p).width
  let size := if kind = 0x12 then (List.range 8).foldl (fun n v => n + d.fab.allotOf w v) 0 else 1024 * w
  poolRec (poolNo kind 0) p 0xFF kind (d.portOk kind p) size (d.portCount kind p 0) (d.portCount kind p 1) (d.portHeld kind p)

/-- The value of the LEDGER section, in ascending K and then PORT. -/
def Dev.dumpLedger (d : Dev) : Bytes :=
  fnPools.flatMap (fun k => (List.range 16).flatMap (fun f => d.poolRecOf k f f))
    ++ devPools.flatMap (fun k => if k = 0x12 ∨ k = 0x13 then d.fab.links.flatMap (fun e => if d.isGf e.1 then d.portRecOf k e.1 else [])
        else d.poolRecOf k 0 0xFF)

/-! ## QUEUES -/

/-- The objects of the QUEUES section with their counts: kind, index, COUNT. An output queue's index is 32 × port + queue. -/
def Dev.dumpObjects (d : Dev) : List (Nat × Nat × Nat) :=
  d.loadedFns.flatMap (fun e => e.2.chans.map (fun c => (1, c.no, (d.chan c).q.length)))
    ++ d.thr.qs.map (fun e => (2, e.1, e.2.items.length))
    ++ d.fab.links.flatMap (fun e => e.2.queues.map (fun q => (3, 32 * e.1 + q.1, q.2.length)))
    ++ (d.xpt.qps.filter (fun e => !e.2.reqs.isEmpty)).map (fun e => (4, e.1, e.2.reqs.length))
    ++ [(5, 0, d.xpt.miss.length), (6, 0, d.sec.signQ.length)]

/-- The value of the QUEUES section. No rule says what HEAD and TAIL count: they are free. -/
def Dev.dumpQueues (d : Dev) (free : Nat) : Bytes :=
  (d.dumpObjects.zipIdx).flatMap (fun x =>
    le 4 (x.1.1 * 2 ^ 24 + x.1.2.1) ++ le 8 (Config.freeWord (free + 2 * x.2)).toNat ++ le 8 (Config.freeWord (free + 2 * x.2 + 1)).toNat
      ++ le 8 x.1.2.2 ++ le 4 0)

/-! ## TRACE and ERRORS -/

/-- The value of the TRACE section, oldest first (R478). -/
def Dev.dumpTrace (d : Dev) : Bytes :=
  d.lgr.trace.reverse.flatMap (fun e =>
    le 8 e.ft.toNat ++ [e.kind, e.fn, e.block, 0] ++ le 2 e.status.toNat ++ le 2 0 ++ le 8 e.arg0.toNat ++ le 8 e.arg1.toNat)

/-- The value of the ERRORS section. -/
def Dev.dumpErrors (d : Dev) : Bytes :=
  d.lgr.errors.flatMap (fun e => le 8 e.addr ++ le 2 e.status.toNat ++ le 1 e.block ++ List.replicate 5 0)

/-! ## The whole dump -/

/-- One section. -/
def dumpSection (type : Nat) (bad : Bool) (v : Bytes) : Bytes := le 2 type ++ le 2 (b2n bad) ++ le 4 v.length ++ padTo 8 v

/-- The dump's header. -/
def Dev.dumpHeader (f : Dev) (length : Nat) (incomplete : Bool) : Bytes :=
  [0x47, 0x4C, 0x44, 0x55, 0x4D, 0x50, 0x30, 0x31] ++ le 2 1 ++ le 2 (f.get R.LGR_STATUS_CAUSE) ++ le 2 f.node
    ++ le 2 (256 * f.get R.GLB_ID_STEP_MAJOR + f.get R.GLB_ID_STEP_MINOR) ++ le 8 f.ftNs ++ le 8 f.tickNo
    ++ le 8 (f.word (R.MGT_FW_VERSION 0)).toNat ++ le 8 length ++ le 4 5 ++ le 4 (b2n incomplete) ++ le 8 f.keyId

/-- Every byte of the dump before DIGEST; `bad` names the sections in which an HBM error occurred. -/
def dumpBody (c f : Dev) (bad : List Nat) : Bytes :=
  let secs := dumpSection 1 (bad.contains 1) (dumpRegs c f) ++ dumpSection 2 (bad.contains 2) f.dumpLedger
    ++ dumpSection 3 (bad.contains 3) (f.dumpQueues c.free) ++ dumpSection 4 (bad.contains 4) c.dumpTrace
    ++ dumpSection 5 (bad.contains 5) c.dumpErrors
  f.dumpHeader (64 + secs.length + 128) ((List.range 6).any (fun t => t != 0 && bad.contains t)) ++ secs

/-- The dump ends: written, signed and shown, or FAILED where the header, the digest or the signature could not be written. -/
def Dev.dumpEnd (d : Dev) (headerOk : Bool) (bad : List Nat) : Dev :=
  match d.lgr.latch with
  | none => d
  | some l =>
    if d.get R.MGT_FW_STATUS_STATE = 3 then d else
    if !headerOk then
      ({ d with lgr := { d.lgr with latch := none } }).set R.LGR_STATUS_DUMP 3
    else
      let f := d.latched l
      let body := dumpBody d f bad
      let d := { d with
        free := d.free + 2 * f.dumpObjects.length
        lgr := { d.lgr with latch := none } }
      let dig := sha512 body
      let (sig, d) := d.signWith dig
      let all := body ++ dig ++ sig
      ((d.write dumpBase all).set R.LGR_DUMP_LENGTH all.length).set R.LGR_STATUS_DUMP 2

def execDumpComplete (headerOk : Bool) (bad : List (Fin 6)) (s : State) : Host.Outcome State Fault Refusal :=
  s.act .live (fun d => d.dumpEnd headerOk (bad.map (·.val)))

end Sys2Proof.Machine
end

