-- ==== Sys2Proof/Machine/GtcCmd.lean ====
section
/-! DEFINITION. The commands of GTC threads (spec 12): one meaning per instruction, and the end of a WAIT. -/

namespace Sys2Proof.Machine

/-- An entry of a kernel's constant slice (R341, R342). -/
def Dev.constAt (d : Dev) (f q n : Nat) : Nat :=
  d.readLe (d.sectAt f 7 + d.sfld f 7 0x20 8 + 8 * (d.kernelFld f q 0xC 4 + n)) 8

/-- The target of BR and CALL. -/
def Cx.target (c : Cx) (o : FmtB) : Nat := ((c.th.pc : Int) + 4 * o.imm.toInt).toNat

/-- ALU0 (R324, R325). -/
def execAlu0 (t : Nat) (g : Guard) (o : FmtR) (s : State) : Host.Outcome State Fault Refusal :=
  gtcStep t (.alu0 t g o) g (fun c =>
    .retire (c.th.setSr o.d.toNat (alu0 o.fn.toNat (c.th.sr o.a.toNat) (c.th.sr o.b.toNat)))) s

/-- ALU1 (R324, R325). -/
def execAlu1 (t : Nat) (g : Guard) (o : FmtR) (s : State) : Host.Outcome State Fault Refusal :=
  gtcStep t (.alu1 t g o) g (fun c =>
    .retire (c.th.setSr o.d.toNat (alu1 o.fn.toNat (c.th.sr o.a.toNat) (c.th.sr o.b.toNat)))) s

/-- ALU2 (R324). -/
def execAlu2 (t : Nat) (g : Guard) (o : FmtR) (s : State) : Host.Outcome State Fault Refusal :=
  gtcStep t (.alu2 t g o) g (fun c =>
    .retire (c.th.setSr o.d.toNat (alu2 o.fn.toNat (c.th.sr o.a.toNat) (c.th.sr o.b.toNat)))) s

/-- ADDI (R324). -/
def execAddi (t : Nat) (g : Guard) (o : FmtI) (s : State) : Host.Outcome State Fault Refusal :=
  gtcStep t (.addi t g o) g (fun c =>
    .retire (c.th.setSr o.d.toNat (c.th.sr o.a.toNat + BitVec.signExtend 64 o.imm))) s

/-- ANDI (R324). -/
def execAndi (t : Nat) (g : Guard) (o : FmtI) (s : State) : Host.Outcome State Fault Refusal :=
  gtcStep t (.andi t g o) g (fun c =>
    .retire (c.th.setSr o.d.toNat (c.th.sr o.a.toNat &&& BitVec.signExtend 64 o.imm))) s

/-- ORI (R324). -/
def execOri (t : Nat) (g : Guard) (o : FmtI) (s : State) : Host.Outcome State Fault Refusal :=
  gtcStep t (.ori t g o) g (fun c =>
    .retire (c.th.setSr o.d.toNat (c.th.sr o.a.toNat ||| BitVec.signExtend 64 o.imm))) s

/-- XORI (R324). -/
def execXori (t : Nat) (g : Guard) (o : FmtI) (s : State) : Host.Outcome State Fault Refusal :=
  gtcStep t (.xori t g o) g (fun c =>
    .retire (c.th.setSr o.d.toNat (c.th.sr o.a.toNat ^^^ BitVec.signExtend 64 o.imm))) s

/-- SHIFTI (R324). -/
def execShifti (t : Nat) (g : Guard) (o : FmtI) (s : State) : Host.Outcome State Fault Refusal :=
  gtcStep t (.shifti t g o) g (fun c =>
    .retire (c.th.setSr o.d.toNat (shiftImm o.imm (c.th.sr o.a.toNat)))) s

/-- MOVI (R324). -/
def execMovi (t : Nat) (g : Guard) (o : FmtU) (s : State) : Host.Outcome State Fault Refusal :=
  gtcStep t (.movi t g o) g (fun c =>
    .retire (c.th.setSr o.d.toNat (BitVec.signExtend 64 o.imm))) s

/-- LIT: an entry of the kernel's constant slice (R324, R341, R342). -/
def execLit (t : Nat) (g : Guard) (o : FmtU) (s : State) : Host.Outcome State Fault Refusal :=
  gtcStep t (.lit t g o) g (fun c =>
    .retire (c.th.setNat o.d.toNat (c.d.constAt c.f c.a.q o.imm.toNat))) s

/-- CMP (R324). -/
def execCmp (t : Nat) (g : Guard) (o : FmtR) (s : State) : Host.Outcome State Fault Refusal :=
  gtcStep t (.cmp t g o) g (fun c =>
    .retire (c.th.setPr o.d.toNat (cmpRel o.fn.toNat (c.th.sr o.a.toNat) (c.th.sr o.b.toNat)))) s

/-- PLOG (R324). -/
def execPlog (t : Nat) (g : Guard) (o : FmtR) (s : State) : Host.Outcome State Fault Refusal :=
  gtcStep t (.plog t g o) g (fun c =>
    .retire (c.th.setPr o.d.toNat (predLogic o.fn.toNat (c.th.pr o.a.toNat) (c.th.pr o.b.toNat)))) s

/-- SRD (R323, R324). -/
def execSrd (t : Nat) (g : Guard) (o : FmtI) (s : State) : Host.Outcome State Fault Refusal :=
  gtcStep t (.srd t g o) g (fun c =>
    .retire (c.th.setNat o.d.toNat (c.special o.imm.toNat))) s

/-- SWR (R323, R324). -/
def execSwr (t : Nat) (g : Guard) (o : FmtI) (s : State) : Host.Outcome State Fault Refusal :=
  gtcStep t (.swr t g o) g (fun c =>
    .retire (if o.imm = 0 then c.th.writeFlags (c.th.sr o.a.toNat) else { c.th with drawptr := c.th.sr o.a.toNat })) s

/-- DRAW (R326). -/
def execDraw (t : Nat) (g : Guard) (o : FmtR) (s : State) : Host.Outcome State Fault Refusal :=
  gtcStep t (.draw t g o) g (fun c =>
    if c.drawsOk (c.th.sr o.a.toNat).toNat 1 then .retire (c.th.setNat o.d.toNat (c.drawAt (c.th.sr o.a.toNat).toNat)) else .exc St.drawRange 0) s

/-- FP32 (R324, R325). -/
def execFp32 (t : Nat) (g : Guard) (o : FmtR) (s : State) : Host.Outcome State Fault Refusal :=
  gtcStep t (.fp32 t g o) g (fun c =>
    .retire (c.th.setNum o.d.toNat (floatOp fp32 o.fn.toNat ((c.th.sr o.a.toNat).toNat % 2 ^ 32) ((c.th.sr o.b.toNat).toNat % 2 ^ 32) ((c.th.sr o.d.toNat).toNat % 2 ^ 32)))) s

/-- FP64 (R324, R325). -/
def execFp64 (t : Nat) (g : Guard) (o : FmtR) (s : State) : Host.Outcome State Fault Refusal :=
  gtcStep t (.fp64 t g o) g (fun c =>
    .retire (c.th.setNum o.d.toNat (floatOp fp64 o.fn.toNat (c.th.sr o.a.toNat).toNat (c.th.sr o.b.toNat).toNat (c.th.sr o.d.toNat).toNat))) s

/-- FCMP (R324, R325). -/
def execFcmp (t : Nat) (g : Guard) (o : FmtR) (s : State) : Host.Outcome State Fault Refusal :=
  gtcStep t (.fcmp t g o) g (fun c =>
    let f := if o.fn.toNat < 4 then fp32 else fp64
    let x := floatRel f (o.fn.toNat % 4) ((c.th.sr o.a.toNat).toNat % 2 ^ f.width) ((c.th.sr o.b.toNat).toNat % 2 ^ f.width)
    .retire ((c.th.setPr o.d.toNat x.val).raiseFlags x.fl)) s

/-- FCVT (R325, R326). -/
def execFcvt (t : Nat) (g : Guard) (o : FmtC) (s : State) : Host.Outcome State Fault Refusal :=
  gtcStep t (.fcvt t g o) g (fun c =>
    c.fcvt o) s

/-- LDU8 (R324, R327). -/
def execLdu8 (t : Nat) (g : Guard) (o : FmtI) (s : State) : Host.Outcome State Fault Refusal :=
  gtcStep t (.ldu8 t g o) g (fun c =>
    c.loadOp o 1 false) s

/-- LDS8 (R324, R327). -/
def execLds8 (t : Nat) (g : Guard) (o : FmtI) (s : State) : Host.Outcome State Fault Refusal :=
  gtcStep t (.lds8 t g o) g (fun c =>
    c.loadOp o 1 true) s

/-- LDU16 (R324, R327). -/
def execLdu16 (t : Nat) (g : Guard) (o : FmtI) (s : State) : Host.Outcome State Fault Refusal :=
  gtcStep t (.ldu16 t g o) g (fun c =>
    c.loadOp o 2 false) s

/-- LDS16 (R324, R327). -/
def execLds16 (t : Nat) (g : Guard) (o : FmtI) (s : State) : Host.Outcome State Fault Refusal :=
  gtcStep t (.lds16 t g o) g (fun c =>
    c.loadOp o 2 true) s

/-- LDU32 (R324, R327). -/
def execLdu32 (t : Nat) (g : Guard) (o : FmtI) (s : State) : Host.Outcome State Fault Refusal :=
  gtcStep t (.ldu32 t g o) g (fun c =>
    c.loadOp o 4 false) s

/-- LDS32 (R324, R327). -/
def execLds32 (t : Nat) (g : Guard) (o : FmtI) (s : State) : Host.Outcome State Fault Refusal :=
  gtcStep t (.lds32 t g o) g (fun c =>
    c.loadOp o 4 true) s

/-- LD64 (R324, R327). -/
def execLd64 (t : Nat) (g : Guard) (o : FmtI) (s : State) : Host.Outcome State Fault Refusal :=
  gtcStep t (.ld64 t g o) g (fun c =>
    c.loadOp o 8 false) s

/-- ST8 (R324, R327). -/
def execSt8 (t : Nat) (g : Guard) (o : FmtI) (s : State) : Host.Outcome State Fault Refusal :=
  gtcStep t (.st8 t g o) g (fun c =>
    c.storeOp o 1) s

/-- ST16 (R324, R327). -/
def execSt16 (t : Nat) (g : Guard) (o : FmtI) (s : State) : Host.Outcome State Fault Refusal :=
  gtcStep t (.st16 t g o) g (fun c =>
    c.storeOp o 2) s

/-- ST32 (R324, R327). -/
def execSt32 (t : Nat) (g : Guard) (o : FmtI) (s : State) : Host.Outcome State Fault Refusal :=
  gtcStep t (.st32 t g o) g (fun c =>
    c.storeOp o 4) s

/-- ST64 (R324, R327). -/
def execSt64 (t : Nat) (g : Guard) (o : FmtI) (s : State) : Host.Outcome State Fault Refusal :=
  gtcStep t (.st64 t g o) g (fun c =>
    c.storeOp o 8) s

/-- VLD (R324, R327). -/
def execVld (t : Nat) (g : Guard) (o : FmtI) (s : State) : Host.Outcome State Fault Refusal :=
  gtcStep t (.vld t g o) g (fun c =>
    c.vldOp o) s

/-- VST (R324, R327). -/
def execVst (t : Nat) (g : Guard) (o : FmtI) (s : State) : Host.Outcome State Fault Refusal :=
  gtcStep t (.vst t g o) g (fun c =>
    c.vstOp o) s

/-- ATOM (R312, R328). -/
def execAtom (t : Nat) (g : Guard) (o : FmtA) (s : State) : Host.Outcome State Fault Refusal :=
  gtcStep t (.atom t g o) g (fun c =>
    c.atomOp 0 o.aop.toNat o.sz.toNat 0 o.d.toNat o.a.toNat) s

/-- FATOM (R313, R329). -/
def execFatom (t : Nat) (g : Guard) (o : FmtA) (s : State) : Host.Outcome State Fault Refusal :=
  gtcStep t (.fatom t g o) g (fun c =>
    c.atomOp 1 o.aop.toNat o.sz.toNat 0 o.d.toNat o.a.toNat) s

/-- XADD (R314, R329). -/
def execXadd (t : Nat) (g : Guard) (o : FmtX) (s : State) : Host.Outcome State Fault Refusal :=
  gtcStep t (.xadd t g o) g (fun c =>
    c.atomOp 2 0 0 o.fmt.toNat o.d.toNat o.a.toNat) s

/-- FENCE (R311, R333): the thread's accesses are complete when they retire (log entry 17). -/
def execFence (t : Nat) (g : Guard) (o : FmtS) (s : State) : Host.Outcome State Fault Refusal :=
  gtcStep t (.fence t g o) g (fun c =>
    .retire c.th) s

/-- WAIT (R334). -/
def execWait (t : Nat) (g : Guard) (o : FmtR) (s : State) : Host.Outcome State Fault Refusal :=
  gtcStep t (.wait t g o) g (fun c =>
    c.waitOp o) s

/-- BAR (R333). -/
def execBar (t : Nat) (g : Guard) (s : State) : Host.Outcome State Fault Refusal :=
  gtcStep t (.bar t g) g (fun _ =>
    .barrier) s

/-- VARITH (R330). -/
def execVarith (t : Nat) (g : Guard) (o : FmtV) (s : State) : Host.Outcome State Fault Refusal :=
  gtcStep t (.varith t g o) g (fun c =>
    .retire (c.th.setLanes o.vd.toNat (laneWidth o.ty.toNat)
      (varith o.ty.toNat o.fn.toNat (c.th.vr o.va.toNat) (c.th.vr o.vb.toNat) (c.th.vr o.vd.toNat)))) s

/-- VLOGIC (R330). -/
def execVlogic (t : Nat) (g : Guard) (o : FmtV) (s : State) : Host.Outcome State Fault Refusal :=
  gtcStep t (.vlogic t g o) g (fun c =>
    let w := laneWidth o.ty.toNat
    .retire (c.th.setVr o.vd.toNat (unlanes w (((lanes w (c.th.vr o.va.toNat)).zip ((lanes w (c.th.vr o.vb.toNat)).zip
      (lanes w (c.th.vr o.vd.toNat)))).map (fun x => laneLogic w o.fn.toNat x.1 x.2.1 x.2.2))))) s

/-- VCMP (R330). -/
def execVcmp (t : Nat) (g : Guard) (o : FmtV) (s : State) : Host.Outcome State Fault Refusal :=
  gtcStep t (.vcmp t g o) g (fun c =>
    let w := laneWidth o.ty.toNat
    .retire (c.th.setLanes o.vd.toNat w (joinNums (((lanes w (c.th.vr o.va.toNat)).zip (lanes w (c.th.vr o.vb.toNat))).map (fun x =>
      let y := laneCmp o.ty.toNat o.fn.toNat x.1 x.2
      ⟨if y.val then 2 ^ w - 1 else 0, y.fl⟩))))) s

/-- VRED (R289, R330). -/
def execVred (t : Nat) (g : Guard) (o : FmtV) (s : State) : Host.Outcome State Fault Refusal :=
  gtcStep t (.vred t g o) g (fun c =>
    let x := vred o.ty.toNat o.fn.toNat (c.th.vr o.va.toNat)
    .retire ((c.th.setVr o.vd.toNat (x.val % 2 ^ laneWidth o.ty.toNat)).raiseFlags x.fl)) s

/-- VCVT (R331). -/
def execVcvt (t : Nat) (g : Guard) (o : FmtC) (s : State) : Host.Outcome State Fault Refusal :=
  gtcStep t (.vcvt t g o) g (fun c =>
    c.vcvt o) s

/-- VMOVE (R331). -/
def execVmove (t : Nat) (g : Guard) (o : FmtR) (s : State) : Host.Outcome State Fault Refusal :=
  gtcStep t (.vmove t g o) g (fun c =>
    c.vmove o) s

/-- TZERO (R332). -/
def execTzero (t : Nat) (g : Guard) (o : FmtT) (s : State) : Host.Outcome State Fault Refusal :=
  gtcStep t (.tzero t g o) g (fun c =>
    .retire (c.th.setTr o.td.toNat ⟨o.fn.getLsbD 0, []⟩)) s

/-- TLOAD (R332). -/
def execTload (t : Nat) (g : Guard) (o : FmtT) (s : State) : Host.Outcome State Fault Refusal :=
  gtcStep t (.tload t g o) g (fun c =>
    c.tload o) s

/-- TSTORE (R332). -/
def execTstore (t : Nat) (g : Guard) (o : FmtT) (s : State) : Host.Outcome State Fault Refusal :=
  gtcStep t (.tstore t g o) g (fun c =>
    c.tstore o) s

/-- TMMA (R287, R332). -/
def execTmma (t : Nat) (g : Guard) (o : FmtT) (s : State) : Host.Outcome State Fault Refusal :=
  gtcStep t (.tmma t g o) g (fun c =>
    c.tmma o) s

/-- BR (R335). -/
def execBr (t : Nat) (g : Guard) (o : FmtB) (s : State) : Host.Outcome State Fault Refusal :=
  gtcStep t (.br t g o) g (fun c =>
    .jump c.th (c.target o)) s

/-- CALL (R335). -/
def execCall (t : Nat) (g : Guard) (o : FmtB) (s : State) : Host.Outcome State Fault Refusal :=
  gtcStep t (.call t g o) g (fun c =>
    .jump (c.th.setNat 63 (c.th.pc + 4)) (c.target o)) s

/-- JR (R335). -/
def execJr (t : Nat) (g : Guard) (o : FmtR) (s : State) : Host.Outcome State Fault Refusal :=
  gtcStep t (.jr t g o) g (fun c =>
    if c.d.inCode c.f c.a.q (c.th.sr o.a.toNat).toNat then .jump c.th (c.th.sr o.a.toNat).toNat else .exc St.pcInvalid 0) s

/-- DONE (R298, R336). -/
def execDone (t : Nat) (g : Guard) (o : FmtR) (s : State) : Host.Outcome State Fault Refusal :=
  gtcStep t (.done t g o) g (fun c =>
    let st := (c.th.sr o.b.toNat).toNat % 2 ^ 16
    if c.ti ≠ 0 || !(st == 0 || st == 0x0703) then .exc St.completionInvalid 0 else .finish (c.th.sr o.a.toNat).toNat st) s

/-- HALT (R336). -/
def execHalt (t : Nat) (g : Guard) (s : State) : Host.Outcome State Fault Refusal :=
  gtcStep t (.halt t g) g (fun c =>
    if c.ti = 0 then .exc St.completionInvalid 0 else .halt) s

/-- NOP (R324). -/
def execNop (t : Nat) (g : Guard) (s : State) : Host.Outcome State Fault Refusal :=
  gtcStep t (.nop t g) g (fun c =>
    .retire c.th) s

/-! ## The end of a WAIT (R334) -/

/-- The function, attempt, thread and operands of a hardware thread that waits. -/
def Dev.waiter (d : Dev) (t : Nat) : Option (Nat × Nat × Attempt × Thread × FmtR) :=
  match d.attOf t with
  | none => none
  | some (k, a) =>
    match a.threads[t - k]?, d.owner 9 a.q with
    | some th, some f =>
      match Sys2Proof.gtcDecode t (d.codeWord f th.pc) with
      | some (.wait _ _ o) => if th.st = 3 then some (f, k, a, th, o) else none
      | _ => none
    | _, _ => none

/-- The condition of a WAIT tested: it retires, fails, goes on waiting, or polls another node's word. -/
def Dev.waitMet (d : Dev) (t : Nat) : Dev :=
  match d.waiter t with
  | none => d
  | some (f, k, a, th, o) =>
    let again := { th with got := [] }
    if th.out ≠ 0 then d else
    match (Cx.mk d f a (t - k) th).waitOp o with
    | .retire _ => (d.disarm (.wait t)).thrGoOn f k a.counted (t - k) th (th.pc + 4)
    | .need addr n => (d.thrNeed f k a (t - k) th addr n (.wait t)).settleThreads
    | .exc st addr => d.thrExc f k a (t - k) st addr th.pc (d.codeWord f th.pc)
    | _ => d.setAtt k (a.setTh (t - k) again)

def execWaitConditionMet (t : Nat) (s : State) : Host.Outcome State Fault Refusal := s.act .engine (fun d => d.waitMet t)

/-- The timeout of a WAIT; a condition that holds wins (R19, R334). -/
def Dev.waitLate (d : Dev) (t : Nat) : Dev :=
  match d.waiter t with
  | none => d
  | some (f, k, a, th, o) =>
    if !d.expired (.wait t) then d else
    match (Cx.mk d f a (t - k) th).waitOp o with
    | .retire _ => (d.disarm (.wait t)).thrGoOn f k a.counted (t - k) th (th.pc + 4)
    | .exc st addr => d.thrExc f k a (t - k) st addr th.pc (d.codeWord f th.pc)
    | _ => d.thrExc f k a (t - k) St.timeout (th.sr o.a.toNat).toNat th.pc (d.codeWord f th.pc)

def execWaitTimeout (t : Nat) (s : State) : Host.Outcome State Fault Refusal := s.act .engine (fun d => d.waitLate t)

end Sys2Proof.Machine
end

