-- ==== Sys2Proof/Machine/Jpg.lean ====
section
/-! DEFINITION. Picture records (R225) and the JPEG decoders (R233 to R236). R233 and R234 take the coding from ISO/IEC
10918-1, which is outside the manual (PRESUMED, log entry 14). -/

namespace Sys2Proof.Machine

/-! ## Picture records (R225) -/

/-- What a picture record's header says. -/
structure PicHdr where
  depth : Nat
  planes : Nat
  sx : Nat
  sy : Nat
  width : Nat
  height : Nat
  matrix : Nat
  full : Nat
  siting : Nat
  picture : Nat
  key : Nat
  seq : Nat
  deriving DecidableEq, Repr

def PicHdr.bps (h : PicHdr) : Nat := if h.depth ≤ 8 then 1 else 2

/-- Width and height of plane `k`. -/
def PicHdr.plane (h : PicHdr) (k : Nat) : Nat × Nat :=
  if k = 0 then (h.width, h.height) else (cdiv h.width (2 ^ h.sx), cdiv h.height (2 ^ h.sy))

/-- Offset of plane `k` from the start of the header, and, at `planes`, the end of the record. -/
def PicHdr.planeAt (h : PicHdr) : Nat → Nat
  | 0 => 256
  | k + 1 =>
    let e := h.planeAt k + (h.plane k).1 * (h.plane k).2 * h.bps
    if k + 1 = h.planes then e else alignUp 256 e

/-- Length of the record. -/
def PicHdr.len (h : PicHdr) : Nat := h.planeAt h.planes

/-- The record, its planes given as values. -/
def PicHdr.record (h : PicHdr) (pls : List (List Nat)) : Bytes :=
  let hdr := [0x47, 0x4C, 0x50, 0x31] ++ le 1 h.bps ++ le 1 h.depth ++ le 1 h.planes ++ le 1 (h.sx + 4 * h.sy) ++ le 2 h.width
    ++ le 2 h.height ++ le 1 h.matrix ++ le 1 h.full ++ le 1 h.siting ++ [0] ++ le 4 h.picture ++ le 4 h.key ++ le 4 h.seq
    ++ [0, 0, 0, 0] ++ le 8 (h.len - 64) ++ List.replicate 24 0
  (List.range h.planes).foldl (fun b k =>
    let n := (h.plane k).1 * (h.plane k).2 * h.bps
    b ++ List.replicate (h.planeAt k - b.length) 0
      ++ slice ((pls.getD k []).flatMap (fun v => le h.bps (v % 2 ^ h.depth))) 0 n) hdr

/-- The header that a record begins with, where it keeps to R225. -/
def picHdr (b : Bytes) : Option PicHdr :=
  let sub := fld b 7 1
  let h : PicHdr := {
    depth := fld b 5 1
    planes := fld b 6 1
    sx := sub % 4
    sy := (sub / 4) % 4
    width := fld b 8 2
    height := fld b 0xA 2
    matrix := fld b 0xC 1
    full := fld b 0xD 1
    siting := fld b 0xE 1
    picture := fld b 0x10 4
    key := fld b 0x14 4
    seq := fld b 0x18 4 }
  if b.length < 64 then none
  else if b.take 4 = [0x47, 0x4C, 0x50, 0x31] ∧ (h.depth = 8 ∨ h.depth = 10) ∧ fld b 4 1 = h.bps ∧
      (h.planes = 1 ∨ h.planes = 3) ∧ sub < 16 ∧ h.sx ≤ 1 ∧ h.sy ≤ 1 ∧ 1 ≤ h.width ∧ h.width ≤ 16384 ∧ 1 ≤ h.height ∧
      h.height ≤ 16384 ∧ h.matrix ≤ 2 ∧ h.full ≤ 1 ∧ h.siting ≤ 2 ∧ fld b 0x20 8 = h.len - 64 then some h
  else none

/-! ## The interchange format -/

/-- A component of the frame: identifier, sampling, size in samples, quantisation table as captured, size in blocks,
and its coefficients in zigzag order. -/
structure JpgComp where
  id : Nat
  h : Nat
  v : Nat
  w : Nat
  ht : Nat
  tq : Nat
  q : Option (List Nat)
  bw : Nat
  bh : Nat
  blocks : List (List Int)
  deriving DecidableEq, Repr

/-- An image as far as it has been read. Huffman tables are keyed by 4 × class + destination and hold
(length, code, symbol). -/
structure JpgImg where
  dqt : List (Nat × List Nat)
  huff : List (Nat × List (Nat × Nat × Nat))
  ri : Nat
  framed : Bool
  prog : Bool
  x : Nat
  y : Nat
  hm : Nat
  vm : Nat
  comps : List JpgComp
  deriving DecidableEq, Repr

def JpgImg.start : JpgImg :=
  { dqt := [], huff := [], ri := 0, framed := false, prog := false, x := 0, y := 0, hm := 1, vm := 1, comps := [] }

/-- MCUs in a row and in a column of an interleaved scan. -/
def JpgImg.mcus (g : JpgImg) : Nat × Nat := (cdiv g.x (8 * g.hm), cdiv g.y (8 * g.vm))

/-- The next marker, fill bytes skipped. -/
def jpgMarker : Bytes → Option (Nat × Bytes)
  | a :: b :: r =>
    if a ≠ 0xFF then none
    else if b = 0xFF then jpgMarker (b :: r)
    else if b = 0 then none
    else some (b.toNat, r)
  | _ => none

/-- A marker segment's parameters and what follows it. -/
def jpgSeg (b : Bytes) : Option (Bytes × Bytes) :=
  let n := unbe (slice b 0 2)
  if n < 2 ∨ b.length < n then none else some ((b.take n).drop 2, b.drop n)

/-- DQT. -/
def jpgDqt : Nat → Bytes → JpgImg → Option JpgImg
  | 0, _, _ => none
  | fuel + 1, b, g =>
    if b.isEmpty then some g else
    let p := fld b 0 1 / 16
    let n := if p = 0 then 64 else 128
    if 1 < p ∨ 3 < fld b 0 1 % 16 ∨ b.length < 1 + n then none else
    let t := (chunks (n / 64) ((b.drop 1).take n)).map unbe
    jpgDqt fuel (b.drop (1 + n)) { g with dqt := Map.insert g.dqt (fld b 0 1 % 16) t }

/-- Codes assigned in order of length (ISO/IEC 10918-1, Annex C), or none where they do not fit. -/
def jpgCodes : Nat → Nat → List Nat → Bytes → List (Nat × Nat × Nat) → Option (List (Nat × Nat × Nat))
  | _, _, [], _, acc => some acc
  | len, code, n :: r, syms, acc =>
    if 2 ^ len < code + n then none else
    let mine := ((List.range n).zip syms).map (fun x => (len, code + x.1, x.2.toNat))
    jpgCodes (len + 1) (2 * (code + n)) r (syms.drop n) (acc ++ mine)

/-- DHT. -/
def jpgDht : Nat → Bytes → JpgImg → Option JpgImg
  | 0, _, _ => none
  | fuel + 1, b, g =>
    if b.isEmpty then some g else
    let tc := fld b 0 1 / 16
    let counts := (slice b 1 16).map (fun x => x.toNat)
    let n := counts.foldl (· + ·) 0
    if 1 < tc ∨ 3 < fld b 0 1 % 16 ∨ b.length < 17 + n then none else
    match jpgCodes 1 0 counts ((b.drop 17).take n) [] with
    | none => none
    | some t => jpgDht fuel (b.drop (17 + n)) { g with huff := Map.insert g.huff (4 * tc + fld b 0 1 % 16) t }

/-- SOF0, SOF1 or SOF2, held to the table of R233. -/
def jpgSof (modes sof : Nat) (b : Bytes) (g : JpgImg) : Option JpgImg :=
  let y := unbe (slice b 1 2)
  let x := unbe (slice b 3 2)
  let n := fld b 5 1
  let cs := chunks 3 (b.drop 6)
  let hv := cs.map (fun c => (fld c 1 1 / 16, fld c 1 1 % 16))
  let ok1 := match hv with
    | a :: r => 1 ≤ a.1 && a.1 ≤ 2 && 1 ≤ a.2 && a.2 ≤ 2 && r.all (fun z => z == (1, 1))
    | [] => false
  let hm := (hv.headD (1, 1)).1
  let vm := (hv.headD (1, 1)).2
  let g := { g with
    framed := true
    prog := sof == 2
    x := x
    y := y
    hm := hm
    vm := vm }
  let m := g.mcus
  let comps : List JpgComp := cs.map (fun c =>
    let h := fld c 1 1 / 16
    let v := fld c 1 1 % 16
    ({ id := fld c 0 1, h := h, v := v, w := cdiv (x * h) hm, ht := cdiv (y * v) vm, tq := fld c 2 1, q := none, bw := m.1 * h,
       bh := m.2 * v, blocks := List.replicate (m.1 * h * (m.2 * v)) (List.replicate 64 0) } : JpgComp))
  let ids : List Nat := comps.map (fun k => k.id)
  if b.length == 6 + 3 * n && (n == 1 || n == 3) && fld b 0 1 == 8 && 1 ≤ x && x ≤ 16384 && 1 ≤ y && y ≤ 16384 && ok1 &&
      cs.all (fun c => fld c 2 1 ≤ 3) && modes.testBit (if sof = 2 then 1 else 0) && decide ids.Nodup then
    some { g with comps := comps }
  else none

/-- What stands next in an image. -/
inductive JpgNext where
  | bad
  | ended (g : JpgImg)
  | scan (g : JpgImg) (hdr rest : Bytes)
  deriving DecidableEq, Repr

/-- Marker segments read up to a scan or the end of the image. -/
def jpgHead (modes : Nat) : Nat → Bytes → JpgImg → JpgNext
  | 0, _, _ => .bad
  | fuel + 1, b, g =>
    match jpgMarker b with
    | none => .bad
    | some (m, r) =>
      if m = 0xD9 then .ended g else
      match jpgSeg r with
      | none => .bad
      | some (p, r) =>
        let go := fun (x : Option JpgImg) => match x with
          | some g => jpgHead modes fuel r g
          | none => .bad
        if (0xE0 ≤ m ∧ m ≤ 0xEF) ∨ m = 0xFE then jpgHead modes fuel r g
        else if m = 0xDB then go (jpgDqt (p.length + 1) p g)
        else if m = 0xC4 then go (jpgDht (p.length + 1) p g)
        else if m = 0xDD then go (if p.length = 2 then some { g with ri := unbe p } else none)
        else if 0xC0 ≤ m ∧ m ≤ 0xC2 then go (if g.framed then none else jpgSof modes (m - 0xC0) p g)
        else if m = 0xDA ∧ g.framed then .scan g p r
        else .bad

/-! ## Scans -/

/-- A scan header: components (place in the frame, DC and AC destinations), Ss, Se, Ah, Al. -/
structure JpgScan where
  comps : List (Nat × Nat × Nat)
  ss : Nat
  se : Nat
  ah : Nat
  al : Nat
  deriving DecidableEq, Repr

/-- The scan header, where it is one of the subset. -/
def jpgScan (g : JpgImg) (p : Bytes) : Option JpgScan :=
  let n := fld p 0 1
  let tail := p.drop (1 + 2 * n)
  let cs := (chunks 2 ((p.drop 1).take (2 * n))).map (fun c =>
    (g.comps.findIdx (fun k => k.id = fld c 0 1), fld c 1 1 / 16, fld c 1 1 % 16))
  let s : JpgScan := ⟨cs, fld tail 0 1, fld tail 1 1, fld tail 2 1 / 16, fld tail 2 1 % 16⟩
  let inOrder := (cs.zip (cs.drop 1)).all (fun x => decide (x.1.1 < x.2.1))
  let band :=
    if g.prog then
      s.se ≤ 63 && s.al ≤ 13 && (s.ah == 0 || s.ah == s.al + 1) && (if s.ss = 0 then s.se == 0 else s.ss ≤ s.se && n == 1)
    else s.ss == 0 && s.se == 63 && s.ah == 0 && s.al == 0
  if 1 ≤ n ∧ n ≤ g.comps.length ∧ p.length = 4 + 2 * n ∧ inOrder = true ∧ band = true ∧
      cs.all (fun c => c.1 < g.comps.length && c.2.1 ≤ 3 && c.2.2 ≤ 3) = true then some s else none

/-- The entropy-coded segments of a scan, byte stuffing removed, the restart markers between them, and what follows;
`ff` says that the byte before was 0xFF. -/
def jpgEcs : Bytes → Bool → Bytes → List Bytes → List Nat → List Bytes × List Nat × Bytes
  | [], _, cur, segs, rst => (segs ++ [cur.reverse], rst, [])
  | a :: r, false, cur, segs, rst =>
    if a = 0xFF then jpgEcs r true cur segs rst else jpgEcs r false (a :: cur) segs rst
  | b :: r, true, cur, segs, rst =>
    if b = 0 then jpgEcs r false (0xFF :: cur) segs rst
    else if b = 0xFF then jpgEcs r true cur segs rst
    else if 0xD0 ≤ b.toNat ∧ b.toNat ≤ 0xD7 then jpgEcs r false [] (segs ++ [cur.reverse]) (rst ++ [b.toNat])
    else (segs ++ [cur.reverse], rst, 0xFF :: b :: r)

/-- Bits of a byte string, most significant first. -/
def jpgBits (b : Bytes) : List Bool := b.flatMap (fun x => (List.range 8).map (fun i => x.toNat.testBit (7 - i)))

/-- The next `n` bits. -/
def jpgTake : Nat → Nat → List Bool → Option (Nat × List Bool)
  | 0, acc, l => some (acc, l)
  | _ + 1, _, [] => none
  | n + 1, acc, x :: r => jpgTake n (2 * acc + b2n x) r

/-- The next Huffman symbol. -/
def jpgSym (t : List (Nat × Nat × Nat)) : Nat → Nat → Nat → List Bool → Option (Nat × List Bool)
  | 0, _, _, _ => none
  | _, _, _, [] => none
  | fuel + 1, len, code, x :: r =>
    let code := 2 * code + b2n x
    match t.find? (fun e => e.1 = len + 1 && e.2.1 = code) with
    | some e => some (e.2.2, r)
    | none => jpgSym t fuel (len + 1) code r

/-- The value that `t` bits stand for. -/
def jpgExtend (v t : Nat) : Int := if v < 2 ^ (t - 1) ∧ t ≠ 0 then (v : Int) - 2 ^ t + 1 else v

/-- What decoding carries from block to block. -/
structure JpgDec where
  comps : List JpgComp
  preds : List Int
  eob : Nat
  bits : List Bool
  deriving DecidableEq, Repr

/-- A DC difference. -/
def jpgDc (t : List (Nat × Nat × Nat)) (bs : List Bool) : Option (Int × List Bool) :=
  match jpgSym t 16 0 0 bs with
  | none => none
  | some (s, bs) =>
    if 11 < s then none else (jpgTake s 0 bs).map (fun x => (jpgExtend x.1 s, x.2))

/-- AC coefficients of a band from `k` to `se`: sequential scans, and first scans of a progressive band, where a run of
ends of band may follow. -/
def jpgAc (prog : Bool) (t : List (Nat × Nat × Nat)) (se al : Nat) :
    Nat → Nat → List Int → List Bool → Option (List Int × Nat × List Bool)
  | 0, _, _, _ => none
  | fuel + 1, k, blk, bs =>
    if se < k then some (blk, 0, bs) else
    match jpgSym t 16 0 0 bs with
    | none => none
    | some (rs, bs) =>
      let r := rs / 16
      let s := rs % 16
      if s = 0 then
        if r = 15 then jpgAc prog t se al fuel (k + 16) blk bs
        else if prog then (jpgTake r 0 bs).map (fun x => (blk, 2 ^ r + x.1 - 1, x.2))
        else if r = 0 then some (blk, 0, bs)
        else none
      else if 10 < s ∨ se < k + r then none
      else
        match jpgTake s 0 bs with
        | none => none
        | some (v, bs) => jpgAc prog t se al fuel (k + r + 1) (setNth blk (k + r) (jpgExtend v s * 2 ^ al)) bs

/-- A refinement bit for a coefficient that is not 0. -/
def jpgRefine (al : Nat) (c : Int) (bs : List Bool) : Option (Int × List Bool) :=
  match bs with
  | [] => none
  | x :: r => some (if x then c + c.sign * 2 ^ al else c, r)

/-- Refinement of every coefficient of a band that is not 0. -/
def jpgRefineAll (al : Nat) : List Int → List Bool → Option (List Int × List Bool)
  | [], bs => some ([], bs)
  | c :: r, bs =>
    if c = 0 then (jpgRefineAll al r bs).map (fun x => (0 :: x.1, x.2))
    else (jpgRefine al c bs).bind (fun y => (jpgRefineAll al r y.2).map (fun x => (y.1 :: x.1, x.2)))

/-- Refinement up to the place after `r` zeros, where `v` goes: what is passed, what is left, and whether the place was
met. -/
def jpgRefineRun (al : Nat) (v : Int) : Nat → List Int → List Bool → Option (List Int × List Int × Bool × List Bool)
  | _, [], bs => some ([], [], false, bs)
  | r, c :: l, bs =>
    if c ≠ 0 then
      (jpgRefine al c bs).bind (fun y => (jpgRefineRun al v r l y.2).map (fun x => (y.1 :: x.1, x.2)))
    else
      match r with
      | 0 => some ([v], l, true, bs)
      | r + 1 => (jpgRefineRun al v r l bs).map (fun x => (0 :: x.1, x.2))

/-- A refinement scan of a band. -/
def jpgAcRefine (t : List (Nat × Nat × Nat)) (al : Nat) :
    Nat → List Int → List Int → List Bool → Option (List Int × Nat × List Bool)
  | 0, _, _, _ => none
  | fuel + 1, acc, band, bs =>
    if band.isEmpty then some (acc, 0, bs) else
    match jpgSym t 16 0 0 bs with
    | none => none
    | some (rs, bs) =>
      let r := rs / 16
      let s := rs % 16
      if s = 0 ∧ r < 15 then
        (jpgTake r 0 bs).bind (fun x =>
          (jpgRefineAll al band x.2).map (fun y => (acc ++ y.1, 2 ^ r + x.1 - 1, y.2)))
      else if 1 < s then none
      else
        match (if s = 0 then some (0, bs) else jpgTake 1 0 bs) with
        | none => none
        | some (x, bs) =>
          let v : Int := if s = 0 then 0 else if x = 1 then 2 ^ al else -(2 ^ al)
          match jpgRefineRun al v r band bs with
          | none => none
          | some (seen, rest, met, bs) =>
            if s = 1 ∧ !met then none else jpgAcRefine t al fuel (acc ++ seen) rest bs

/-- One block of a scan. -/
def jpgBlock (g : JpgImg) (s : JpgScan) (d : JpgDec) (c : Nat × Nat × Nat) (at_ : Nat) : Option JpgDec :=
  match d.comps[c.1]? with
  | none => none
  | some k =>
    let blk := k.blocks.getD at_ []
    let dc := (Map.find g.huff c.2.1).getD []
    let ac := (Map.find g.huff (4 + c.2.2)).getD []
    let put := fun (b : List Int) (d : JpgDec) =>
      { d with comps := setNth d.comps c.1 { k with blocks := setNth k.blocks at_ b } }
    if s.ss = 0 then
      if s.ah ≠ 0 then
        (jpgTake 1 0 d.bits).map (fun x => put (modNth blk 0 (fun v => v + x.1 * 2 ^ s.al)) { d with bits := x.2 })
      else
        match jpgDc dc d.bits with
        | none => none
        | some (diff, bs) =>
          let p := d.preds.getD c.1 0 + diff
          let d := { d with
            preds := setNth d.preds c.1 p
            bits := bs }
          let blk := setNth blk 0 (p * 2 ^ s.al)
          if g.prog then some (put blk d)
          else (jpgAc false ac 63 0 64 1 blk bs).map (fun x => put x.1 { d with bits := x.2.2 })
    else if s.ah = 0 then
      if d.eob ≠ 0 then some { d with eob := d.eob - 1 }
      else (jpgAc true ac s.se s.al 64 s.ss blk d.bits).map (fun x => put x.1 { d with
        eob := x.2.1
        bits := x.2.2 })
    else
      let band := (blk.take (s.se + 1)).drop s.ss
      let r := if d.eob ≠ 0 then (jpgRefineAll s.al band d.bits).map (fun x => (x.1, d.eob - 1, x.2))
        else jpgAcRefine ac s.al 65 [] band d.bits
      r.map (fun x => put (blk.take s.ss ++ x.1 ++ blk.drop (s.se + 1)) { d with
        eob := x.2.1
        bits := x.2.2 })

/-- Whether a scan is interleaved, and how many MCUs it has. -/
def jpgMcus (g : JpgImg) (s : JpgScan) : Nat :=
  match s.comps with
  | [c] => match g.comps[c.1]? with
    | some k => cdiv k.w 8 * cdiv k.ht 8
    | none => 0
  | _ => g.mcus.1 * g.mcus.2

/-- The blocks of MCU `m`: each with its component's entry in the scan header. -/
def jpgMcu (g : JpgImg) (s : JpgScan) (m : Nat) : List ((Nat × Nat × Nat) × Nat) :=
  match s.comps with
  | [c] => match g.comps[c.1]? with
    | some k => [(c, m / cdiv k.w 8 * k.bw + m % cdiv k.w 8)]
    | none => []
  | cs => cs.flatMap (fun c => match g.comps[c.1]? with
    | some k => (List.range (k.h * k.v)).map (fun b =>
        (c, (m / g.mcus.1 * k.v + b / k.h) * k.bw + m % g.mcus.1 * k.h + b % k.h))
    | none => [])

/-- The units of a scan (R235). -/
def jpgUnits (g : JpgImg) (s : JpgScan) : Nat :=
  match s.comps with
  | [_] => jpgMcus g s
  | cs => jpgMcus g s * (cs.foldl (fun n c => match g.comps[c.1]? with
    | some k => n + k.h * k.v
    | none => n) 0)

/-- One restart interval. -/
def jpgInterval (g : JpgImg) (s : JpgScan) (comps : List JpgComp) (seg : Bytes) (first count : Nat) : Option (List JpgComp) :=
  let d : JpgDec := ⟨comps, [0, 0, 0], 0, jpgBits seg⟩
  let blocks := (List.range count).flatMap (fun m => jpgMcu g s (first + m))
  match blocks.foldl (fun (o : Option JpgDec) b => o.bind (fun d => jpgBlock g s d b.1 b.2)) (some d) with
  | some d => if d.bits.length < 8 ∧ d.eob = 0 then some d.comps else none
  | none => none

/-- A scan decoded: the image after it and what follows it. -/
def jpgDecode (g : JpgImg) (s : JpgScan) (rest : Bytes) : Option (JpgImg × Bytes) :=
  let (segs, rst, rest) := jpgEcs rest false [] [] []
  let n := jpgMcus g s
  let per := if g.ri = 0 then n else g.ri
  let tables := s.comps.all (fun c =>
    ((s.ss != 0 || s.ah != 0) || (Map.find g.huff c.2.1).isSome) && ((g.prog && s.ss == 0) || (Map.find g.huff (4 + c.2.2)).isSome))
  let rstOk := ((List.range rst.length).zip rst).all (fun x => x.2 = 0xD0 + x.1 % 8)
  let comps := (List.range g.comps.length).zip g.comps |>.map (fun x =>
    if s.comps.any (fun c => c.1 = x.1) && x.2.q.isNone then { x.2 with q := Map.find g.dqt x.2.tq } else x.2)
  let quant := s.comps.all (fun c => match comps[c.1]? with
    | some k => k.q.isSome
    | none => false)
  if tables = true ∧ rstOk = true ∧ quant = true ∧ segs.length = cdiv n per then
    let r := ((List.range segs.length).zip segs).foldl (fun (o : Option (List JpgComp)) x =>
      o.bind (fun cs => jpgInterval g s cs x.2 (x.1 * per) (min per (n - x.1 * per)))) (some comps)
    r.map (fun cs => ({ g with comps := cs }, rest))
  else none

/-! ## The exact inverse transform (R234) -/

/-- Zigzag place to natural place. -/
def jpgZig : List Nat :=
  [0, 1, 8, 16, 9, 2, 3, 10, 17, 24, 32, 25, 18, 11, 4, 5, 12, 19, 26, 33, 40, 48, 41, 34, 27, 20, 13, 6, 7, 14, 21, 28,
   35, 42, 49, 56, 57, 50, 43, 36, 29, 22, 15, 23, 30, 37, 44, 51, 58, 59, 52, 45, 38, 31, 39, 46, 53, 60, 61, 54, 47, 55, 62, 63]

/-- cos(jπ/16) × 2^256 for j = 1 to 7. -/
def jpgCos : List Int :=
  [0xfb14be7fbae581562172a361fd2a722ec5f40e3fd8f18ae1b1997321b48e8b1c,
   0xec835e79946a31457e610231ac1d6180f0a83d3cd0dae9b5db897c2384083747,
   0xd4db3148750d1819f630e8b6dac83e68b4691d2f99ec9eaaac08e58a7cd39544,
   0xb504f333f9de6484597d89b3754abe9f1d6f60ba893ba84ced17ac8583339915,
   0x8e39d9cd73464364bba4cfecbff548677ca7d749adfba33eca996068c296fd79,
   0x61f78a9abaa58b4698916152cf7eee1bbdf1f5b4ab3de24c3a3c159062718f71,
   0x31f17078d34c156c9732300393f33613f394e58d12972f1d39438767895414c2]

/-- cos(jπ/16) as a sign and a place: 0 for 1, 1 to 7 for cos(jπ/16), 8 for 0. -/
def cosRef (j : Nat) : Int × Nat :=
  let j := j % 32
  let j := if 16 < j then 32 - j else j
  if 8 < j then (-1, 16 - j) else (1, j)

/-- The sum of R234's transform at (x, y), times 8, over the basis 1, cos(π/16) to cos(7π/16), in which it is exact:
a product of two cosines is half the sum of two, and the factor 1/√2 of a zero frequency is cos(4π/16). -/
def idctAt (x y : Nat) (f : List (Nat × Int)) : List Int :=
  f.foldl (fun acc e =>
    let u := e.1 % 8
    let v := e.1 / 8
    let a := if u = 0 then 4 else (2 * x + 1) * u
    let b := if v = 0 then 4 else (2 * y + 1) * v
    let p := cosRef (a + b)
    let q := cosRef (if b ≤ a then a - b else b - a)
    modNth (modNth acc p.2 (· + p.1 * e.2)) q.2 (· + q.1 * e.2)) (List.replicate 9 0)

/-- The nearest integer, halves away from zero. The cosines of the basis are independent over the rationals, so only
a sum without them can be a half; for the others 256 fraction bits decide. -/
def idctRound (c : List Int) : Int :=
  let c0 := c.getD 0 0
  let rest := (c.drop 1).take 7
  if rest.all (· == 0) then c0.sign * (((c0.natAbs + 4) / 8 : Nat) : Int)
  else
    let n := c0 * 2 ^ 256 + ((rest.zip jpgCos).foldl (fun s x => s + x.1 * x.2) 0)
    (n + 4 * 2 ^ 256) / (8 * 2 ^ 256)

/-- The 64 samples of a block. -/
def jpgPixels (q : List Nat) (blk : List Int) : List Nat :=
  let f := ((jpgZig.zip (blk.zip q)).filter (fun e => e.2.1 ≠ 0)).map (fun e => (e.1, e.2.1 * (e.2.2 : Int)))
  (List.range 64).map (fun i => (max 0 (min 255 (idctRound (idctAt (i % 8) (i / 8) f) + 128))).toNat)

/-- A component's plane. -/
def jpgPlane (k : JpgComp) : List Nat :=
  let px := chunks k.bw (k.blocks.map (jpgPixels (k.q.getD (List.replicate 64 1))))
  (List.range k.ht).flatMap (fun y =>
    ((px.getD (y / 8) []).flatMap (fun b => (b.drop (8 * (y % 8))).take 8)).take k.w)

/-! ## The command -/

/-- The record header of an image. -/
def JpgImg.hdr (g : JpgImg) : PicHdr :=
  let n := g.comps.length
  { depth := 8, planes := n, sx := if n = 3 then g.hm - 1 else 0, sy := if n = 3 then g.vm - 1 else 0, width := g.x, height := g.y,
    matrix := 0, full := 1, siting := 0, picture := 0, key := 0, seq := 0 }

/-- What stands next after the first `n` scans. -/
def jpgAfter (modes : Nat) (b : Bytes) : Nat → JpgNext
  | 0 => if b.take 2 = [0xFF, 0xD8] then jpgHead modes b.length (b.drop 2) JpgImg.start else .bad
  | n + 1 =>
    match jpgAfter modes b n with
    | .scan g p r =>
      match (jpgScan g p).bind (fun s => jpgDecode g s r) with
      | some (g, r) => jpgHead modes (r.length + 1) r g
      | none => .bad
    | x => x

/-- JPG_SCAN_DECODE: one scan, checked in the order of R236, and after the last scan the picture. -/
def Dev.jpgScanDecode (d : Dev) (i : Nat) : Dev :=
  d.engine 4 i (fun d f eo e =>
    if !e.arrived then d else
    let c := d.config f 4 i
    let n := match e.st with
      | .jpg n => n
      | _ => 0
    let modes := fld c 1 1
    match jpgAfter modes e.buf n with
    | .scan g p r =>
      match jpgScan g p with
      | none => d.failSample f 4 i eo St.decodeError
      | some s =>
        let blocks := g.comps.foldl (fun n k => n + k.bw * k.bh) 0
        if fld c 8 8 < g.hdr.len ∨ (g.prog ∧ fld c 0x18 8 < 128 * blocks) then d.failSample f 4 i eo St.outputLimit
        else if !withinCap (d.capOf f 4 i e) (e.units + jpgUnits g s) then d.failSample f 4 i eo St.workCap
        else
          let (work, d) := if g.prog then d.drawBytes (128 * blocks) else ([], d)
          let d := if g.prog then d.write (fld c 0x10 8) work else d
          let d := d.setEng 4 i { e with
            units := e.units + jpgUnits g s
            st := .jpg (n + 1) }
          match jpgDecode g s r with
          | none => d.failSample f 4 i eo St.decodeError
          | some (g, r) =>
            match jpgHead modes (r.length + 1) r g with
            | .bad => d.failSample f 4 i eo St.decodeError
            | .scan _ _ _ => d
            | .ended g =>
              let d := d.putOut 4 i eo (g.hdr.record (g.comps.map jpgPlane))
              (d.addWord (R.JPG_PICTURES i) 1).finish f 4 i eo
    | _ => d.failSample f 4 i eo St.decodeError)

def execJpgScanDecode (i : Nat) (s : State) : Host.Outcome State Fault Refusal :=
  s.act .engine (fun d => d.jpgScanDecode i)

end Sys2Proof.Machine
end

