-- ==== Sys2Proof/Machine/Img.lean ====
section
/-! DEFINITION. The image engines (R237 to R248): pictures into tensors, and the regions of interest. -/

namespace Sys2Proof.Machine

/-! ## FP32 -/

/-- A rational in FP32 (RNE). -/
def f32 (a : Int) (b : Nat) : Nat := (divVal fp32 (Val.ofInt a) (Val.ofInt b)).val

def fAdd (a b : Nat) : Nat := (addF fp32 a b).val
def fSub (a b : Nat) : Nat := (subF fp32 a b).val
def fMul (a b : Nat) : Nat := (mulF fp32 a b).val
def fDiv (a b : Nat) : Nat := (divF fp32 a b).val

/-- Clamped to [0, 1]. -/
def fClamp (a : Nat) : Nat :=
  let v := decode fp32 a
  if cmpVal v (Val.ofInt 0) < 0 then 0 else if 0 < cmpVal v (Val.ofInt 1) then f32 1 1 else a

/-! ## Colour (R238, R239) -/

/-- The lower chroma sample of an axis at luma position `x`, and the weight of the one above it in quarters (R238). -/
def chromaTap (sub : Bool) (cosited : Bool) (x : Nat) : Int × Nat :=
  if !sub then ((x : Int), 0) else
  let p : Int := 2 * (x : Int) - (if cosited then 0 else 1)
  (p / 4, (p % 4).toNat)

/-- An index clamped to [0, n − 1]. -/
def clampIx (n : Nat) (i : Int) : Nat := (max 0 (min i ((n : Int) - 1))).toNat

def gridAt (g : List (List Nat)) (x y : Nat) : Nat := (g.getD y []).getD x 0

/-- The chroma value at a luma position, in sixteenths. -/
def chromaAt (h : PicHdr) (g : List (List Nat)) (x y : Nat) : Nat :=
  let (w, ht) := h.plane 1
  let (u, fx) := chromaTap (h.sx = 1) (h.siting ≠ 0) x
  let (v, fy) := chromaTap (h.sy = 1) (h.siting = 2) y
  let at_ := fun (i j : Int) => gridAt g (clampIx w i) (clampIx ht j)
  at_ u v * ((4 - fx) * (4 - fy)) + at_ (u + 1) v * (fx * (4 - fy)) + at_ u (v + 1) * ((4 - fx) * fy)
    + at_ (u + 1) (v + 1) * (fx * fy)

/-- Kr and Kb of a matrix, in ten-thousandths. -/
def krOf (m : Nat) : Nat := if m = 0 then 2990 else if m = 1 then 2126 else 2627
def kbOf (m : Nat) : Nat := if m = 0 then 1140 else if m = 1 then 722 else 593

/-- The channels of a pixel (R239). -/
def pixelAt (h : PicHdr) (channels : Nat) (pl : List (List (List Nat))) (x y : Nat) : List Nat :=
  let d := h.depth
  let q : Nat := 2 ^ (d - 8)
  let yy : Int := gridAt (pl.getD 0 []) x y
  let y1 := if h.full = 1 then f32 yy (2 ^ d - 1) else f32 (yy - 16 * q) (219 * q)
  if channels = 1 then [fClamp y1]
  else if h.planes = 1 then [fClamp y1, fClamp y1, fClamp y1]
  else
    let c := fun (k : Nat) =>
      let n : Int := chromaAt h (pl.getD k []) x y
      if h.full = 1 then f32 (n - 16 * 2 ^ (d - 1)) (16 * (2 ^ d - 1)) else f32 (n - 16 * (128 * q)) (16 * (224 * q))
    let one := f32 1 1
    let two := f32 2 1
    let kr := f32 (krOf h.matrix) 10000
    let kb := f32 (kbOf h.matrix) 10000
    let r := fAdd y1 (fMul (fMul two (fSub one kr)) (c 2))
    let b := fAdd y1 (fMul (fMul two (fSub one kb)) (c 1))
    let g := fDiv (fSub (fSub y1 (fMul kr r)) (fMul kb b)) (fSub (fSub one kr) kb)
    [fClamp r, fClamp g, fClamp b]

/-! ## Rasters -/

/-- A raster: rows of pixels, a pixel its channels. -/
abbrev Raster := List (List (List Nat))

/-- A region of a picture. -/
def cropOf (h : PicHdr) (channels : Nat) (pl : List (List (List Nat))) (x y w ht : Nat) : Raster :=
  (List.range ht).map (fun j => (List.range w).map (fun i => pixelAt h channels pl (x + i) (y + j)))

/-- One quarter turn clockwise. -/
def turn (w : Nat) (r : Raster) : Raster :=
  (List.range w).map (fun i => (r.map (fun row => row.getD i [])).reverse)

/-- Quarter turns clockwise of a raster `w` wide and `h` high. -/
def rotate (w h : Nat) : Nat → Raster → Raster
  | 0, r => r
  | n + 1, r => rotate h w n (turn w r)

/-! ## Resampling (R242, R243) -/

/-- The taps of output pixel `o`: source indices (unclamped) and weights as rationals over one denominator. -/
def tapsOf (filter s o_ o : Nat) : List (Int × Int) × Nat :=
  match filter with
  | 0 =>
    let lo := o * s
    let hi := (o + 1) * s
    let first := lo / o_
    let last := cdiv hi o_
    ((List.range (last - first)).map (fun k =>
      let i := first + k
      ((i : Int), ((min ((i + 1) * o_) hi : Nat) : Int) - ((max (i * o_) lo : Nat) : Int))), s)
  | 1 =>
    let n : Int := ((2 * o + 1) * s : Nat) - (o_ : Int)
    let n := max 0 (min n ((2 * o_ * (s - 1) : Nat) : Int))
    let b : Int := 2 * o_
    ([(n / b, b - n % b), (n / b + 1, n % b)], 2 * o_)
  | _ =>
    let n : Int := ((2 * o + 1) * s : Nat) - (o_ : Int)
    let b : Int := 2 * o_
    let i0 := n / b
    let w := fun (i : Int) =>
      let a := (n - i * b).natAbs
      let a : Int := a
      if a ≤ b then 3 * a ^ 3 - 5 * a ^ 2 * b + 2 * b ^ 3
      else if a < 2 * b then -(a ^ 3) + 5 * a ^ 2 * b - 8 * a * b ^ 2 + 4 * b ^ 3
      else 0
    ([i0 - 1, i0, i0 + 1, i0 + 2].map (fun i => (i, w i)), 2 * (2 * o_) ^ 3)

/-- Products summed in FP32 in ascending source index. -/
def dot32 : List (Nat × Nat) → Nat
  | [] => 0
  | p :: r => r.foldl (fun acc x => fAdd acc (fMul x.1 x.2)) (fMul p.1 p.2)

/-- One pass over a line of `s` pixels to `n` pixels. -/
def resampleLine (filter s n : Nat) (line : List (List Nat)) : List (List Nat) :=
  let ch := (line.headD []).length
  (List.range n).map (fun o =>
    let (taps, den) := tapsOf filter s n o
    let ws := taps.map (fun t => (f32 t.2 den, line.getD (clampIx s t.1) []))
    (List.range ch).map (fun c => dot32 (ws.map (fun t => (t.1, t.2.getD c 0)))))

/-- Columns of a raster as rows. -/
def transpose (w : Nat) (r : Raster) : Raster := (List.range w).map (fun i => r.map (fun row => row.getD i []))

/-- A raster `w` × `h` resampled to `ow` × `oh`: the horizontal pass over every row, then the vertical pass. -/
def resample (filter w h ow oh : Nat) (r : Raster) : Raster :=
  let a := r.map (resampleLine filter w ow)
  transpose oh ((transpose ow a).map (resampleLine filter h oh))

/-- A side of level `l` (R242). -/
def levelSide (c : Bytes) (l s : Nat) : Nat :=
  max 1 (match fld c 5 1 with
    | 0 => s / 2 ^ l
    | 1 => Nat.sqrt (s * s / 2 ^ l)
    | _ => s * fld c 0xA 2 ^ l / fld c 8 2 ^ l)

/-- A tensor in its layout and format (R244, R245). -/
def rasterTensor (c : Bytes) (r : Raster) : Bytes :=
  let fmt := (fmtOf (fld c 0x28 1)).getD fp32
  let ch := fld c 0x29 1
  let conv := fun (k v : Nat) =>
    let x := fMul (fSub v (fld c (0x30 + 4 * k) 4)) (fld c (0x3C + 4 * k) 4)
    le (fmt.width / 8) (convert fmt false (decode fp32 x)).val
  let px := r.flatten
  if fld c 0x2A 1 = 0 then (List.range ch).flatMap (fun k => px.flatMap (fun p => conv k (p.getD k 0)))
  else px.flatMap (fun p => (List.range ch).flatMap (fun k => conv k (p.getD k 0)))

/-! ## Regions of interest (R246 to R248) -/

/-- The address of the ROI entry for (K, s). -/
def roiEntry (c : Bytes) (k s : Nat) : Nat :=
  fld c 0x58 8 + ((k % fld c 0x50 4) * fld c 0x54 2 + s % fld c 0x54 2) * 0x800

def roiMagic : Bytes := [0x47, 0x4C, 0x52, 0x4F, 0x49, 0x53, 0x54, 0x31]

/-- A rectangle: X, Y, W, H. -/
abbrev Rect := Nat × Nat × Nat × Nat

/-- An entry that holds (K, s): STATE, FLAGS, ROI_FROM and the regions. -/
def Dev.roiRead (d : Dev) (c : Bytes) (k s : Nat) : Option (Nat × Nat × Nat × List Rect) :=
  let a := roiEntry c k s
  let e := d.read a 0x40
  if e.take 8 = roiMagic ∧ fld e 8 4 = k ∧ fld e 0xC 4 = s then
    let rs := (chunks 16 (d.read (a + 0x40) (16 * fld e 0x12 1))).map (fun r => (fld r 0 2, fld r 2 2, fld r 4 2, fld r 6 2))
    some (fld e 0x10 1, fld e 0x11 1, fld e 0x14 4, rs)
  else none

/-- An entry written, its header last (R217). -/
def Dev.roiWrite (d : Dev) (c : Bytes) (k s state flags src : Nat) (rs : List Rect) : Dev :=
  let a := roiEntry c k s
  let body := rs.flatMap (fun r => le 2 r.1 ++ le 2 r.2.1 ++ le 2 r.2.2.1 ++ le 2 r.2.2.2 ++ List.replicate 8 0)
  let d := d.write (a + 0x40) (slice body 0 (0x800 - 0x40))
  d.write a (roiMagic ++ le 4 k ++ le 4 s ++ le 1 state ++ le 1 flags ++ le 1 rs.length ++ [0] ++ le 4 src
    ++ List.replicate 40 0)

/-- A region clipped to the picture; none where it is left empty (R246). -/
def clipRect (w h : Nat) (r : Rect) : Option Rect :=
  let cw := min (r.1 + r.2.2.1) w - r.1
  let ch := min (r.2.1 + r.2.2.2) h - r.2.1
  if cw = 0 ∨ ch = 0 then none else some (r.1, r.2.1, cw, ch)

/-- The last frame of a stream that an engine has processed, with the producer's due record for it. -/
def Dev.roiLast (d : Dev) (i k : Nat) : Option (Nat × Nat) :=
  ((Map.get [] d.seq.roi i).find? (fun x => x.1 = k)).map (fun x => x.2)

/-- The due record of a stage, by its endpoint, for a live position (R92). -/
def Dev.dueAt (d : Dev) (f ep pos : Nat) : Option Nat :=
  match d.liveAt f pos, (d.stages f).findIdx? (· == ep) with
  | some l, some k => (l.due.find? (fun x => x.1 = k)).map (fun x => x.2)
  | _, _ => none

/-- Whether T(n) is on time for the frame at a position (R247). Where the frame before was not processed in this run
but its regions are in force, it was processed before the run began, and so earlier than any record of it. -/
def Dev.roiOnTime (d : Dev) (f i : Nat) (c : Bytes) (k n pos : Nat) : Bool :=
  if n = 0 then false else
  match d.stageOf f 5 i with
  | none => false
  | some stage =>
    let mine := (d.liveAt f pos).bind (fun l => (l.due.find? (fun x => x.1 = stage)).map (fun x => x.2))
    match d.roiLast i k with
    | some (m, due) =>
      if m = n - 1 then (match mine with
        | some x => due < x
        | none => false)
      else false
    | none => (d.roiRead c k (n - 1)).any (fun e => e.1 == 2)

/-- The regions that frame n uses: FLAGS, ROI_FROM, regions; none while an on-time table is awaited. -/
def Dev.roiFor (d : Dev) (f i : Nat) (c : Bytes) (h : PicHdr) (pos : Nat) : Option (Nat × Nat × List Rect) :=
  let n := h.seq
  let clip := fun (l : List Rect) => l.filterMap (clipRect h.width h.height)
  if d.roiOnTime f i c h.key n pos then
    (d.roiRead c h.key n).bind (fun e => if e.1 = 1 ∨ e.1 = 2 then some (0, n - 1, clip e.2.2.2) else none)
  else
    let whole : Nat × Nat × List Rect := (2, 0xFFFFFFFF, [(0, 0, h.width, h.height)])
    if n = 0 then some whole else
    match d.roiRead c h.key (n - 1) with
    | some (2, _, src, rs) => some (1, src, clip rs)
    | _ => some whole

/-- A region table keeps to R246. -/
def roiTableOk (t : Bytes) : Bool :=
  let n := fld t 6 2
  t.take 4 == [0x47, 0x4C, 0x52, 0x54] && fld t 4 2 == 1 && n ≤ 64 && t.length == 64 + 16 * n && allZero (slice t 0x10 48)
    && (chunks 16 (t.drop 64)).all (fun e => allZero (e.drop 8))

/-- REGION_TABLE_ARRIVAL: the table of the lowest sample whole on input 1 (R246 to R248). -/
def Dev.roiArrive (d : Dev) (i : Nat) : Dev :=
  match d.epOf 5 i false 1 with
  | none => d
  | some (f, ep) =>
    if d.halted f then d else
    let q := d.inQ ep.ep
    match lowest q with
    | none => d
    | some (p, t, _) =>
      let mine := q.filter (fun g => g.pos = p && g.tok = t)
      if !mine.any (fun g => g.last) then d else
      let d := d.setInQ ep.ep (q.filter (fun g => !(g.pos = p && g.tok = t)))
      if mine.any (fun g => g.defect ≠ 0) then d else
      let b := mine.flatMap (fun g => g.data)
      let c := d.config f 5 i
      let k := fld b 8 4
      let n := fld b 0xC 4
      let done := (d.roiLast i k).any (fun x => n ≤ x.1)
      if fld c 1 1 ≠ 2 then d
      else if !roiTableOk b || done then d.inc ⟨R.IMG_ROI i, 31, 0⟩
      else d.roiWrite c k n 1 0 (n - 1)
        ((chunks 16 (b.drop 64)).map (fun r => (fld r 0 2, fld r 2 2, fld r 4 2, fld r 6 2)))

def execRegionTableArrival (i : Nat) (s : State) : Host.Outcome State Fault Refusal :=
  s.act .engine (fun d => d.roiArrive i)

/-! ## Pictures -/

/-- Crop, flip and rotation of output picture `p` in modes 0 and 1 (R240, R241): none where a fixed rectangle does not
lie in the picture. -/
def Dev.imgChoice (d : Dev) (f : Nat) (c : Bytes) (h : PicHdr) (epoch id p : Nat) : Option Rect × Bool × Nat :=
  let v := fun (k : Nat) => d.drawFor f epoch id (fld c 0x20 8 + 4 * p + k)
  let uni := fun (k n : Nat) => (v k * n) >>> 64
  let aug := fld c 7 1
  let t := uni 3 8
  let flip := if aug.testBit 0 then t % 2 == 1 else aug.testBit 2
  let rot := if aug.testBit 1 then t / 2 else bits aug 4 3
  let rect := match fld c 1 1 with
    | 0 =>
      let x := fld c 0x10 2; let y := fld c 0x12 2; let w := fld c 0x14 2; let ht := fld c 0x16 2
      if w = 0 ∧ ht = 0 then some (0, 0, h.width, h.height)
      else if w ≠ 0 ∧ ht ≠ 0 ∧ x + w ≤ h.width ∧ y + ht ≤ h.height then some (x, y, w, ht)
      else none
    | _ =>
      let fr := fld c 0x18 4 + uni 0 (fld c 0x1C 4 - fld c 0x18 4 + 1)
      let cw := max 1 (h.width * fr / 65536)
      let ch := max 1 (h.height * fr / 65536)
      some (uni 1 (h.width - cw + 1), uni 2 (h.height - ch + 1), cw, ch)
  (rect, flip, rot)

/-- The levels of a record: number and size. -/
def imgLevels (c : Bytes) : List (Nat × Nat × Nat) :=
  (List.range (fld c 4 1)).map (fun l =>
    if l = 0 then (0, fld c 0xC 2, fld c 0xE 2) else (l, levelSide c l (fld c 0xC 2), levelSide c l (fld c 0xE 2)))

/-- Levels of an output port. -/
def imgPort (c : Bytes) (port : Nat) : List (Nat × Nat × Nat) :=
  (imgLevels c).filter (fun l => (fld c 6 1).testBit l.1 == (port == 1))

/-- Length of what a picture with `n` regions puts out on a port. -/
def imgLen (c : Bytes) (port n : Nat) : Nat :=
  let w := ((fmtOf (fld c 0x28 1)).getD fp32).width / 8 * fld c 0x29 1
  alignUp 64 (64 + n * (16 + (imgPort c port).foldl (fun s l => s + l.2.1 * l.2.2 * w) 0))

/-- What a picture puts out on a port (R245). -/
def imgOut (c : Bytes) (h : PicHdr) (port flags src : Nat) (rs : List Rect) (levels : List (List (Nat × Raster))) : Bytes :=
  let ls := imgPort c port
  let desc := rs.flatMap (fun r => le 2 r.1 ++ le 2 r.2.1 ++ le 2 r.2.2.1 ++ le 2 r.2.2.2 ++ List.replicate 8 0)
  let tens := levels.flatMap (fun reg => (reg.filter (fun x => ls.any (fun l => l.1 = x.1))).flatMap (fun x => rasterTensor c x.2))
  let hdr := [0x47, 0x4C, 0x54, 0x31] ++ le 2 1 ++ le 1 (fld c 0x28 1) ++ le 1 (fld c 0x2A 1) ++ le 1 (fld c 0x29 1)
    ++ le 1 ls.length ++ le 1 rs.length ++ le 1 flags ++ le 4 h.picture ++ le 4 h.key ++ le 4 h.seq ++ le 4 src ++ [0, 0, 0, 0]
    ++ le 8 (imgLen c port rs.length - 64) ++ le 2 h.width ++ le 2 h.height ++ List.replicate 20 0
  padTo 64 (hdr ++ desc ++ tens)

/-- Every level of a region (R237 steps 1 to 4). -/
def imgRegion (c : Bytes) (h : PicHdr) (pl : List (List (List Nat))) (flip : Bool) (rot : Nat) (r : Rect) :
    List (Nat × Raster) :=
  let (x, y, w, ht) := r
  let crop := cropOf h (fld c 0x29 1) pl x y w ht
  let crop := if flip then crop.map List.reverse else crop
  let crop := rotate w ht rot crop
  let (w, ht) := if rot % 2 = 1 then (ht, w) else (w, ht)
  let base := resample (fld c 2 1) w ht (fld c 0xC 2) (fld c 0xE 2) crop
  (imgLevels c).map (fun l =>
    (l.1, if l.1 = 0 then base else resample (fld c 3 1) (fld c 0xC 2) (fld c 0xE 2) l.2.1 l.2.2 base))

/-- The planes of a record as rows of values. -/
def imgPlanes (h : PicHdr) (b : Bytes) : List (List (List Nat)) :=
  (List.range h.planes).map (fun k =>
    let (w, ht) := h.plane k
    chunks w ((chunks h.bps (slice b (h.planeAt k) (w * ht * h.bps))).map unle))

def ImgSt.start : ImgSt := { pic := 0, len0 := 0, len1 := 0, out1 := [] }

/-- Output bytes cut into granules for an output endpoint: what was left of the last cut, and what is left now. -/
def Dev.cutOut (d : Dev) (e : Eng) (ep : Option Nat) (rest b : Bytes) : Dev × Bytes :=
  let all := rest ++ b
  let n := all.length / 256 * 256
  match ep with
  | none => (d, [])
  | some ep => (if n = 0 then d else d.pushOut ep (granulesOf e.pos e.tok e.idx (all.take n) false), all.drop n)

/-- An image engine's sample ends in a defect on every output (R211). -/
def Dev.imgFail (d : Dev) (f i : Nat) (outs : List Nat) (st : Status) : Dev :=
  let e := d.eng 5 i
  ((d.setEng 5 i e.closed).countDefect 5 i st).markOut f 5 i outs e.pos e.tok e.idx st

/-- An image engine's sample has ended: the last granules go out, and the stage is complete. -/
def Dev.imgFinish (d : Dev) (f i : Nat) (o0 o1 : Option Nat) : Dev :=
  let e := d.eng 5 i
  let s := match e.st with
    | .img s => s
    | _ => ImgSt.start
  let d := d.setEng 5 i Eng.idle
  let d := match o0 with
    | some ep => d.pushOut ep (granulesOf e.pos e.tok e.idx e.out true)
    | none => d
  let d := match o1 with
    | some ep => d.pushOut ep (granulesOf e.pos e.tok e.idx s.out1 true)
    | none => d
  d.stageComplete f 5 i e.pos e.tok

/-- The regions in force for a frame kept, and the frame remembered as processed (R247, R248). -/
def Dev.roiKeep (d : Dev) (f i : Nat) (c : Bytes) (h : PicHdr) (pos flags src : Nat) (rs : List Rect) : Dev :=
  let d := d.roiWrite c h.key h.seq 2 flags src rs
  let d := if flags ≠ 0 then d.inc ⟨R.IMG_ROI i, 63, 32⟩ else d
  match d.dueAt f (fld c 0x56 2) pos with
  | some due =>
    let l := (Map.get [] d.seq.roi i).filter (fun x => x.1 ≠ h.key)
    { d with seq := { d.seq with roi := Map.put [] d.seq.roi i (l ++ [(h.key, h.seq, due)]) } }
  | none => d

/-- IMG_PICTURE: the next picture record on input 0, checked in the order of R236, becomes tensors; after the last one
the sample is finished. -/
def Dev.imgPicture (d : Dev) (i : Nat) : Dev :=
  match d.epOf 5 i false 0 with
  | none => d
  | some (f, ei) =>
    if d.halted f then d else
    let o0 := (d.epOf 5 i true 0).map (fun x => x.2.ep)
    let o1 := (d.epOf 5 i true 1).map (fun x => x.2.ep)
    let outs := o0.toList ++ o1.toList
    let d := d.feed f 5 i ei.ep
    let e := d.eng 5 i
    if !e.active then d
    else if e.skip then (if e.arrived then d.setEng 5 i Eng.idle else d)
    else if e.mark ≠ 0 ∧ e.arrived then
      (d.setEng 5 i Eng.idle).markOut f 5 i outs e.pos e.tok e.idx e.mark
    else
      let c := d.config f 5 i
      let roi := fld c 1 1 = 2
      let s := match e.st with
        | .img s => s
        | _ => ImgSt.start
      if e.buf.isEmpty then (if e.arrived then d.imgFinish f i o0 o1 else d)
      else if roi ∧ !e.arrived then d
      else
        match picHdr e.buf with
        | none => if e.buf.length < 64 ∧ !e.arrived then d else d.imgFail f i outs St.decodeError
        | some h =>
          if e.buf.length < h.len then (if e.arrived then d.imgFail f i outs St.decodeError else d)
          else if 65535 < s.pic ∨ (roi ∧ h.len < e.buf.length) then d.imgFail f i outs St.decodeError
          else
            let id := d.sampleId f e.idx
            let (rect, flip, rot) := d.imgChoice f c h (d.epochOf f e.pos) id s.pic
            let pick := if roi then d.roiFor f i c h e.pos else some (0, 0xFFFFFFFF, rect.toList)
            match pick with
            | none => d
            | some (flags, src, rs) =>
              let p := rs.length * (imgLevels c).foldl (fun n l => n + l.2.1 * l.2.2) 0
              let units := e.units + cdiv p 64
              let l0 := s.len0 + (if o0.isSome then imgLen c 0 rs.length else 0)
              let l1 := s.len1 + (if o1.isSome then imgLen c 1 rs.length else 0)
              let lim := fld c 0x48 8
              if !roi ∧ rect.isNone then d.imgFail f i outs St.decodeError
              else if lim < l0 ∨ lim < l1 then d.imgFail f i outs St.outputLimit
              else if !withinCap (d.capOf f 5 i e) units then d.imgFail f i outs St.workCap
              else
                let pl := imgPlanes h e.buf
                let levels := rs.map (imgRegion c h pl flip rot)
                let fl := flags + 4 * b2n flip + 8 * rot
                let (d, r0) := d.cutOut e o0 e.out (imgOut c h 0 fl src rs levels)
                let (d, r1) := d.cutOut e o1 s.out1 (imgOut c h 1 fl src rs levels)
                let rest := e.buf.drop h.len
                let d := d.addWord (R.IMG_PICTURES i) 1
                let d := d.setEng 5 i { e with
                  units := units
                  buf := rest
                  out := r0
                  st := .img { pic := s.pic + 1, len0 := l0, len1 := l1, out1 := r1 } }
                let d := if roi then d.roiKeep f i c h e.pos flags src rs else d
                if e.arrived && rest.isEmpty then d.imgFinish f i o0 o1 else d

def execImgPicture (i : Nat) (s : State) : Host.Outcome State Fault Refusal := s.act .engine (fun d => d.imgPicture i)

end Sys2Proof.Machine
end

