-- ==== Sys2Proof/Machine/Tok.lean ====
section
/-! DEFINITION. The token engine (spec 09): BPE lanes, mask units and detokenizer lanes, and their commands. -/

namespace Sys2Proof.Machine

/-! ## The vocabulary (R253, R254) -/

/-- TYPE numbers of the resident VOCAB and GRAMMAR sections (R53). -/
def secVocab : Nat := 0xB
def secGrammar : Nat := 0xC

def Dev.vocabCount (d : Dev) (f : Nat) : Nat := d.sfld f secVocab 4 4
def Dev.byteToken (d : Dev) (f b : Nat) : Nat := d.sfld f secVocab (0x40 + 4 * b) 4

/-- Token t's record: OFFSET, LENGTH, FLAGS. -/
def Dev.tokenRec (d : Dev) (f t : Nat) : Nat × Nat × Nat :=
  let o := d.sfld f secVocab 0x10 8 + 16 * t
  (d.sfld f secVocab o 8, d.sfld f secVocab (o + 8) 2, d.sfld f secVocab (o + 10) 2)

/-- The bytes of token `t`. -/
def Dev.tokenBytes (d : Dev) (f t : Nat) : Bytes :=
  let (o, n, _) := d.tokenRec f t
  d.read (d.sectAt f secVocab + d.sfld f secVocab 0x28 8 + o) n

def Dev.tokenSpecial (d : Dev) (f t : Nat) : Bool := (d.tokenRec f t).2.2.testBit 0

/-- The merges in rank order: LEFT, RIGHT, RESULT. -/
def Dev.merges (d : Dev) (f : Nat) : List (Nat × Nat × Nat) :=
  let n := d.sfld f secVocab 8 4
  let b := d.read (d.sectAt f secVocab + d.sfld f secVocab 0x18 8) (16 * n)
  (chunks 16 b).map (fun r => (fld r 0 4, fld r 4 4, fld r 8 4))

/-- The class of a code point (R254): 0 where no range covers it. -/
def Dev.classOfCode (d : Dev) (f c : Nat) : Nat :=
  let n := d.sfld f secVocab 0xC 4
  let b := d.read (d.sectAt f secVocab + d.sfld f secVocab 0x20 8) (16 * n)
  match (chunks 16 b).find? (fun r => fld r 0 4 ≤ c && c ≤ fld r 4 4) with
  | some r => fld r 8 1
  | none => 0

/-- The break bit B(p, q) (R256). -/
def Dev.breakBit (d : Dev) (f p q : Nat) : Bool := bmBit (d.read (d.sectAt f secVocab + 0x440) 32) (16 * p + q)

/-! ## Units (R255) -/

/-- The length a lead byte asks for; 0 for a byte that starts no sequence. -/
def utf8Len (b : Nat) : Nat :=
  if b ≤ 0x7F then 1
  else if 0xC2 ≤ b ∧ b ≤ 0xDF then 2
  else if 0xE0 ≤ b ∧ b ≤ 0xEF then 3
  else if 0xF0 ≤ b ∧ b ≤ 0xF4 then 4
  else 0

/-- Whether continuation byte `k` of a sequence led by `b` lies in its range. -/
def utf8Cont (b k c : Nat) : Bool :=
  let lo := if k = 1 ∧ b = 0xE0 then 0xA0 else if k = 1 ∧ b = 0xF0 then 0x90 else 0x80
  let hi := if k = 1 ∧ b = 0xED then 0x9F else if k = 1 ∧ b = 0xF4 then 0x8F else 0xBF
  lo ≤ c && c ≤ hi

/-- The unit at the head of a text: its length, and its code point where it is valid. -/
def unitAt (t : Bytes) : Nat × Option Nat :=
  let b := fld t 0 1
  let n := utf8Len b
  if n = 0 ∨ t.length < n then (1, none)
  else if (List.range (n - 1)).all (fun k => utf8Cont b (k + 1) (fld t (k + 1) 1)) then
    let lead := if n = 1 then b else b % 2 ^ (7 - n)
    (n, some ((List.range (n - 1)).foldl (fun acc k => acc * 64 + fld t (k + 1) 1 % 64) lead))
  else (1, none)

/-! ## Merging (R257) -/

/-- The rank and RESULT of a pair. -/
def rankOf : List (Nat × Nat × Nat) → Nat → Nat → Nat → Option (Nat × Nat)
  | [], _, _, _ => none
  | (l, r, x) :: rest, k, a, b => if l = a ∧ r = b then some (k, x) else rankOf rest (k + 1) a b

/-- The lowest rank among neighbours, its RESULT and the first place it stands at. -/
def bestMerge (ms : List (Nat × Nat × Nat)) : Nat → List Nat → Option (Nat × Nat × Nat)
  | i, a :: b :: r =>
    match rankOf ms 0 a b, bestMerge ms (i + 1) (b :: r) with
    | some (k, x), some (k', x', i') => if k ≤ k' then some (k, x, i) else some (k', x', i')
    | some (k, x), none => some (k, x, i)
    | none, m => m
  | _, _ => none

/-- The token at `i` replaced by `x` and the one after it removed. -/
def mergeAt (l : List Nat) (i x : Nat) : List Nat := l.take i ++ x :: l.drop (i + 2)

/-- The merge rule; every merge shortens the list, so its length bounds the merges. -/
def bpeMerge (ms : List (Nat × Nat × Nat)) : Nat → List Nat → List Nat
  | 0, l => l
  | n + 1, l =>
    match bestMerge ms 0 l with
    | none => l
    | some (_, x, i) => bpeMerge ms n (mergeAt l i x)

/-- The tokens of a piece. -/
def Dev.pieceTokens (d : Dev) (f : Nat) (p : Bytes) : List Nat :=
  bpeMerge (d.merges f) p.length (p.map (fun b => d.byteToken f b.toNat))

/-! ## BPE lanes (R258, R259) -/

def BpeSt.start : BpeSt := { off := 0, prev := none, piece := [], tokens := 0, begun := false }

def Eng.bpe (e : Eng) : BpeSt :=
  match e.st with
  | .bpe s => s
  | _ => BpeSt.start

/-- Tokens written one by one, each checked against OUT_LIMIT (R258): the state, the output, and whether the limit
was met. -/
def bpeWrite (lim : Nat) : BpeSt → Bytes → List Nat → BpeSt × Bytes × Bool
  | s, out, [] => (s, out, false)
  | s, out, t :: r =>
    if lim < s.tokens + 1 then (s, out, true)
    else bpeWrite lim { s with tokens := s.tokens + 1 } (out ++ le 4 t) r

/-- What a lane's work has come to: goes on later, ended, or failed. -/
inductive LaneEnd where
  | more | ended
  | bad (st : Status)
  deriving DecidableEq, Repr

/-- Units formed and pieces emitted until the input at hand is used, a second run would have to be counted, or the
sample ends. -/
def Dev.bpeLoop (d : Dev) (f : Nat) (c : Bytes) (cap : Option Nat) (whole : Bool) :
    Nat → Bytes → BpeSt → Nat → Bool → Bytes → Bytes × BpeSt × Nat × Bytes × LaneEnd
  | 0, buf, s, units, _, out => (buf, s, units, out, .more)
  | fuel + 1, buf, s, units, counted, out =>
    let lim := fld c 0x10 8
    if buf.isEmpty then
      if !whole then (buf, s, units, out, .more) else
      let last := if s.piece.isEmpty then [] else d.pieceTokens f s.piece
      let eos := if (fld c 1 1).testBit 1 then [fld c 0xC 4] else []
      let (s, out, hitLim) := bpeWrite lim s out (last ++ eos)
      (buf, s, units, out, if hitLim then .bad St.outputLimit else .ended)
    else
      let need := max 1 (utf8Len (fld buf 0 1))
      if buf.length < need && !whole then (buf, s, units, out, .more) else
      let runs := cdiv (s.off + min need buf.length) 64
      if units < runs ∧ counted then (buf, s, units, out, .more)
      else if units < runs ∧ ¬ withinCap cap runs then (buf, s, units, out, .bad St.workCap)
      else
        let counted := counted || decide (units < runs)
        let units := max units runs
        let (n, code) := unitAt buf
        let u := buf.take n
        let k := (code.map (d.classOfCode f)).getD 0
        let cut := match s.prev with
          | none => false
          | some p => d.breakBit f p k || decide (fld c 4 4 < s.piece.length + n)
        let (s, out, hitLim) := if cut then bpeWrite lim s out (d.pieceTokens f s.piece) else (s, out, false)
        if hitLim then (buf, s, units, out, .bad St.outputLimit) else
        let s := { s with
          off := s.off + n
          prev := some k
          piece := if cut then u else s.piece ++ u }
        d.bpeLoop f c cap whole fuel (buf.drop n) s units counted out

/-- BPE_RUN: BOS at the start of the sample, then at most one new run counted, units formed and finished pieces
emitted. -/
def Dev.bpeRun (d : Dev) (i : Nat) : Dev :=
  d.engine 6 i (fun d f eo e =>
    let c := d.config f 6 i
    let s := e.bpe
    let was := s.tokens
    let bos := if !s.begun && (fld c 1 1).testBit 0 then [fld c 8 4] else []
    let (s, out, hitLim) := bpeWrite (fld c 0x10 8) { s with begun := true } [] bos
    let (buf, s, units, out, ends) :=
      if hitLim then (e.buf, s, e.units, out, LaneEnd.bad St.outputLimit)
      else d.bpeLoop f c (d.capOf f 6 i e) e.arrived (e.buf.length + 1) e.buf s e.units false out
    let d := d.addWord (R.TOK_BPE_TOKENS i) (s.tokens - was)
    let d := d.setEng 6 i { e with
      buf := buf
      units := units
      st := .bpe s }
    match ends with
    | .more => d.putOut 6 i eo out
    | .ended => (d.putOut 6 i eo out).finish f 6 i eo
    | .bad st => d.failSample f 6 i eo st)

def execBpeRun (i : Nat) (s : State) : Host.Outcome State Fault Refusal := s.act .engine (fun d => d.bpeRun i)

/-! ## Grammars (R260, R261) -/

/-- A field of grammar entry `g`. -/
def Dev.gramFld (d : Dev) (f g off n : Nat) : Nat := d.sfld f secGrammar (0x40 + 48 * g + off) n

/-- A state's transitions. -/
def Dev.transOf (d : Dev) (f g st : Nat) : List Bytes :=
  let o := d.gramFld f g 0x10 8 + 16 * st
  let first := d.sfld f secGrammar o 8
  let n := d.sfld f secGrammar (o + 8) 4
  chunks 16 (d.read (d.sectAt f secGrammar + d.gramFld f g 0x18 8 + 16 * first) (16 * n))

/-- A state's DEADEND_TOKEN. -/
def Dev.deadEnd (d : Dev) (f g st : Nat) : Nat := d.sfld f secGrammar (d.gramFld f g 0x10 8 + 16 * st + 0xC) 4

def trFirst (t : Bytes) : Nat := fld t 0 4
def trCount (t : Bytes) : Nat := fld t 4 4
def trNext (t : Bytes) : Nat := fld t 8 3
def trAction (t : Bytes) : Nat := fld t 0xB 1 % 4
def trTop (t : Bytes) : Nat := fld t 0xC 2
def trSym (t : Bytes) : Nat := fld t 0xE 2

/-- The stack top as TOP names it. -/
def topOf (stack : List Nat) : Nat := stack.headD 0xFFFE

/-- Whether a transition's action is feasible. -/
def trFeasible (max : Nat) (stack : List Nat) (t : Bytes) : Bool :=
  match trAction t with
  | 1 => stack.length < max
  | 2 | 3 => !stack.isEmpty
  | _ => true

/-- The stack after a transition. -/
def trStack (stack : List Nat) (t : Bytes) : List Nat :=
  match trAction t with
  | 1 => trSym t :: stack
  | 2 => stack.tail
  | 3 => trSym t :: stack.tail
  | _ => stack

/-- The transition that a token takes (R261). -/
def takes (ts : List Bytes) (stack : List Nat) (u : Nat) : Option Bytes :=
  let covers := fun (top : Nat) (t : Bytes) => trTop t = top && trFirst t ≤ u && u < trFirst t + trCount t
  match ts.find? (covers (topOf stack)) with
  | some t => some t
  | none => ts.find? (covers 0xFFFF)

/-- What is left of the range [a, b) outside ascending ranges (first, count). -/
def rangeMinus (b : Nat) : Nat → List (Nat × Nat) → List (Nat × Nat)
  | a, [] => if a < b then [(a, b - a)] else []
  | a, (x, n) :: r =>
    if x + n ≤ a then rangeMinus b a r
    else if b ≤ x then (if a < b then [(a, b - a)] else [])
    else (if a < x then [(a, x - a)] else []) ++ rangeMinus b (x + n) r

/-- A range put into an ascending list. -/
def insRange (x : Nat × Nat) : List (Nat × Nat) → List (Nat × Nat)
  | [] => [x]
  | y :: r => if x.1 ≤ y.1 then x :: y :: r else y :: insRange x r

/-- Ascending ranges merged where they touch or overlap. -/
def joinRanges : List (Nat × Nat) → List (Nat × Nat)
  | [] => []
  | (a, n) :: r =>
    match joinRanges r with
    | (b, m) :: r' => if b ≤ a + n then (a, max (a + n) (b + m) - a) :: r' else (a, n) :: (b, m) :: r'
    | [] => [(a, n)]

/-- The allowed tokens as the fewest ascending runs (R261, R263). -/
def allowedRuns (max : Nat) (ts : List Bytes) (stack : List Nat) : List (Nat × Nat) :=
  let ts := ts.filter (fun t => trCount t ≠ 0)
  let own := ts.filter (fun t => trTop t = topOf stack)
  let cover := own.map (fun t => (trFirst t, trCount t))
  let a := (own.filter (trFeasible max stack)).map (fun t => (trFirst t, trCount t))
  let b := ((ts.filter (fun t => trTop t = 0xFFFF)).filter (trFeasible max stack)).flatMap
    (fun t => rangeMinus (trFirst t + trCount t) (trFirst t) cover)
  joinRanges ((a ++ b).foldl (fun l x => insRange x l) [])

/-- Whether a token lies in a set given as runs. -/
def inRuns (m : List (Nat × Nat)) (u : Nat) : Bool := m.any (fun r => r.1 ≤ u && u < r.1 + r.2)

/-! ## Mask units (R262 to R266) -/

def MaskSt.start (state : Nat) : MaskSt :=
  { headed := false, fin := true, key := 0, seq := 0, left := none, state := state, stack := [], terminal := false,
    failed := false, pos := 0, outLen := 0 }

def Dev.maskSt (d : Dev) (f g : Nat) (e : Eng) : MaskSt :=
  match e.st with
  | .mask s => s
  | _ => MaskSt.start (d.gramFld f g 8 4)

/-- A mask record (R263). -/
def maskRecord (format v : Nat) (s : MaskSt) (t flags : Nat) (m : List (Nat × Nat)) : Bytes :=
  let hdr := fun (count : Nat) => le 8 s.pos ++ le 4 t ++ le 4 s.state ++ le 2 s.stack.length ++ le 2 flags
    ++ [0, 0, 0, 0] ++ le 4 count ++ [0, 0, 0, 0]
  if format = 0 then
    hdr 0 ++ le (cdiv v 512 * 64) (m.foldl (fun acc r => acc + (2 ^ r.2 - 1) * 2 ^ r.1) 0)
  else hdr m.length ++ m.flatMap (fun r => le 4 r.1 ++ le 4 r.2)

/-- The address of the sequence entry for (K, s) (R265). -/
def seqEntry (c : Bytes) (k s : Nat) : Nat :=
  fld c 0x10 8 + ((k % fld c 8 4) * fld c 0xC 2 + s % fld c 0xC 2) * 0x4000

def seqMagic : Bytes := [0x47, 0x4C, 0x4D, 0x53, 0x45, 0x51, 0x30, 0x31]

/-- The state that an entry restores, where the restore succeeds (R265). -/
def Dev.seqRestore (d : Dev) (c : Bytes) (k s : Nat) : Option MaskSt :=
  if fld c 8 4 = 0 ∨ s = 0 then none else
  let a := seqEntry c k (s - 1)
  let e := d.read a 0x40
  if e.take 8 = seqMagic ∧ fld e 8 4 = k ∧ fld e 0xC 4 = s - 1 ∧ fld e 0x10 4 = fld c 4 4 then
    some { MaskSt.start (fld e 0x14 4) with
      stack := ((chunks 2 (d.read (a + 0x40) (2 * fld e 0x20 2))).map unle).reverse
      terminal := (fld e 0x22 2).testBit 0
      failed := (fld e 0x22 2).testBit 2
      pos := fld e 0x18 8 }
  else none

/-- A chunk's final state saved (R264, R265). -/
def Dev.seqSave (d : Dev) (i : Nat) (c : Bytes) (s : MaskSt) : Dev :=
  let a := seqEntry c s.key s.seq
  let stack := s.stack.reverse.flatMap (fun x => le 2 x)
  let d := d.write (a + 8) (le 4 s.key ++ le 4 s.seq ++ le 4 (fld c 4 4) ++ le 4 s.state ++ le 8 s.pos
    ++ le 2 s.stack.length ++ le 2 (b2n s.terminal + 4 * b2n s.failed) ++ List.replicate 28 0
    ++ slice stack 0 8192 ++ List.replicate 8128 0)
  (d.write a seqMagic).inc (R.TOK_MASK_SEQ_SAVES i)

/-- The engine's mask state and what is left of its input. -/
def Dev.maskGo (d : Dev) (i : Nat) (e : Eng) (s : MaskSt) (n : Nat) : Dev :=
  d.setEng 7 i { e with
    buf := e.buf.drop n
    st := .mask s }

/-- The end of a mask unit's sample, where it has come (R252, R264): a chunk that is too short is a format error,
one without END saves its state. -/
def Dev.maskEnd (d : Dev) (f i eo : Nat) (c : Bytes) : Dev :=
  let e := d.eng 7 i
  match e.st with
  | .mask s =>
    if !e.active || e.skip || !e.arrived || !e.buf.isEmpty || !s.headed then d
    else if (s.left.getD 0) ≠ 0 then d.failSample f 7 i eo St.decodeError
    else (if s.fin then d else d.seqSave i c s).finish f 7 i eo
  | _ => d

/-- A chunk header keeps to its layout (R264). -/
def chunkHeaderOk (h : Bytes) : Bool :=
  h.take 4 == [0x47, 0x4C, 0x54, 0x43] && fld h 4 2 < 4 && fld h 6 2 == 0 && fld h 0x14 12 == 0

/-- MASK_CHUNK_HEADER (R264). -/
def Dev.maskHeader (d : Dev) (i : Nat) : Dev :=
  d.engine 7 i (fun d f eo e =>
    let c := d.config f 7 i
    let s := d.maskSt f (fld c 4 4) e
    if fld c 2 1 = 0 ∨ s.headed then d
    else if e.buf.length < 32 then (if e.arrived then d.failSample f 7 i eo St.decodeError else d)
    else
      let h := e.buf.take 32
      let start := (fld h 4 2).testBit 0
      let fin := (fld h 4 2).testBit 1
      let key := fld h 8 4
      let seq := fld h 0xC 4
      let got := if start then some (MaskSt.start (d.gramFld f (fld c 4 4) 8 4)) else d.seqRestore c key seq
      match got with
      | none => d.failSample f 7 i eo St.decodeError
      | some m =>
        if !chunkHeaderOk h ∨ (!fin ∧ fld c 8 4 = 0) then d.failSample f 7 i eo St.decodeError else
        let d := if start then d else d.inc (R.TOK_MASK_SEQ_RESTORES i)
        let d := d.maskGo i e { m with
          headed := true
          fin := fin
          key := key
          seq := seq
          left := some (fld h 0x10 4) } 32
        d.maskEnd f i eo c)

def execMaskChunkHeader (i : Nat) (s : State) : Host.Outcome State Fault Refusal :=
  s.act .engine (fun d => d.maskHeader i)

/-- What step(i, t) of R262 makes of a token: the record's flags and mask, the state after it, and whether a dead end
is met, a violation is met, and the violation is a defect. -/
def maskStep (ts : List Bytes) (dead stackMax : Nat) (defect : Bool) (s : MaskSt) (t : Nat) :
    Nat × List (Nat × Nat) × MaskSt × Bool × Bool × Bool :=
  if s.failed then (4, [], s, false, false, false) else
  let m := if s.terminal then [(dead, 1)] else allowedRuns stackMax ts s.stack
  let named := dead ≠ 0xFFFFFFFF
  if m.isEmpty ∧ ¬ named then (6, [], { s with failed := true }, true, false, false) else
  let (m, s) := if m.isEmpty then ([(dead, 1)], { s with terminal := true }) else (m, s)
  let tf := b2n s.terminal
  if inRuns m t then
    let s := if s.terminal then s else
      match takes ts s.stack t with
      | some tr => { s with
          state := trNext tr
          stack := trStack s.stack tr }
      | none => s
    (tf, m, s, false, false, false)
  else if defect then (tf, m, s, false, true, true)
  else (tf + 12, m, { s with failed := true }, false, true, false)

/-- MASK_TOKEN: one item of the stream (R252, R262, R266, R269). -/
def Dev.maskToken (d : Dev) (i : Nat) : Dev :=
  d.engine 7 i (fun d f eo e =>
    let c := d.config f 7 i
    let g := fld c 4 4
    let s := d.maskSt f g e
    let s := if fld c 2 1 = 0 then { s with headed := true } else s
    let capped := !withinCap (d.capOf f 7 i e) (e.units + 1)
    if !s.headed then d
    else if e.buf.isEmpty then (d.maskGo i e s 0).maskEnd f i eo c
    else if e.buf.length < 4 then
      (if !e.arrived then d else d.failSample f 7 i eo (if capped then St.workCap else St.decodeError))
    else if capped then d.failSample f 7 i eo St.workCap
    else
      let t := fld e.buf 0 4
      let v := d.vocabCount f
      if v ≤ t ∨ s.left = some 0 then d.failSample f 7 i eo St.decodeError else
      let d := d.addWord (R.TOK_MASK_TOKENS i) 1
      let (flags, m, s', dead, viol, bad) :=
        maskStep (d.transOf f g s.state) (d.deadEnd f g s.state) (d.gramFld f g 2 2) (fld c 3 1 = 1) s t
      let d := if viol then d.inc ⟨R.TOK_MASK_EVENTS i, 31, 0⟩ else d
      if bad then d.failSample f 7 i eo St.decodeError else
      let rec_ := maskRecord (fld c 1 1) v s t flags m
      if fld c 0x18 8 < s.outLen + rec_.length then d.failSample f 7 i eo St.outputLimit else
      let d := if dead then (d.inc ⟨R.TOK_MASK_EVENTS i, 63, 32⟩).raise 384 f else d
      let d := d.maskGo i { e with units := e.units + 1 } { s' with
        left := s.left.map (· - 1)
        pos := s.pos + 1
        outLen := s.outLen + rec_.length } 4
      (d.putOut 7 i eo rec_).maskEnd f i eo c)

def execMaskToken (i : Nat) (s : State) : Host.Outcome State Fault Refusal :=
  s.act .engine (fun d => d.maskToken i)

/-! ## Detokenizer lanes (R271, R272) -/

/-- What one token puts out. -/
def Dev.emission (d : Dev) (f : Nat) (c : Bytes) (t : Nat) : Bytes :=
  let special := d.tokenSpecial f t
  let b := d.tokenBytes f t
  if special && (fld c 2 1).testBit 0 then []
  else if fld c 1 1 = 0 then b
  else padTo 8 (le 4 t ++ le 2 b.length ++ le 2 (b2n special) ++ b)

/-- DETOK_TOKEN: one item of the stream (R252, R269, R271). -/
def Dev.detokToken (d : Dev) (i : Nat) : Dev :=
  d.engine 8 i (fun d f eo e =>
    let c := d.config f 8 i
    let n := match e.st with
      | .detok n => n
      | _ => 0
    let capped := !withinCap (d.capOf f 8 i e) (e.units + 1)
    if e.buf.isEmpty then (if e.arrived then d.finish f 8 i eo else d)
    else if e.buf.length < 4 then
      (if !e.arrived then d else d.failSample f 8 i eo (if capped then St.workCap else St.decodeError))
    else if capped then d.failSample f 8 i eo St.workCap
    else
      let t := fld e.buf 0 4
      if d.vocabCount f ≤ t then d.failSample f 8 i eo St.decodeError else
      let d := d.addWord (R.TOK_DTK_TOKENS i) 1
      let em := d.emission f c t
      if fld c 8 8 < n + em.length then d.failSample f 8 i eo St.outputLimit else
      let d := d.setEng 8 i { e with
        units := e.units + 1
        buf := e.buf.drop 4
        st := .detok (n + em.length) }
      let d := d.putOut 8 i eo em
      if e.arrived && (e.buf.drop 4).isEmpty then d.finish f 8 i eo else d)

def execDetokToken (i : Nat) (s : State) : Host.Outcome State Fault Refusal :=
  s.act .engine (fun d => d.detokToken i)

end Sys2Proof.Machine
end

