-- ==== Sys2Proof/Machine/Vde.lean ====
section
/-! DEFINITION. The video decoders (R226 to R232, R235, R236). What a bitstream decodes to is Config's (log entry 15). -/

namespace Sys2Proof.Machine

/-- A video sample header keeps to R226, for the codecs of a record. -/
def vdeHeaderOk (codecs : Nat) (h : Bytes) : Bool :=
  h.take 4 == [0x47, 0x56, 0x53, 0x31] && 1 ≤ fld h 4 1 && fld h 4 1 ≤ 3 && codecs.testBit (fld h 4 1 - 1) && fld h 5 1 < 4
    && fld h 6 2 == 0 && fld h 0x18 8 == 0 && (!(fld h 5 1).testBit 0 || 1 ≤ fld h 0xC 4)

/-- The address of the context entry for (K, s) (R231). -/
def vdeEntry (c : Bytes) (k s : Nat) : Nat :=
  fld c 8 8 + ((k % fld c 6 2) * fld c 5 1 + s % fld c 5 1) * fld c 0x10 8

def vdeMagic : Bytes := [0x47, 0x4C, 0x56, 0x43, 0x54, 0x58, 0x30, 0x31]

/-- The private bytes that a CONT_IN header restores, where the restore succeeds (R232). -/
def Dev.vdeRestore (d : Dev) (c h : Bytes) : Option Bytes :=
  if fld c 6 2 = 0 ∨ fld h 0xC 4 = 0 then none else
  let a := vdeEntry c (fld h 8 4) (fld h 0xC 4 - 1)
  let e := d.read a 0x1C
  if e.take 8 = vdeMagic ∧ fld e 8 1 = fld h 4 1 ∧ fld e 0xC 4 = fld h 8 4 ∧ fld e 0x10 4 = fld h 0xC 4 - 1 then
    some (d.read (a + 0x1000) (min (fld e 0x14 8) (fld c 0x10 8) - 0x1000))
  else none

/-- VDE_SAMPLE_START: rows 1 and 2 of R236. -/
def Dev.vdeStart (d : Dev) (i : Nat) : Dev :=
  d.engine 3 i (fun d f eo e =>
    if e.st ≠ .none then d
    else if e.buf.length < 32 then (if e.arrived then d.failSample f 3 i eo St.decodeError else d)
    else
      let c := d.config f 3 i
      let h := e.buf.take 32
      let contIn := (fld h 5 1).testBit 0
      let got := if contIn then d.vdeRestore c h else some []
      if !vdeHeaderOk (fld c 1 1) h then d.failSample f 3 i eo St.decodeError else
      match got with
      | none => d.failSample f 3 i eo St.decodeError
      | some saved =>
        if (fld h 5 1).testBit 1 ∧ fld c 6 2 = 0 then d.failSample f 3 i eo St.decodeError else
        let d := if contIn then d.inc (R.VDE_CTX_RESTORES i) else d
        d.setEng 3 i { e with
          buf := e.buf.drop 32
          st := .vde { hdr := h, saved := saved, k := 0, shown := 0, selected := 0, written := 0 } })

def execVdeSampleStart (i : Nat) (s : State) : Host.Outcome State Fault Refusal := s.act .engine (fun d => d.vdeStart i)

/-- The header of the picture record of an output picture (R225, R229). -/
def vdePicHdr (c h : Bytes) (p : Config.VidPic) (n : Nat) : PicHdr :=
  let codec := fld h 4 1
  let matrix := match p.matrix with
    | some 1 => 1
    | some 5 => 0
    | some 6 => 0
    | some 9 => 2
    | _ => fld c 3 1
  let full := match p.full with
    | some b => b2n b
    | none => fld c 4 1
  let siting := if codec = 3 then (if p.loc = 2 then 2 else 1) else if p.loc = 1 then 0 else if p.loc = 2 then 2 else 1
  { depth := if p.ten then 10 else 8, planes := if p.mono then 1 else 3, sx := b2n (!p.mono), sy := b2n (!p.mono),
    width := p.width, height := p.height, matrix := matrix, full := full, siting := siting, picture := n, key := fld h 8 4,
    seq := fld h 0xC 4 }

/-- The records of the selected ones among output pictures numbered from `shown` (R230): the records, and how many
were selected before and with them. -/
def vdeSelect (c h : Bytes) : Nat → Nat → List Config.VidPic → List Bytes × Nat
  | _, sel, [] => ([], sel)
  | n, sel, p :: r =>
    let first := fld c 0x18 4
    if first ≤ n ∧ (n - first) % fld c 0x1C 4 = 0 ∧ sel < fld c 0x20 4 then
      let (l, sel) := vdeSelect c h (n + 1) (sel + 1) r
      ((vdePicHdr c h p n).record p.planes :: l, sel)
    else vdeSelect c h (n + 1) sel r

/-- A bitstream that has been decoded to its end, or as far as it is wanted: the extent's length is judged, and a
sample that saves no context is finished (R226, R230). -/
def Dev.vdeEnd (d : Dev) (f i eo : Nat) (e : Eng) (s : VdeSt) : Dev :=
  if fld s.hdr 0x10 8 ≠ e.buf.length then d.failSample f 3 i eo St.decodeError
  else if (fld s.hdr 5 1).testBit 1 then d
  else d.finish f 3 i eo

/-- VDE_PICTURE_DECODE: the next picture in decode order, rows 3 to 7 of R236. -/
def Dev.vdePicture (d : Dev) (i : Nat) : Dev :=
  d.engine 3 i (fun d f eo e =>
    match e.st with
    | .vde s =>
      if !e.arrived then d else
      let c := d.config f 3 i
      let h := s.hdr
      let keep := (fld h 5 1).testBit 1
      let codec := fld h 4 1
      if !keep ∧ fld c 0x20 4 ≤ s.selected then d.vdeEnd f i eo e s
      else if s.k = 0 ∧ !(fld h 5 1).testBit 0 ∧ !Config.vidStart codec e.buf then d.failSample f 3 i eo St.decodeError
      else
        match Config.vidStep codec (fld c 2 1 = 1) s.saved e.buf s.k with
        | .outside => d.failSample f 3 i eo St.decodeError
        | .ended sound => if sound then d.vdeEnd f i eo e s else d.failSample f 3 i eo St.decodeError
        | .picture cw ch state sound outs =>
          let (recs, sel) := vdeSelect c h s.shown s.selected outs
          let out := recs.flatten
          let units := e.units + cdiv cw 16 * cdiv ch 16
          if !(1 ≤ cw && cw ≤ 8192 && 1 ≤ ch && ch ≤ 8192 && cw * ch ≤ 35651584) then d.failSample f 3 i eo St.decodeError
          else if fld c 0x28 8 < s.written + out.length ∨ (keep ∧ fld c 0x10 8 < state) then
            d.failSample f 3 i eo St.outputLimit
          else if !withinCap (d.capOf f 3 i e) units then d.failSample f 3 i eo St.workCap
          else if !sound then d.failSample f 3 i eo St.decodeError
          else
            let s := { s with
              k := s.k + 1
              shown := s.shown + outs.length
              selected := sel
              written := s.written + out.length }
            let d := d.setEng 3 i { e with
              units := units
              st := .vde s }
            let d := (d.putOut 3 i eo out).addWord (R.VDE_PICTURES i) recs.length
            if !keep ∧ fld c 0x20 4 ≤ sel then d.vdeEnd f i eo e s else d
    | _ => d)

def execVdePictureDecode (i : Nat) (s : State) : Host.Outcome State Fault Refusal :=
  s.act .engine (fun d => d.vdePicture i)

/-- VDE_CONTEXT_SAVE: a CONT_OUT sample decoded to its end without a defect saves its context and is finished (R231,
R232). -/
def Dev.vdeSave (d : Dev) (i : Nat) : Dev :=
  d.engine 3 i (fun d f eo e =>
    match e.st with
    | .vde s =>
      let c := d.config f 3 i
      let h := s.hdr
      let grain := fld c 2 1 = 1
      if !e.arrived ∨ !(fld h 5 1).testBit 1 ∨ Config.vidStep (fld h 4 1) grain s.saved e.buf s.k ≠ .ended true then d
      else if fld h 0x10 8 ≠ e.buf.length then d.failSample f 3 i eo St.decodeError
      else
        let priv := Config.vidContext (fld h 4 1) grain s.saved e.buf
        let used := 0x1000 + priv.length
        if fld c 0x10 8 < used then d.failSample f 3 i eo St.outputLimit else
        let a := vdeEntry c (fld h 8 4) (fld h 0xC 4)
        let d := d.write (a + 0x1000) priv
        let d := d.write a (vdeMagic ++ le 1 (fld h 4 1) ++ [0, 0, 0] ++ le 4 (fld h 8 4) ++ le 4 (fld h 0xC 4) ++ le 8 used
          ++ List.replicate (0x1000 - 0x1C) 0)
        (d.inc (R.VDE_CTX_SAVES i)).finish f 3 i eo
    | _ => d)

def execVdeContextSave (i : Nat) (s : State) : Host.Outcome State Fault Refusal := s.act .engine (fun d => d.vdeSave i)

end Sys2Proof.Machine
end

