-- ==== Sys2Proof/Machine/Dispatch.lean ====
section
/-! DEFINITION. Every command with its meaning: one arm per constructor of Instr, in the table's order. -/

namespace Sys2Proof.Machine

def exec (i : Instr) (s : State) : Host.Outcome State Fault Refusal :=
  match i with
  | .registerWrite off size v => Sys2Proof.Machine.execRegisterWrite off size v s
  | .deviceTick => Sys2Proof.Machine.execDeviceTick s
  | .steepBoundary f => Sys2Proof.Machine.execSteepBoundary f s
  | .overrun f => Sys2Proof.Machine.execOverrun f s
  | .scheduleLost f => Sys2Proof.Machine.execScheduleLost f s
  | .loadDevice => Sys2Proof.Machine.execLoadDevice s
  | .loadFunction f => Sys2Proof.Machine.execLoadFunction f s
  | .changeFunction f => Sys2Proof.Machine.execChangeFunction f s
  | .unloadFunction f => Sys2Proof.Machine.execUnloadFunction f s
  | .loaderOpInvalid op f => Sys2Proof.Machine.execLoaderOpInvalid op f s
  | .loadAbort => Sys2Proof.Machine.execLoadAbort s
  | .loaderChecksDone src => Sys2Proof.Machine.execLoaderChecksDone src s
  | .tickArm src barrier => Sys2Proof.Machine.execTickArm src barrier s
  | .tickRearmWrite w => Sys2Proof.Machine.execTickRearmWrite w s
  | .start f => Sys2Proof.Machine.execStart f s
  | .stop f => Sys2Proof.Machine.execStop f s
  | .fnCmdInvalid f three => Sys2Proof.Machine.execFnCmdInvalid f three s
  | .kill f => Sys2Proof.Machine.execKill f s
  | .stage f consumers => Sys2Proof.Machine.execStage f consumers s
  | .channelGranuleWrite ch => Sys2Proof.Machine.execChannelGranuleWrite ch s
  | .channelCreditReturn ch => Sys2Proof.Machine.execChannelCreditReturn ch s
  | .spliceGranule n => Sys2Proof.Machine.execSpliceGranule n s
  | .assemblerGranule f port => Sys2Proof.Machine.execAssemblerGranule f port s
  | .shardDelivery f consumer => Sys2Proof.Machine.execShardDelivery f consumer s
  | .manifestSign => Sys2Proof.Machine.execManifestSign s
  | .mediaCodewordRead f pos o replica => Sys2Proof.Machine.execMediaCodewordRead f pos o replica s
  | .mediaWindowRead o => Sys2Proof.Machine.execMediaWindowRead o s
  | .nandCommandTimeout ch die resetFails => Sys2Proof.Machine.execNandCommandTimeout ch die resetFails s
  | .parityProgram sb page ok => Sys2Proof.Machine.execParityProgram sb page ok s
  | .blockRefresh newBlock ok => Sys2Proof.Machine.execBlockRefresh newBlock ok s
  | .blockRepair newBlock ok => Sys2Proof.Machine.execBlockRepair newBlock ok s
  | .relocationCommit => Sys2Proof.Machine.execRelocationCommit s
  | .mapFloorWrite v => Sys2Proof.Machine.execMapFloorWrite v s
  | .mapFloorFreeDone => Sys2Proof.Machine.execMapFloorFreeDone s
  | .readCountSave => Sys2Proof.Machine.execReadCountSave s
  | .gcRun => Sys2Proof.Machine.execGcRun s
  | .gcMapUpdate ok => Sys2Proof.Machine.execGcMapUpdate ok s
  | .mediaStartup found => Sys2Proof.Machine.execMediaStartup found s
  | .healthLogSave => Sys2Proof.Machine.execHealthLogSave s
  | .tempHistoryRecord nandMax nandMin => Sys2Proof.Machine.execTempHistoryRecord nandMax nandMin s
  | .read t => Sys2Proof.Machine.execRead t s
  | .write t => Sys2Proof.Machine.execWrite t s
  | .flush t => Sys2Proof.Machine.execFlush t s
  | .deallocate t => Sys2Proof.Machine.execDeallocate t s
  | .nsCreate t => Sys2Proof.Machine.execNsCreate t s
  | .nsDelete t => Sys2Proof.Machine.execNsDelete t s
  | .nsList t => Sys2Proof.Machine.execNsList t s
  | .identify t => Sys2Proof.Machine.execIdentify t s
  | .health t => Sys2Proof.Machine.execHealth t s
  | .mapExport t => Sys2Proof.Machine.execMapExport t s
  | .seal t => Sys2Proof.Machine.execSeal t s
  | .stcOpcodeInvalid t => Sys2Proof.Machine.execStcOpcodeInvalid t s
  | .stcGoRejected t => Sys2Proof.Machine.execStcGoRejected t s
  | .stcCommandComplete t fails => Sys2Proof.Machine.execStcCommandComplete t fails s
  | .powerRequestP0 => Sys2Proof.Machine.execPowerRequestP0 s
  | .powerRequestP1 => Sys2Proof.Machine.execPowerRequestP1 s
  | .powerRequestP2 => Sys2Proof.Machine.execPowerRequestP2 s
  | .powerRequestP3 => Sys2Proof.Machine.execPowerRequestP3 s
  | .powerEntryCommit => Sys2Proof.Machine.execPowerEntryCommit s
  | .hbmSelfRefreshEntry => Sys2Proof.Machine.execHbmSelfRefreshEntry s
  | .rcxFrameHeader n => Sys2Proof.Machine.execRcxFrameHeader n s
  | .rcxBlockDecode n => Sys2Proof.Machine.execRcxBlockDecode n s
  | .rcxFrameTrailer n => Sys2Proof.Machine.execRcxFrameTrailer n s
  | .rcxCompressSample n => Sys2Proof.Machine.execRcxCompressSample n s
  | .vdeSampleStart n => Sys2Proof.Machine.execVdeSampleStart n s
  | .vdePictureDecode n => Sys2Proof.Machine.execVdePictureDecode n s
  | .vdeContextSave n => Sys2Proof.Machine.execVdeContextSave n s
  | .jpgScanDecode n => Sys2Proof.Machine.execJpgScanDecode n s
  | .imgPicture n => Sys2Proof.Machine.execImgPicture n s
  | .regionTableArrival n => Sys2Proof.Machine.execRegionTableArrival n s
  | .bpeRun n => Sys2Proof.Machine.execBpeRun n s
  | .maskChunkHeader n => Sys2Proof.Machine.execMaskChunkHeader n s
  | .maskToken n => Sys2Proof.Machine.execMaskToken n s
  | .detokToken n => Sys2Proof.Machine.execDetokToken n s
  | .queueItemAdmit q => Sys2Proof.Machine.execQueueItemAdmit q s
  | .attemptStart q core => Sys2Proof.Machine.execAttemptStart q core s
  | .itemSteal q core => Sys2Proof.Machine.execItemSteal q core s
  | .coreWithdraw c => Sys2Proof.Machine.execCoreWithdraw c s
  | .coreRestore c => Sys2Proof.Machine.execCoreRestore c s
  | .coreFailure c addr => Sys2Proof.Machine.execCoreFailure c addr s
  | .alu0 t g o => Sys2Proof.Machine.execAlu0 t g o s
  | .alu1 t g o => Sys2Proof.Machine.execAlu1 t g o s
  | .alu2 t g o => Sys2Proof.Machine.execAlu2 t g o s
  | .addi t g o => Sys2Proof.Machine.execAddi t g o s
  | .andi t g o => Sys2Proof.Machine.execAndi t g o s
  | .ori t g o => Sys2Proof.Machine.execOri t g o s
  | .xori t g o => Sys2Proof.Machine.execXori t g o s
  | .shifti t g o => Sys2Proof.Machine.execShifti t g o s
  | .movi t g o => Sys2Proof.Machine.execMovi t g o s
  | .lit t g o => Sys2Proof.Machine.execLit t g o s
  | .cmp t g o => Sys2Proof.Machine.execCmp t g o s
  | .plog t g o => Sys2Proof.Machine.execPlog t g o s
  | .srd t g o => Sys2Proof.Machine.execSrd t g o s
  | .swr t g o => Sys2Proof.Machine.execSwr t g o s
  | .draw t g o => Sys2Proof.Machine.execDraw t g o s
  | .fp32 t g o => Sys2Proof.Machine.execFp32 t g o s
  | .fp64 t g o => Sys2Proof.Machine.execFp64 t g o s
  | .fcmp t g o => Sys2Proof.Machine.execFcmp t g o s
  | .fcvt t g o => Sys2Proof.Machine.execFcvt t g o s
  | .ldu8 t g o => Sys2Proof.Machine.execLdu8 t g o s
  | .lds8 t g o => Sys2Proof.Machine.execLds8 t g o s
  | .ldu16 t g o => Sys2Proof.Machine.execLdu16 t g o s
  | .lds16 t g o => Sys2Proof.Machine.execLds16 t g o s
  | .ldu32 t g o => Sys2Proof.Machine.execLdu32 t g o s
  | .lds32 t g o => Sys2Proof.Machine.execLds32 t g o s
  | .ld64 t g o => Sys2Proof.Machine.execLd64 t g o s
  | .st8 t g o => Sys2Proof.Machine.execSt8 t g o s
  | .st16 t g o => Sys2Proof.Machine.execSt16 t g o s
  | .st32 t g o => Sys2Proof.Machine.execSt32 t g o s
  | .st64 t g o => Sys2Proof.Machine.execSt64 t g o s
  | .vld t g o => Sys2Proof.Machine.execVld t g o s
  | .vst t g o => Sys2Proof.Machine.execVst t g o s
  | .atom t g o => Sys2Proof.Machine.execAtom t g o s
  | .fatom t g o => Sys2Proof.Machine.execFatom t g o s
  | .xadd t g o => Sys2Proof.Machine.execXadd t g o s
  | .fence t g o => Sys2Proof.Machine.execFence t g o s
  | .wait t g o => Sys2Proof.Machine.execWait t g o s
  | .waitConditionMet t => Sys2Proof.Machine.execWaitConditionMet t s
  | .waitTimeout t => Sys2Proof.Machine.execWaitTimeout t s
  | .bar t g => Sys2Proof.Machine.execBar t g s
  | .varith t g o => Sys2Proof.Machine.execVarith t g o s
  | .vlogic t g o => Sys2Proof.Machine.execVlogic t g o s
  | .vcmp t g o => Sys2Proof.Machine.execVcmp t g o s
  | .vred t g o => Sys2Proof.Machine.execVred t g o s
  | .vcvt t g o => Sys2Proof.Machine.execVcvt t g o s
  | .vmove t g o => Sys2Proof.Machine.execVmove t g o s
  | .tzero t g o => Sys2Proof.Machine.execTzero t g o s
  | .tload t g o => Sys2Proof.Machine.execTload t g o s
  | .tstore t g o => Sys2Proof.Machine.execTstore t g o s
  | .tmma t g o => Sys2Proof.Machine.execTmma t g o s
  | .br t g o => Sys2Proof.Machine.execBr t g o s
  | .call t g o => Sys2Proof.Machine.execCall t g o s
  | .jr t g o => Sys2Proof.Machine.execJr t g o s
  | .done t g o => Sys2Proof.Machine.execDone t g o s
  | .halt t g => Sys2Proof.Machine.execHalt t g s
  | .nop t g => Sys2Proof.Machine.execNop t g s
  | .portLaneLock p => Sys2Proof.Machine.execPortLaneLock p s
  | .dataFrame p frame uncorrectable corrected => Sys2Proof.Machine.execDataFrame p frame uncorrectable corrected s
  | .controlFrame p frame corrected => Sys2Proof.Machine.execControlFrame p frame corrected s
  | .replayTimeout p => Sys2Proof.Machine.execReplayTimeout p s
  | .controlFrameSend p => Sys2Proof.Machine.execControlFrameSend p s
  | .linkRxTimeout p => Sys2Proof.Machine.execLinkRxTimeout p s
  | .retrainTimeout p => Sys2Proof.Machine.execRetrainTimeout p s
  | .downRetrain p => Sys2Proof.Machine.execDownRetrain p s
  | .frameTransmitStart p => Sys2Proof.Machine.execFrameTransmitStart p s
  | .ethFrame p f => Sys2Proof.Machine.execEthFrame p f s
  | .portEnable p v => Sys2Proof.Machine.execPortEnable p v s
  | .nodeIdWrite v => Sys2Proof.Machine.execNodeIdWrite v s
  | .fenceWrite d v => Sys2Proof.Machine.execFenceWrite d v s
  | .routeCommitGo => Sys2Proof.Machine.execRouteCommitGo s
  | .create qp => Sys2Proof.Machine.execCreate qp s
  | .destroy qp => Sys2Proof.Machine.execDestroy qp s
  | .destroyComplete => Sys2Proof.Machine.execDestroyComplete s
  | .query qp => Sys2Proof.Machine.execQuery qp s
  | .qpCmdInvalid qp => Sys2Proof.Machine.execQpCmdInvalid qp s
  | .open index pd access => Sys2Proof.Machine.execOpen index pd access s
  | .revoke index => Sys2Proof.Machine.execRevoke index s
  | .windowClosed index => Sys2Proof.Machine.execWindowClosed index s
  | .pdWrite pd v => Sys2Proof.Machine.execPdWrite pd v s
  | .peerEntryWrite f d v => Sys2Proof.Machine.execPeerEntryWrite f d v s
  | .tcConfigWrite t v => Sys2Proof.Machine.execTcConfigWrite t v s
  | .transportRequestIssue owner node token k parts => Sys2Proof.Machine.execTransportRequestIssue owner node token k parts s
  | .transportWrite => Sys2Proof.Machine.execTransportWrite s
  | .readReq => Sys2Proof.Machine.execReadReq s
  | .atomic => Sys2Proof.Machine.execAtomic s
  | .readResp => Sys2Proof.Machine.execReadResp s
  | .atomicResp => Sys2Proof.Machine.execAtomicResp s
  | .ack => Sys2Proof.Machine.execAck s
  | .nak => Sys2Proof.Machine.execNak s
  | .grant => Sys2Proof.Machine.execGrant s
  | .transportRetransmitTimeout qp => Sys2Proof.Machine.execTransportRetransmitTimeout qp s
  | .rnrWaitExpiry qp => Sys2Proof.Machine.execRnrWaitExpiry qp s
  | .qpStateFetched qp => Sys2Proof.Machine.execQpStateFetched qp s
  | .rocePacket => Sys2Proof.Machine.execRocePacket s
  | .roceAckTimeout qp => Sys2Proof.Machine.execRoceAckTimeout qp s
  | .cnp => Sys2Proof.Machine.execCnp s
  | .gateListGo p entries => Sys2Proof.Machine.execGateListGo p entries s
  | .gateListCommit p => Sys2Proof.Machine.execGateListCommit p s
  | .gateEntryChange p => Sys2Proof.Machine.execGateEntryChange p s
  | .contrib => Sys2Proof.Machine.execContrib s
  | .result => Sys2Proof.Machine.execResult s
  | .fail => Sys2Proof.Machine.execFail s
  | .localContributionReady grp input => Sys2Proof.Machine.execLocalContributionReady grp input s
  | .install grp => Sys2Proof.Machine.execInstall grp s
  | .remove grp => Sys2Proof.Machine.execRemove grp s
  | .colCmdInvalid grp three => Sys2Proof.Machine.execColCmdInvalid grp three s
  | .colInstanceTimeout grp => Sys2Proof.Machine.execColInstanceTimeout grp s
  | .timeExchangeSend p => Sys2Proof.Machine.execTimeExchangeSend p s
  | .sync => Sys2Proof.Machine.execSync s
  | .delayReq => Sys2Proof.Machine.execDelayReq s
  | .delayResp => Sys2Proof.Machine.execDelayResp s
  | .syncLossTimeout => Sys2Proof.Machine.execSyncLossTimeout s
  | .accurateClear => Sys2Proof.Machine.execAccurateClear s
  | .ftSet ns => Sys2Proof.Machine.execFtSet ns s
  | .ftNsRead => Sys2Proof.Machine.execFtNsRead s
  | .timCtrlWrite v => Sys2Proof.Machine.execTimCtrlWrite v s
  | .ppsEdge => Sys2Proof.Machine.execPpsEdge s
  | .arrive b => Sys2Proof.Machine.execArrive b s
  | .barArrive => Sys2Proof.Machine.execBarArrive s
  | .barRelease => Sys2Proof.Machine.execBarRelease s
  | .barrierRelease b => Sys2Proof.Machine.execBarrierRelease b s
  | .cancel b => Sys2Proof.Machine.execCancel b s
  | .uncorrectableError loc => Sys2Proof.Machine.execUncorrectableError loc s
  | .hbmScrub addr found => Sys2Proof.Machine.execHbmScrub addr found s
  | .firmwareAssert => Sys2Proof.Machine.execFirmwareAssert s
  | .dumpComplete headerOk bad => Sys2Proof.Machine.execDumpComplete headerOk bad s
  | .dumpRelease => Sys2Proof.Machine.execDumpRelease s
  | .leaseExpiry => Sys2Proof.Machine.execLeaseExpiry s
  | .heartbeatSend p => Sys2Proof.Machine.execHeartbeatSend p s
  | .heartbeat => Sys2Proof.Machine.execHeartbeat s
  | .neighbourSilent p => Sys2Proof.Machine.execNeighbourSilent p s
  | .recoveryRecord rec sender => Sys2Proof.Machine.execRecoveryRecord rec sender s
  | .recoveryFence => Sys2Proof.Machine.execRecoveryFence s
  | .admitNode => Sys2Proof.Machine.execAdmitNode s
  | .lease => Sys2Proof.Machine.execLease s
  | .recoveryKill => Sys2Proof.Machine.execRecoveryKill s
  | .recoveryStart => Sys2Proof.Machine.execRecoveryStart s
  | .membership => Sys2Proof.Machine.execMembership s
  | .watchdogExpiry c => Sys2Proof.Machine.execWatchdogExpiry c s
  | .interruptDelivery => Sys2Proof.Machine.execInterruptDelivery s
  | .intEoi t src => Sys2Proof.Machine.execIntEoi t src s
  | .intPendWrite src => Sys2Proof.Machine.execIntPendWrite src s
  | .hostEoi src => Sys2Proof.Machine.execHostEoi src s
  | .hostLinkUp adapterPort => Sys2Proof.Machine.execHostLinkUp adapterPort s
  | .hostLinkDown => Sys2Proof.Machine.execHostLinkDown s
  | .regRead h => Sys2Proof.Machine.execRegRead h s
  | .regWrite h => Sys2Proof.Machine.execRegWrite h s
  | .memRead h => Sys2Proof.Machine.execMemRead h s
  | .memWrite h => Sys2Proof.Machine.execMemWrite h s
  | .dumpRead h => Sys2Proof.Machine.execDumpRead h s
  | .record h => Sys2Proof.Machine.execRecord h s
  | .hostOpInvalid h => Sys2Proof.Machine.execHostOpInvalid h s
  | .relayOpen => Sys2Proof.Machine.execRelayOpen s
  | .relayTableWrite v => Sys2Proof.Machine.execRelayTableWrite v s
  | .mgtNetLink port up => Sys2Proof.Machine.execMgtNetLink port up s
  | .writeSlot len => Sys2Proof.Machine.execWriteSlot len s
  | .writeSlotComplete ok => Sys2Proof.Machine.execWriteSlotComplete ok s
  | .update => Sys2Proof.Machine.execUpdate s
  | .handoverComplete recordValid => Sys2Proof.Machine.execHandoverComplete recordValid s
  | .select => Sys2Proof.Machine.execSelect s
  | .fwOpInvalid => Sys2Proof.Machine.execFwOpInvalid s
  | .recordWrite len => Sys2Proof.Machine.execRecordWrite len s
  | .recordWriteComplete ok => Sys2Proof.Machine.execRecordWriteComplete ok s
  | .quoteRequest => Sys2Proof.Machine.execQuoteRequest s
  | .quoteComplete => Sys2Proof.Machine.execQuoteComplete s
  | .powerOnReset => Sys2Proof.Machine.execPowerOnReset s
  | .warmResetPin => Sys2Proof.Machine.execWarmResetPin s
  | .glbResetWrite key => Sys2Proof.Machine.execGlbResetWrite key s
  | .resetRelease straps pufSeed eeprom => Sys2Proof.Machine.execResetRelease straps pufSeed eeprom s
  | .clockFault => Sys2Proof.Machine.execClockFault s
  | .clockFaultEnd => Sys2Proof.Machine.execClockFaultEnd s
  | .serdesRefclkLoss g => Sys2Proof.Machine.execSerdesRefclkLoss g s
  | .thermalSample sensors => Sys2Proof.Machine.execThermalSample sensors s
  | .railFault => Sys2Proof.Machine.execRailFault s
  | .throttleUpdate amps => Sys2Proof.Machine.execThrottleUpdate amps s
  | .voltageDroop mv => Sys2Proof.Machine.execVoltageDroop mv s
  | .smbusBlockRead c => Sys2Proof.Machine.execSmbusBlockRead c s
  | .pageProgram sb page member ok => Sys2Proof.Machine.execPageProgram sb page member ok s
  | .blockErase block ok => Sys2Proof.Machine.execBlockErase block ok s
  | .updatePreparingEnd => Sys2Proof.Machine.execUpdatePreparingEnd s
  | .voltageDroopEnd mv => Sys2Proof.Machine.execVoltageDroopEnd mv s

end Sys2Proof.Machine
end

