-- ==== Sys2Proof/Safety.lean ====
section
/-! DEFINITION. What counts as a safe run, and the words that claims use: how far a command's conditions reach, and the invariant that
every step keeps. -/

namespace Sys2Proof.Machine

/-- How far the conditions of a command reach: the commands of the sequencers, engines, thread cores, ports and collectives stop with a
fatal cause (R475); firmware's commands stop while no firmware runs (R532, R536, R539); power, clocks and resets act always. -/
def domainOf (i : Instr) : Domain :=
  match i with
  | .registerWrite _ _ _ => .live
  | .deviceTick => .engine
  | .steepBoundary _ => .engine
  | .overrun _ => .engine
  | .scheduleLost _ => .engine
  | .loadDevice => .live
  | .loadFunction _ => .live
  | .changeFunction _ => .live
  | .unloadFunction _ => .live
  | .loaderOpInvalid _ _ => .live
  | .loadAbort => .live
  | .loaderChecksDone _ => .engine
  | .tickArm _ _ => .live
  | .tickRearmWrite _ => .live
  | .start _ => .live
  | .stop _ => .live
  | .fnCmdInvalid _ _ => .live
  | .kill _ => .live
  | .stage _ _ => .live
  | .channelGranuleWrite _ => .engine
  | .channelCreditReturn _ => .engine
  | .spliceGranule _ => .engine
  | .assemblerGranule _ _ => .engine
  | .shardDelivery _ _ => .engine
  | .manifestSign => .engine
  | .mediaCodewordRead _ _ _ _ => .engine
  | .mediaWindowRead _ => .engine
  | .nandCommandTimeout _ _ _ => .live
  | .parityProgram _ _ _ => .live
  | .blockRefresh _ _ => .live
  | .blockRepair _ _ => .live
  | .relocationCommit => .live
  | .mapFloorWrite _ => .live
  | .mapFloorFreeDone => .live
  | .readCountSave => .live
  | .gcRun => .live
  | .gcMapUpdate _ => .live
  | .mediaStartup _ => .live
  | .healthLogSave => .live
  | .tempHistoryRecord _ _ => .live
  | .read _ => .live
  | .write _ => .live
  | .flush _ => .live
  | .deallocate _ => .live
  | .nsCreate _ => .live
  | .nsDelete _ => .live
  | .nsList _ => .live
  | .identify _ => .live
  | .health _ => .live
  | .mapExport _ => .live
  | .seal _ => .live
  | .stcOpcodeInvalid _ => .live
  | .stcGoRejected _ => .live
  | .stcCommandComplete _ _ => .engine
  | .powerRequestP0 => .live
  | .powerRequestP1 => .live
  | .powerRequestP2 => .live
  | .powerRequestP3 => .live
  | .powerEntryCommit => .engine
  | .hbmSelfRefreshEntry => .live
  | .rcxFrameHeader _ => .engine
  | .rcxBlockDecode _ => .engine
  | .rcxFrameTrailer _ => .engine
  | .rcxCompressSample _ => .engine
  | .vdeSampleStart _ => .engine
  | .vdePictureDecode _ => .engine
  | .vdeContextSave _ => .engine
  | .jpgScanDecode _ => .engine
  | .imgPicture _ => .engine
  | .regionTableArrival _ => .engine
  | .bpeRun _ => .engine
  | .maskChunkHeader _ => .engine
  | .maskToken _ => .engine
  | .detokToken _ => .engine
  | .queueItemAdmit _ => .engine
  | .attemptStart _ _ => .engine
  | .itemSteal _ _ => .engine
  | .coreWithdraw _ => .engine
  | .coreRestore _ => .engine
  | .coreFailure _ _ => .engine
  | .alu0 _ _ _ => .engine
  | .alu1 _ _ _ => .engine
  | .alu2 _ _ _ => .engine
  | .addi _ _ _ => .engine
  | .andi _ _ _ => .engine
  | .ori _ _ _ => .engine
  | .xori _ _ _ => .engine
  | .shifti _ _ _ => .engine
  | .movi _ _ _ => .engine
  | .lit _ _ _ => .engine
  | .cmp _ _ _ => .engine
  | .plog _ _ _ => .engine
  | .srd _ _ _ => .engine
  | .swr _ _ _ => .engine
  | .draw _ _ _ => .engine
  | .fp32 _ _ _ => .engine
  | .fp64 _ _ _ => .engine
  | .fcmp _ _ _ => .engine
  | .fcvt _ _ _ => .engine
  | .ldu8 _ _ _ => .engine
  | .lds8 _ _ _ => .engine
  | .ldu16 _ _ _ => .engine
  | .lds16 _ _ _ => .engine
  | .ldu32 _ _ _ => .engine
  | .lds32 _ _ _ => .engine
  | .ld64 _ _ _ => .engine
  | .st8 _ _ _ => .engine
  | .st16 _ _ _ => .engine
  | .st32 _ _ _ => .engine
  | .st64 _ _ _ => .engine
  | .vld _ _ _ => .engine
  | .vst _ _ _ => .engine
  | .atom _ _ _ => .engine
  | .fatom _ _ _ => .engine
  | .xadd _ _ _ => .engine
  | .fence _ _ _ => .engine
  | .wait _ _ _ => .engine
  | .waitConditionMet _ => .engine
  | .waitTimeout _ => .engine
  | .bar _ _ => .engine
  | .varith _ _ _ => .engine
  | .vlogic _ _ _ => .engine
  | .vcmp _ _ _ => .engine
  | .vred _ _ _ => .engine
  | .vcvt _ _ _ => .engine
  | .vmove _ _ _ => .engine
  | .tzero _ _ _ => .engine
  | .tload _ _ _ => .engine
  | .tstore _ _ _ => .engine
  | .tmma _ _ _ => .engine
  | .br _ _ _ => .engine
  | .call _ _ _ => .engine
  | .jr _ _ _ => .engine
  | .done _ _ _ => .engine
  | .halt _ _ => .engine
  | .nop _ _ => .engine
  | .portLaneLock _ => .engine
  | .dataFrame _ _ _ _ => .engine
  | .controlFrame _ _ _ => .engine
  | .replayTimeout _ => .engine
  | .controlFrameSend _ => .engine
  | .linkRxTimeout _ => .engine
  | .retrainTimeout _ => .engine
  | .downRetrain _ => .engine
  | .frameTransmitStart _ => .engine
  | .ethFrame _ _ => .engine
  | .portEnable _ _ => .live
  | .nodeIdWrite _ => .live
  | .fenceWrite _ _ => .live
  | .routeCommitGo => .live
  | .create _ => .live
  | .destroy _ => .live
  | .destroyComplete => .engine
  | .query _ => .live
  | .qpCmdInvalid _ => .live
  | .open _ _ _ => .live
  | .revoke _ => .live
  | .windowClosed _ => .engine
  | .pdWrite _ _ => .live
  | .peerEntryWrite _ _ _ => .live
  | .tcConfigWrite _ _ => .live
  | .transportRequestIssue _ _ _ _ _ => .engine
  | .transportWrite => .engine
  | .readReq => .engine
  | .atomic => .engine
  | .readResp => .engine
  | .atomicResp => .engine
  | .ack => .engine
  | .nak => .engine
  | .grant => .engine
  | .transportRetransmitTimeout _ => .engine
  | .rnrWaitExpiry _ => .engine
  | .qpStateFetched _ => .engine
  | .rocePacket => .engine
  | .roceAckTimeout _ => .engine
  | .cnp => .engine
  | .gateListGo _ _ => .live
  | .gateListCommit _ => .live
  | .gateEntryChange _ => .live
  | .contrib => .engine
  | .result => .engine
  | .fail => .engine
  | .localContributionReady _ _ => .engine
  | .install _ => .live
  | .remove _ => .live
  | .colCmdInvalid _ _ => .live
  | .colInstanceTimeout _ => .engine
  | .timeExchangeSend _ => .engine
  | .sync => .engine
  | .delayReq => .engine
  | .delayResp => .engine
  | .syncLossTimeout => .live
  | .accurateClear => .live
  | .ftSet _ => .live
  | .ftNsRead => .live
  | .timCtrlWrite _ => .live
  | .ppsEdge => .live
  | .arrive _ => .live
  | .barArrive => .engine
  | .barRelease => .engine
  | .barrierRelease _ => .live
  | .cancel _ => .live
  | .uncorrectableError _ => .live
  | .hbmScrub _ _ => .live
  | .firmwareAssert => .live
  | .dumpComplete _ _ => .live
  | .dumpRelease => .live
  | .leaseExpiry => .live
  | .heartbeatSend _ => .engine
  | .heartbeat => .engine
  | .neighbourSilent _ => .engine
  | .recoveryRecord _ _ => .live
  | .recoveryFence => .engine
  | .admitNode => .engine
  | .lease => .engine
  | .recoveryKill => .engine
  | .recoveryStart => .engine
  | .membership => .engine
  | .watchdogExpiry _ => .live
  | .interruptDelivery => .live
  | .intEoi _ _ => .live
  | .intPendWrite _ => .live
  | .hostEoi _ => .live
  | .hostLinkUp _ => .live
  | .hostLinkDown => .live
  | .regRead _ => .live
  | .regWrite _ => .live
  | .memRead _ => .live
  | .memWrite _ => .live
  | .dumpRead _ => .live
  | .record _ => .live
  | .hostOpInvalid _ => .live
  | .relayOpen => .live
  | .relayTableWrite _ => .live
  | .mgtNetLink _ _ => .live
  | .writeSlot _ => .live
  | .writeSlotComplete _ => .live
  | .update => .live
  | .handoverComplete _ => .live
  | .select => .live
  | .fwOpInvalid => .live
  | .recordWrite _ => .live
  | .recordWriteComplete _ => .live
  | .quoteRequest => .live
  | .quoteComplete => .live
  | .powerOnReset => .always
  | .warmResetPin => .always
  | .glbResetWrite _ => .live
  | .resetRelease _ _ _ => .always
  | .clockFault => .always
  | .clockFaultEnd => .always
  | .serdesRefclkLoss _ => .live
  | .thermalSample _ => .always
  | .railFault => .always
  | .throttleUpdate _ => .live
  | .voltageDroop _ => .live
  | .smbusBlockRead _ => .always
  | .pageProgram _ _ _ _ => .live
  | .blockErase _ _ => .live
  | .updatePreparingEnd => .live
  | .voltageDroopEnd _ => .live

/-- A state that a run may be in: memory is in its canonical form, and the interrupt controller has sampled every state signal. -/
def State.Good (s : State) : Prop :=
  Mem.wf s.dev.mem = true ∧ (s.dev.pwr.phase = .running → s.dev.irq.sig = s.dev.signals.foldl (fun l x => insNat x.1 l) [])

/-- One byte of memory as the model reads it. -/
def State.byteAt (s : State) (a : Nat) : Bytes := s.dev.read a 1

/-! ## Words that claims use -/

/-- Firmware runs: the device is out of reset, with no clock fault and no trip (R532, R536, R539). -/
def State.Live (s : State) : Prop := s.dev.pwr.phase = .running

/-- Firmware runs and no fatal cause has stopped the engines (R475). -/
def State.Works (s : State) : Prop := s.dev.pwr.phase = .running ∧ s.dev.fatal = false

/-- The command `c` completes at `s`: the next state has the device `d`, with memory in its canonical form and the interrupt signals
sampled, and the queue as it was. Nothing else differs, so that `d` says the command's result and its frame at once. -/
def Becomes (c : Instr) (s : State) (d : Dev) : Prop := exec c s = .next { s with dev := d.commit }

/-- Engine instance `inst` of a kind, bound by function `f` with the output endpoint `eo`, has the sample of `e` in hand once it has taken
what stands at its input; it neither discards the sample nor closes it with a mark. -/
def Dev.AtWork (d : Dev) (kind inst f eo : Nat) (e : Eng) (d' : Dev) : Prop :=
  ∃ ei, d.epOf kind inst false 0 = some (f, ei) ∧ (d.epOf kind inst true 0).elim noEp (fun x => x.2.ep) = eo ∧ d.halted f = false ∧
    d.feed f kind inst ei.ep = d' ∧ d'.eng kind inst = e ∧ e.active = true ∧ e.skip = false ∧ (e.mark = 0 ∨ e.arrived = false)

/-- Thread `t` stands at an instruction that the word there encodes: it runs, waits for nothing, and its attempt may retire one more. -/
def State.Stands (s : State) (t : Nat) (i : Instr) (f k : Nat) (a : Attempt) (th : Thread) : Prop :=
  s.Works ∧ s.dev.attOf t = some (k, a) ∧ a.threads[t - k]? = some th ∧ s.dev.owner 9 a.q = some f ∧ th.st = 0 ∧ th.out = 0 ∧
    th.sent = false ∧ s.dev.inCode f a.q th.pc = true ∧ Sys2Proof.gtcEncode i = some (s.dev.codeWord f th.pc) ∧ s.dev.capEnds f a = false

/-- The guard of an instruction holds for a thread (R319). -/
def Thread.Guarded (th : Thread) (g : Guard) : Prop := (th.pr g.pred.toNat ^^ g.neg) = true

/-- Thread `t` stands at an instruction whose guard holds, and another word of its kernel follows. -/
def State.Ready (s : State) (t : Nat) (i : Instr) (g : Guard) (f k : Nat) (a : Attempt) (th : Thread) : Prop :=
  s.Stands t i f k a th ∧ th.Guarded g ∧ s.dev.inCode f a.q (th.pc + 4) = true

/-- The device after thread `t` has retired an instruction and goes on at `pc` with the registers of `th` (R299). -/
def Dev.retired (d : Dev) (t k : Nat) (a : Attempt) (th : Thread) (pc : Nat) : Dev :=
  d.setAtt k (a.counted.setTh (t - k) (th.goTo pc))

end Sys2Proof.Machine
end

