-- ==== Sys2Proof/Certificates/Slice0/Obligations.lean ====
section
/-! DEFINITION. The statements for the provers, from the numbered rules of the spec. `Becomes c s d` says that the command `c` completes at `s`
and that the next state has the device `d`: it says the result, the completion and the frame at once. -/

open Sys2Proof Sys2Proof.Machine

/-! ## The machine as a whole -/

/-- A step with a command at the front of the queue is that command's meaning with the queue's rest. -/
def Obligations.StepRunsTheFrontCommand : Prop :=
  ∀ (c : Instr) (s : State), step { s with pending := c :: s.pending } = exec c s

/-- With no command waiting a step lets one fabric cycle of 0.625 ns pass: the clock; and while firmware runs FT by the device's rate and every barrier's countdown by as much. No register
and no memory changes, and no block but TIM and the interrupt controller (R19, R441, R453; that a step on an empty queue is one fabric cycle: log entry 1). -/
def Obligations.IdleStepPassesOneCycle : Prop :=
  ∀ (s : State) (n : Nat), s.pending = [] → n = (s.dev.tim.sub + s.dev.tim.rate) / 2 ^ 32 →
    (s.Live → step s = .next { s with dev := Dev.commit { s.dev with
      clk := s.dev.clk + 5
      tim := { s.dev.tim with
        ft := s.dev.tim.ft + BitVec.ofNat 80 n
        sub := (s.dev.tim.sub + s.dev.tim.rate) % 2 ^ 32
        bars := s.dev.tim.bars.map (fun e => (e.1, { e.2 with countdown := e.2.countdown.map (fun c => c - n) })) } } }) ∧
    (¬ s.Live → step s = .next { s with dev := Dev.commit { s.dev with clk := s.dev.clk + 5 } }) ∧
    (∀ t, step s = .next t → t.dev.regs = s.dev.regs ∧ (Mem.wf s.dev.mem = true → t.dev.mem = s.dev.mem) ∧ t.dev.seq = s.dev.seq ∧ t.dev.xpt = s.dev.xpt ∧ t.dev.fab = s.dev.fab ∧
      t.dev.med = s.dev.med ∧ t.dev.thr = s.dev.thr ∧ t.dev.col = s.dev.col ∧ t.dev.sec = s.dev.sec ∧ t.dev.mgt = s.dev.mgt ∧ t.dev.pwr = s.dev.pwr ∧ t.dev.sent = s.dev.sent ∧
      t.dev.timers = s.dev.timers ∧ t.dev.resp = s.dev.resp ∧ t.dev.free = s.dev.free)

/-- Every command answers a next state, in every state, and leaves the commands that wait as they are: none faults or is refused. A command whose domain is closed leaves the whole state as it was: nothing but power, clocks and resets acts while firmware does not run, and
the engines' commands do not act after a fatal cause. -/
def Obligations.EveryCommandAnswersNext : Prop :=
  (∀ (c : Instr) (s : State), ∃ d : Dev, exec c s = .next { s with dev := d }) ∧
  (∀ (c : Instr) (s : State),
    (domainOf c ≠ .always ∧ s.dev.pwr.phase ≠ .running) ∨ (domainOf c = .engine ∧ s.dev.fatal = true) → exec c s = .next s)

/-- Every step keeps a good state good: memory is in its canonical form, and while firmware runs the interrupt controller has sampled exactly the
state signals that are 1. -/
def Obligations.EveryStepKeepsGood : Prop :=
∀ s t : State, s.Good → step s = .next t → t.Good

/-- The state after reset is good. -/
def Obligations.ResetIsGood : Prop :=
State.reset.Good

/-- The registers after reset hold the values that their tables give: no image, ticks not running, SEQ_TICK 0, no node ID, P0, throttle level 16, fences and domains invalid, TIM disabled and
FREE with FT 0, ledger counters 0, RSN 0, not admitted and no lease, no interrupt pending or in service (R101, R206, R375, R401, R457, R486, R488, R498, R538, R541). -/
def Obligations.ResetValues : Prop :=
  ∀ (d : Dev) (n : Nat), d = State.reset.dev →
    d.get R.FAB_NODE_ID_NODE = 0xFFF ∧ d.get R.FAB_NODE_ID_ADMIT_EPOCH = 0 ∧ d.get R.GLB_THERMAL_LEVEL = 16 ∧ d.get R.GLB_MODE_DET = 0 ∧
    d.has R.SEQ_TICK_CTRL_RUNNING = false ∧ d.word R.SEQ_TICK = 0 ∧ d.get R.STC_POWER_STATUS_CURRENT = 0 ∧ d.has R.TIM_CTRL_ENABLE = false ∧ d.get R.TIM_STATUS_STATE = 0 ∧
    d.tim.ft = 0 ∧ d.word R.LGR_RSN = 0 ∧ d.has R.LGR_STATUS_ADMITTED = false ∧ d.has R.LGR_LEASE_ACTIVE = false ∧ d.has R.LGR_STATUS_FATAL = false ∧
    d.irq.pend = [] ∧ d.irq.service = [] ∧ d.loadedFns = [] ∧ d.col.groups = [] ∧ d.xpt.qps = [] ∧ d.xpt.windows = [] ∧ State.reset.pending = [] ∧
    (n < 16 → d.fnState n = 0 ∧ d.has (R.STC_TASK_STATUS_BUSY (n % 8)) = false) ∧ (n < 4096 → d.has (R.FAB_FENCE_VALID n) = false ∧ d.has (R.XPT_PD_VALID n) = false)

/-- Memory reads what was written, and a write reaches no byte outside what it stores. -/
def Obligations.MemoryReadsWhatWasWritten : Prop :=
  ∀ (d : Dev) (a : Nat) (b : Bytes), Mem.wf d.mem = true →
    (d.write a b).read a b.length = b ∧ (∀ x n, x + n ≤ a ∨ a + b.length ≤ x → (d.write a b).read x n = d.read x n) ∧
    Mem.wf (d.write a b).mem = true ∧ (∀ n, (d.zero a n).read a n = List.replicate n 0) ∧
    (∀ n x m, x + m ≤ a ∨ a + n ≤ x → (d.zero a n).read x m = d.read x m)

/-- A field of a register reads what was written to it, cut to its width, and a write to a field reaches no other register and no other field. -/
def Obligations.RegisterFieldsReadBack : Prop :=
  ∀ (d : Dev) (r q : FRef) (v : Nat), r.lo ≤ r.hi → r.hi < 64 → q.lo ≤ q.hi →
    (d.set r v).get r = v % 2 ^ (r.hi + 1 - r.lo) ∧ (q.off ≠ r.off ∨ r.hi < q.lo ∨ q.hi < r.lo → (d.set r v).get q = d.get q) ∧
    (∀ o, o ≠ r.off → (d.set r v).word o = d.word o) ∧ (d.add r v).get r = min (d.get r + v) (2 ^ (r.hi + 1 - r.lo) - 1)

/-! ## Control space, the loader and the sequencer -/

/-- A control-space access that is not 8 bytes wide and 8-byte aligned completes with 0x0103 and has no effect, from inside as from the host's register window; a write to an offset
without a register completes with OK and has no effect, and a read of such an offset gives 0 (R14; the status 0x0104 beyond 0xFFFF_FFFF is R23's). -/
def Obligations.ControlSpaceAccesses : Prop :=
  ∀ (s : State) (off size : Nat) (v : Word), s.Live →
    (0x100000000 ≤ off → Becomes (.registerWrite off size v) s (s.dev.reply 0x0104)) ∧
    (off < 0x100000000 → size ≠ 8 ∨ off % 8 ≠ 0 → Becomes (.registerWrite off size v) s (s.dev.reply 0x0103)) ∧
    (off < 0x100000000 → size = 8 → off % 8 = 0 → regAt off = none → Becomes (.registerWrite off size v) s (s.dev.reply 0)) ∧
    (regAt off = none → s.dev.ctlRead off = (0, s.dev)) ∧
    (∀ (t : Txn) (n : Nat), s.dev.mgt.hostUp = true → t.rsv = false → t.index.toNat = s.dev.get R.MGT_HOST_INDEX → t.index.toNat < 64 → s.dev.get R.MGT_FW_STATUS_STATE ≠ 3 →
      n = t.len.toNat → 0 < n → n ≤ 4096 → n ≠ 8 ∨ t.addr.toNat < 0x10000 ∧ t.addr.toNat % 8 ≠ 0 →
      (t.kind = 1 → Becomes (.regRead (.link t)) s (s.dev.complete t 0x0103 []).settle) ∧ (t.kind = 2 → Becomes (.regWrite (.link t)) s (s.dev.complete t 0x0103 []).settle))

/-- A write to a register updates its RW fields and no other: START_AT takes the whole word, FROM takes USE and RECORD but not its reserved bits, LAG_MAX takes
what is written, and the read-only tick number and steep count stay (R13, R101). Writing ARM while no tick falls arms the device: with SRC = 0 and a launch time still to come it waits, and with SRC = 1 it makes a local arrival at the
barrier; while ticks fall the write has no effect (R83). While ARM is 1 and no tick falls, a write to SEQ_LAUNCH_FT or to SRC and BARRIER takes effect and counts as arming again; once ticks fall it has none (R83). -/
def Obligations.RegisterWritesAndTickArming : Prop :=
  (∀ (s : State) (f : FnId) (v : Word), s.Live →
    Becomes (.registerWrite (R.SEQ_FN_START_AT f) 8 v) s ((s.dev.setWord (R.SEQ_FN_START_AT f) v).reply 0) ∧
    Becomes (.registerWrite (R.SEQ_FN_FROM f) 8 v) s ((s.dev.setWord (R.SEQ_FN_FROM f)
      (setBits (setBits (s.dev.word (R.SEQ_FN_FROM f)) 63 63 (getBits v 63 63)) 47 0 (getBits v 47 0))).reply 0) ∧
    Becomes (.registerWrite R.SEQ_TICK 8 v) s ((s.dev.setWord R.SEQ_TICK (s.dev.word R.SEQ_TICK)).reply 0) ∧
    Becomes (.registerWrite (R.SEQ_FN_STEEP f) 8 v) s ((s.dev.setWord (R.SEQ_FN_STEEP f) (s.dev.word (R.SEQ_FN_STEEP f))).reply 0)) ∧
  (∀ (s : State) (src : Bool) (b : BitVec 8) (d e : Dev), s.Live → s.dev.fatal = false →
    d = (s.dev.set R.SEQ_TICK_CTRL_SRC (b2n src)).set R.SEQ_TICK_CTRL_BARRIER b.toNat →
    e = { d.set R.SEQ_TICK_CTRL_ARM 1 with seq := { d.seq with armedAt := d.ftNs } } →
    (s.dev.ticking = true → Becomes (.tickArm src b) s (s.dev.reply 0)) ∧
    (s.dev.ticking = false → src = false → e.ticking = false → d.ftNs < e.tickAt e.firstTick → e.fatal = false →
      e.has R.SEQ_TICK_CTRL_SRC = false → e.has R.SEQ_TICK_CTRL_ARM = true → Becomes (.tickArm src b) s (e.reply 0)) ∧
    (s.dev.ticking = false → src = true → e.fatal = false → e.has R.SEQ_TICK_CTRL_SRC = true →
      Becomes (.tickArm src b) s ((e.arriveLocal (e.get R.SEQ_TICK_CTRL_BARRIER)).reply 0))) ∧
  (∀ (s : State) (v : Word) (src : Bool) (b : BitVec 8), s.Live →
    (s.dev.ticking = true → Becomes (.tickRearmWrite (.launch v)) s (s.dev.reply 0) ∧ Becomes (.tickRearmWrite (.ctrl src b)) s (s.dev.reply 0)) ∧
    (s.dev.ticking = false → ∀ d, d = s.dev.setWord R.SEQ_LAUNCH_FT v →
      (d.has R.SEQ_TICK_CTRL_ARM = false → Becomes (.tickRearmWrite (.launch v)) s (d.reply 0)) ∧
      (d.has R.SEQ_TICK_CTRL_ARM = true → ∀ e, e = { d.set R.SEQ_TICK_CTRL_ARM 1 with seq := { d.seq with armedAt := d.ftNs } } →
        e.has R.SEQ_TICK_CTRL_SRC = false → e.fatal = false → e.ticking = false → e.has R.SEQ_TICK_CTRL_ARM = true →
        (e.ftNs < e.tickAt e.firstTick → Becomes (.tickRearmWrite (.launch v)) s (e.reply 0)) ∧
        (e.tickAt e.firstTick ≤ e.ftNs → Becomes (.tickRearmWrite (.launch v)) s ((e.tickFall e.firstTick).reply 0)))) ∧
    (s.dev.ticking = false → ∀ d, d = (s.dev.set R.SEQ_TICK_CTRL_SRC (b2n src)).set R.SEQ_TICK_CTRL_BARRIER b.toNat →
      (d.has R.SEQ_TICK_CTRL_ARM = false → Becomes (.tickRearmWrite (.ctrl src b)) s (d.reply 0)) ∧
      (d.has R.SEQ_TICK_CTRL_ARM = true → Becomes (.tickRearmWrite (.ctrl src b)) s (d.rearm.reply 0))))

/-- A GO of LOAD_DEVICE, LOAD_FUNCTION or CHANGE_FUNCTION that nothing refuses and whose precondition holds starts a request: BUSY is set, and SRC and LEN are
taken (R74, R75). UNLOAD_FUNCTION of a loaded function that is STOPPED and has no request pending commits at once while no tick falls, and waits for the next tick as PENDING
otherwise (R74). A GO that starts no request sets GO_REJECTED and REJECT_STATUS, and nothing else of the loader changes: an invalid OP with 0x0116, one while the loader is
busy or an update is under way with 0x0510, one in a lower power state with 0x0528, one after a fatal cause with 0x0F04 (R75, R201, R475). A request
refused by its precondition ends at stage 1 with the status of R74. -/
def Obligations.LoaderRequestsStart : Prop :=
  (∀ (s : State) (op f : Nat) (c : Instr) (d : Dev), s.Live →
    (c = .loadDevice ∧ op = 1 ∧ f = s.dev.get R.SEQ_IMG_CTRL_FUNCTION ∨
      (∃ n : FnId, f = n ∧ (c = .loadFunction n ∧ op = 2 ∨ c = .changeFunction n ∧ op = 3))) →
    d = (s.dev.set R.SEQ_IMG_CTRL_OP op).set R.SEQ_IMG_CTRL_FUNCTION f →
    d.fatal = false → d.powerDown = false → d.has R.SEQ_IMG_STATUS_BUSY = false → d.has R.SEQ_IMG_STATUS_PENDING = false → d.updating = false →
    (op = 1 → d.loadedFns = []) → (op ≠ 1 → d.fnPending f = false) →
    (op = 2 → d.has R.SEQ_IMG_STATUS_DEVICE_LOADED = true ∧ d.loaded f = false) → (op = 3 → d.loaded f = true) →
    Becomes c s ((({ d with seq := { d.seq with
      req := some ⟨op, f, (d.word R.SEQ_IMG_SRC).toNat, (d.word R.SEQ_IMG_LEN).toNat⟩ } }.set R.SEQ_IMG_STATUS_BUSY 1).setW R.SEQ_IMG_PROGRESS 0).reply 0)) ∧
  (∀ (s : State) (f : FnId) (d : Dev) (c : LoadCommit), s.Live →
    d = (s.dev.set R.SEQ_IMG_CTRL_OP 4).set R.SEQ_IMG_CTRL_FUNCTION f → d.loadReject 4 = 0 →
    d.fnPending f = false → d.loaded f = true → d.fnState f = 1 →
    c = { op := 4, fn := f, imageId := 0, steepNs := 0, det := false, fns := [], routes := [], shape := [], overflow := none } →
    (d.has R.SEQ_TICK_CTRL_RUNNING = false → Becomes (.unloadFunction f) s (((d.unloadFn f).loadEnd ⟨0, 0, 0xFF⟩).reply 0)) ∧
    (d.has R.SEQ_TICK_CTRL_RUNNING = true → Becomes (.unloadFunction f) s ((({ d with seq := { d.seq with
        req := none
        pend := some c } }.set R.SEQ_IMG_STATUS_BUSY 0).set R.SEQ_IMG_STATUS_PENDING 1).reply 0))) ∧
  (∀ (s : State) (op : Fin 8) (f : FnId) (d : Dev) (st : Status), s.Live →
    d = (s.dev.set R.SEQ_IMG_CTRL_OP op).set R.SEQ_IMG_CTRL_FUNCTION f →
    ((d.fatal = true ∧ st = 0x0F04 ∨
        d.fatal = false ∧ d.powerDown = true ∧ st = 0x0528 ∨
        d.fatal = false ∧ d.powerDown = false ∧ (d.has R.SEQ_IMG_STATUS_BUSY = true ∨ d.has R.SEQ_IMG_STATUS_PENDING = true ∨ d.updating = true) ∧ st = 0x0510 ∨
        d.fatal = false ∧ d.powerDown = false ∧ d.has R.SEQ_IMG_STATUS_BUSY = false ∧ d.has R.SEQ_IMG_STATUS_PENDING = false ∧ d.updating = false ∧
          (op.val = 0 ∨ 4 < op.val) ∧ st = 0x0116) →
      Becomes (.loaderOpInvalid op f) s (((d.set R.SEQ_IMG_STATUS_GO_REJECTED 1).setSt R.SEQ_IMG_STATUS_REJECT_STATUS st).reply 0)) ∧
    (∀ c, (c = .loadFunction f ∧ op = 2 ∨ c = .changeFunction f ∧ op = 3 ∨ c = .unloadFunction f ∧ op = 4) → d.loadReject op = 0 →
      (d.fnPending f = true ∧ st = 0x0511 ∨ d.fnPending f = false ∧
        (op = 2 ∧ d.has R.SEQ_IMG_STATUS_DEVICE_LOADED = false ∧ st = 0x051C ∨
          op = 2 ∧ d.has R.SEQ_IMG_STATUS_DEVICE_LOADED = true ∧ d.loaded f = true ∧ st = 0x0513 ∨
          op = 3 ∧ d.loaded f = false ∧ st = 0x0514 ∨ op = 4 ∧ d.loaded f = false ∧ st = 0x0514 ∨
          op = 4 ∧ d.loaded f = true ∧ d.fnState f ≠ 1 ∧ st = 0x0515)) →
      Becomes c s ((d.loadEnd ⟨st, 1, 0xFF⟩).reply 0)))

/-- ABORT ends a request that is BUSY or PENDING: DONE is set with 0x0516 LOAD_ABORTED; with none it has no effect (R79). The loader's checks end: a length of all ones or beyond 256 GiB ends the request at stage 2 with 0x0202 or 0x0201, a length of 0 completes it, a source
outside HBM ends it at stage 3; an image whose header, signature, directory, digests, identity, layout or blends fail ends it where they fail; one whose sections
all pass commits, at once or at its tick or boundary (R15 to R18, R44, R74, R76). -/
def Obligations.LoaderRequestsEnd : Prop :=
  (∀ s : State, s.Live →
    (s.dev.seq.req ≠ none ∨ s.dev.seq.pend ≠ none →
      Becomes .loadAbort s (((((((({ s.dev with seq := { s.dev.seq with
        req := none
        pend := none } }.set R.SEQ_IMG_STATUS_BUSY 0).set R.SEQ_IMG_STATUS_PENDING 0).set R.SEQ_IMG_STATUS_DONE 1).set R.SEQ_IMG_STATUS_STATUS 0x0516).set
        R.SEQ_IMG_STATUS_STAGE 0).set R.SEQ_IMG_STATUS_SECTION 0xFF)).reply 0)) ∧
    (s.dev.seq.req = none → s.dev.seq.pend = none → Becomes .loadAbort s (s.dev.reply 0))) ∧
  (∀ (s : State) (r : LoadReq) (src : Remote), s.Works → s.dev.seq.req = some r →
    (r.len = 2 ^ 64 - 1 → Becomes (.loaderChecksDone src) s (s.dev.loadEnd ⟨0x0202, 2, 0xFF⟩)) ∧
    (0x4000000000 < r.len → r.len < 2 ^ 64 - 1 → Becomes (.loaderChecksDone src) s (s.dev.loadEnd ⟨0x0201, 2, 0xFF⟩)) ∧
    (r.len = 0 → Becomes (.loaderChecksDone src) s (s.dev.loadEnd ⟨0, 0, 0xFF⟩)) ∧
    (0 < r.len → r.len ≤ 0x4000000000 → s.dev.isLocal r.src = true → ∀ (a : Nat) (d : Dev), a = r.src % 2 ^ 52 →
      (∀ st, srcRange a r.len = some st → Becomes (.loaderChecksDone src) s (s.dev.loadEnd ⟨st, 3, 0xFF⟩)) ∧
      (srcRange a r.len = none → d = s.dev.setW R.SEQ_IMG_PROGRESS r.len → (s.dev.read a r.len).length = r.len →
        (∀ e, d.brqChecks r ⟨0xFF, 0, false, a, r.len⟩ (s.dev.read a r.len) = .error e → Becomes (.loaderChecksDone src) s (d.loadEnd e)) ∧
        (∀ b, d.brqChecks r ⟨0xFF, 0, false, a, r.len⟩ (s.dev.read a r.len) = .ok b → d.regionHeld b = false →
          (b.order.forM (fun k => at_ 0xD k.2.idx ((d.copySections b).sectCheck b k)) = .ok () →
            Becomes (.loaderChecksDone src) s ((d.copySections b).loadPassed (commitOf r b)))))))

/-- A device tick falls once its time has come: RUNNING is set, ARM clears, SEQ_TICK takes its number, and, the ledger's device pools passing, what waits for a
tick commits: KILLs, STARTs, the loader, routes, collectives, thread cores, recovery, the firmware handover (R35, R82, R83). Before its time nothing happens. A steep boundary falls once its time has come and its steep's work is complete. With the ledger passing, no lag, nothing staged and a record that is neither
a quiesce point nor the last, the steep count and the record rise by one and the next steep starts (R37, R92, R96). At a boundary that ends a clean QUIESCE steep a pending STOP commits: the function is STOPPED, the steep count rises and the next record is the resume
record; a QUIESCE record with work in flight is ignored and counted in QUIESCE_MISS (R37, R102, R103). OVERRUN counts a steep whose work is incomplete at its end once and raises its source; SCHEDULE_LOST sets its flag, counts and reports 0x0802 once the
current lag exceeds LAG_CEIL steeps (R98, R100). -/
def Obligations.TicksAndSteeps : Prop :=
  (∀ (s : State) (n : Nat), s.Works → s.dev.nextTick = some n →
    (s.dev.ftNs < s.dev.tickAt n → Becomes .deviceTick s s.dev) ∧
    (s.dev.tickAt n ≤ s.dev.ftNs → Becomes .deviceTick s (s.dev.tickFall n)) ∧
    (s.dev.tickAt n ≤ s.dev.ftNs → ∀ d : Dev, d = ((s.dev.set R.SEQ_TICK_CTRL_RUNNING 1).set R.SEQ_TICK_CTRL_ARM 0).setW R.SEQ_TICK n →
      16 ≤ d.get R.GLB_THERMAL_LEVEL → d.checkDev = d → d.fatal = false → (∀ f, (d.fn f).pendKill = false ∧ (d.fn f).pendStart = none) →
      d.seq.pend = none →
      Becomes .deviceTick s ((((((d.tickRoutes n).colTick n).thrTick).recTick).handover).tickRetry.settle))) ∧
  (∀ (s : State) (f : FnId) (b : Nat) (d : Dev), s.Works → b = s.dev.boundaryAt f →
    (s.dev.fnRuns f = false ∨ s.dev.workDone f = false ∨ s.dev.ftNs < b → Becomes (.steepBoundary f) s s.dev) ∧
    (s.dev.fnRuns f = true → s.dev.workDone f = true → b ≤ s.dev.ftNs → s.dev.get R.MGT_FW_STATUS_STATE ≠ 3 → s.dev.checkAll f = s.dev →
      b ≤ s.dev.plannedEnd f → (s.dev.fn f).lag = 0 → d = (s.dev.setW (R.SEQ_FN_LAG_MAX f) (s.dev.lagMax f)).lagZero f →
      (d.fn f).staged = none → (d.fn f).past = false → d.recordNo f + 1 < d.steepCount f → (d.record f (d.recordNo f)).2.2 = false →
      Becomes (.steepBoundary f) s ((d.set (R.SEQ_FN_RECORD_RECORD f) (d.recordNo f + 1)).nextSteep f b))) ∧
  (∀ (d : Dev) (f b r : Nat), r = d.recordNo f → (d.fn f).past = false → (d.record f r).2.2 = true →
    (d.drained f = true → (d.fn f).pendStop = true → (d.fn f).pendKill = false →
      d.boundaryRequests f b = ((d.modFn f (fun x => { x with cleanRecord := r + 1 })).stopAt f (r + 1) (decide (d.steepCount f ≤ r + 1))).fnDone f 0) ∧
    (d.drained f = false → r + 1 < d.steepCount f → (d.fn f).pendStop = true →
      d.boundaryRequests f b = ((d.inc (R.SEQ_FN_COUNTS_QUIESCE_MISS f)).set (R.SEQ_FN_RECORD_RECORD f) (r + 1)).nextSteep f b)) ∧
  (∀ (s : State) (f : FnId), s.Works → s.dev.fnRuns f = true →
    (s.dev.workDone f = false → (s.dev.fn f).overCounted = false → s.dev.earliestEnd f ≤ s.dev.ftNs →
      Becomes (.overrun f) s (((s.dev.modFn f (fun r => { r with overCounted := true })).inc (R.SEQ_FN_COUNTS_OVERRUNS f)).raise 66 f)) ∧
    ((s.dev.fn f).overCounted = true → Becomes (.overrun f) s s.dev) ∧
    (s.dev.has (R.SEQ_FN_STATUS_SCHED_LOST f) = false → s.dev.lagCeil f * s.dev.steepNs < s.dev.currentLag f →
      Becomes (.scheduleLost f) s
        (((s.dev.set (R.SEQ_FN_STATUS_SCHED_LOST f) 1).inc (R.SEQ_FN_COUNTS_SCHED_LOST f)).report f 1 0x0802 0)))

/-- START and STOP, KILL and an invalid CMD: an accepted START makes the function STARTING until its tick and an accepted STOP makes it STOPPING; a refused one
changes STATUS and DONE alone; KILL of a function that is not STOPPED withdraws a pending STOP and waits for the tick (R101, R102, R106). The checks of START in the order of R102 (with those of R201, R475 and R481 before them). -/
def Obligations.FunctionRequestsAreChecked : Prop :=
  (∀ (s : State) (f : FnId) (d : Dev) (at_ : Nat) (use : Bool) (rec_ : Nat), s.Live →
    (d = s.dev.set (R.SEQ_FN_CTRL_CMD f) 1 → at_ = (d.word (R.SEQ_FN_START_AT f)).toNat → use = d.has (R.SEQ_FN_FROM_USE f) →
      rec_ = d.get (R.SEQ_FN_FROM_RECORD f) →
      (d.startCheck f at_ use rec_ = 0 → Becomes (.start f) s (((d.modFn f (fun r => { r with
        pendStart := some (at_, (d.resumePoint f use rec_).1)
        pendUse := use })).setFnState f 2).reply 0)) ∧
      (∀ st, d.startCheck f at_ use rec_ = st → st ≠ 0 →
        Becomes (.start f) s (((d.set (R.SEQ_FN_STATUS_STATUS f) st.toNat).set (R.SEQ_FN_STATUS_DONE f) 1).reply 0))) ∧
    (d = s.dev.set (R.SEQ_FN_CTRL_CMD f) 2 → d.fatal = false →
      (d.loaded f = false → Becomes (.stop f) s ((d.fnDone f 0x0514).reply 0)) ∧
      (d.loaded f = true → d.fnPending f = true → Becomes (.stop f) s ((d.fnDone f 0x0511).reply 0)) ∧
      (d.loaded f = true → d.fnPending f = false → d.fnState f = 1 → Becomes (.stop f) s ((d.fnDone f 0x0501).reply 0)) ∧
      (d.loaded f = true → d.fnPending f = false → d.fnState f ≠ 1 →
        Becomes (.stop f) s (((d.modFn f (fun r => { r with pendStop := true })).setFnState f 4).reply 0))) ∧
    (∀ three, d = s.dev.set (R.SEQ_FN_CTRL_CMD f) (if three then 3 else 0) → d.fatal = false →
      Becomes (.fnCmdInvalid f three) s ((d.fnDone f 0x0116).reply 0)) ∧
    (s.dev.fatal = false →
      (s.dev.loaded f = false → Becomes (.kill f) s ((s.dev.fnDone f 0x0514).reply 0)) ∧
      (s.dev.loaded f = true → s.dev.fnState f = 1 → Becomes (.kill f) s ((s.dev.fnDone f 0x0501).reply 0)) ∧
      (s.dev.loaded f = true → s.dev.fnState f ≠ 1 → Becomes (.kill f) s ((s.dev.modFn f (fun r => { r with
        pendKill := true
        pendStop := false })).reply 0)))) ∧
  (∀ (d : Dev) (f at_ : Nat) (use : Bool) (rec_ : Nat), d.fatal = false → d.has R.LGR_STATUS_SELF_FENCED = false → d.powerDown = false →
    (d.loaded f = false → d.startCheck f at_ use rec_ = 0x0514) ∧
    (d.loaded f = true → d.fnPending f = true → d.startCheck f at_ use rec_ = 0x0511) ∧
    (d.loaded f = true → d.fnPending f = false → d.fnState f ≠ 1 → d.startCheck f at_ use rec_ = 0x0515) ∧
    (d.loaded f = true → d.fnPending f = false → d.fnState f = 1 →
      (d.has R.SEQ_TICK_CTRL_RUNNING = false → d.startCheck f at_ use rec_ = 0x051A) ∧
      (d.has R.SEQ_TICK_CTRL_RUNNING = true →
        (at_ ≠ 0 → at_ ≤ d.tickNo → d.startCheck f at_ use rec_ = 0x0517) ∧
        (at_ = 0 ∨ d.tickNo < at_ →
          (use = false → d.has (R.SEQ_FN_STATUS_PLAN_END f) = true → d.startCheck f at_ use rec_ = 0x051B) ∧
          (use = false → d.has (R.SEQ_FN_STATUS_PLAN_END f) = false → d.startCheck f at_ use rec_ = 0) ∧
          (use = true → d.steepCount f ≤ rec_ → d.startCheck f at_ use rec_ = 0x051B) ∧
          (use = true → rec_ < d.steepCount f → rec_ ≠ 0 → (d.record f (rec_ - 1)).2.2 = false → d.startCheck f at_ use rec_ = 0x051B) ∧
          (use = true → rec_ < d.steepCount f → rec_ = 0 ∨ (d.record f (rec_ - 1)).2.2 = true → d.startCheck f at_ use rec_ = 0)))))

/-- STAGE applies the checks of R109 in their order, the first failure deciding the status; an accepted one copies the consumer table, replaces a staged epoch
and sets MEMB_STAGED; it is no request of the function. -/
def Obligations.StageAppliesItsChecks : Prop :=
  ∀ (s : State) (f : FnId) (n : BitVec 16) (d : Dev) (epoch steep table : Nat), s.Live →
    d = s.dev.set (R.SEQ_FN_MEMB_CTRL_CONSUMERS f) n.toNat → epoch = d.get (R.SEQ_FN_MEMB_EPOCH_EPOCH f) →
    steep = (d.word (R.SEQ_FN_MEMB_STEEP f)).toNat → table = 4096 * d.get (R.SEQ_FN_MEMB_TABLE_ADDR f) →
    ∃ st : Status,
      (st = 0x0514 ∧ d.loaded f = false ∨
        d.loaded f = true ∧ (st = 0x0202 ∧ n = 0xFFFF ∨ n ≠ 0xFFFF ∧
          (st = 0x0120 ∧ (n = 0 ∨ 4096 < n.toNat) ∨ (n ≠ 0 ∧ n.toNat ≤ 4096) ∧
            (st = 0x0120 ∧ (∀ g, (d.img f).region 2 = some g → g.holds table (32 * n.toNat) = false) ∨
              (∃ g, (d.img f).region 2 = some g ∧ g.holds table (32 * n.toNat) = true) ∧
                (st = 0x0518 ∧ (epoch ≤ d.get (R.SEQ_FN_MEMB_CUR_EPOCH f) ∨ ∃ m, (d.fn f).staged = some m ∧ epoch ≤ m.epoch) ∨
                  (d.get (R.SEQ_FN_MEMB_CUR_EPOCH f) < epoch ∧ ∀ m, (d.fn f).staged = some m → m.epoch < epoch) ∧
                    (st = 0x0519 ∧ d.fnState f ≠ 1 ∧ steep ≤ d.steepNo f ∨ st = 0 ∧ (d.fnState f = 1 ∨ d.steepNo f < steep))))))) ∧
      (st ≠ 0 → Becomes (.stage f n) s ((d.setSt (R.SEQ_FN_MEMB_CUR_STATUS f) st).reply 0)) ∧
      (st = 0 → Becomes (.stage f n) s ((((d.setSt (R.SEQ_FN_MEMB_CUR_STATUS f) 0).modFn f (fun r => { r with
        staged := some ⟨epoch, steep, n.toNat, d.read table (32 * n.toNat)⟩ })).set (R.SEQ_FN_STATUS_MEMB_STAGED f) 1).reply 0))

/-! ## Channels, splices and batches -/

/-- A producer that holds a credit writes its oldest granule to the back of its channel, which issues one credit token and one descriptor; without a credit it
waits. The consumer takes the oldest granule, returns its credit and retires both tokens: granules keep their order and none is lost (R31, R32, R468). A splice in COPY mode forwards the next granule of its sample to every output once each holds a credit, and nothing before; the last granule completes the
stage. MERGE and JOIN act as their modes; a JOIN waits until a position is complete on every input (R65, R94). -/
def Obligations.ChannelsAndSplicesForward : Prop :=
  (∀ (s : State) (ch f : Nat) (c : ChanRec) (g : Granule) (r : List Granule) (x : Chan), s.Works → s.dev.chanRec ch = some (f, c) → x = s.dev.chan c →
    (s.dev.outQ c.prod = g :: r → x.credits ≠ 0 → s.dev.halted f = false →
      Becomes (.channelGranuleWrite ch) s ((((s.dev.setOutQ c.prod r).setChan c { credits := x.credits - 1, q := x.q ++ [g] }).issue (poolNo 1 f) 1).issue
        (poolNo 2 f) 1)) ∧
    (x.credits = 0 → Becomes (.channelGranuleWrite ch) s s.dev) ∧
    (x.q = g :: r → s.dev.halted f = false → s.dev.cacheEp f ≠ c.cons → (∀ e, (s.dev.img f).ep c.cons = some e → e.kind ≠ 0xB) → ∀ d : Dev,
      d = ((s.dev.setChan c { credits := x.credits + 1, q := r }).retire (poolNo 1 f) 1).retire (poolNo 2 f) 1 →
      Becomes (.channelCreditReturn ch) s (d.setInQ c.cons (d.inQ c.cons ++ [g]))) ∧
    (x.q = [] ∨ s.dev.halted f = true → Becomes (.channelCreditReturn ch) s s.dev)) ∧
  (∀ (s : State) (i f : Nat) (ins outs : List Endpoint), s.Works → s.dev.owner 0xC i = some f → s.dev.halted f = false → ins = (s.dev.img f).ports 0xC i false →
    outs = (s.dev.img f).ports 0xC i true →
    (fld (s.dev.config f 0xC i) 1 1 = 0 → ∀ (x : Endpoint) (r : List Endpoint) (e : Eng) (g : Granule) (d : Dev), ins = x :: r → e = s.dev.eng 0xC i →
      e.active = true → e.skip = false → s.dev.takeGranule x.ep e.pos e.tok = some (g, d) →
      (outs.any (fun o => !s.dev.hasRoom f o.ep) = true → Becomes (.spliceGranule i) s (s.dev.setEng 0xC i e)) ∧
      (outs.all (fun o => s.dev.hasRoom f o.ep) = true → g.defect = 0 → withinCap (d.workCap f 0xC i e.idx) (e.units + 1) = true → ∀ p : Dev,
        p = outs.foldl (fun d o => d.pushOut o.ep [g]) d →
        (g.last = true → Becomes (.spliceGranule i) s ((p.setEng 0xC i Eng.idle).stageComplete f 0xC i e.pos e.tok)) ∧
        (g.last = false → Becomes (.spliceGranule i) s (p.setEng 0xC i { e with units := e.units + 1 })))) ∧
    (fld (s.dev.config f 0xC i) 1 1 = 1 → Becomes (.spliceGranule i) s (s.dev.merge f i ins outs)) ∧
    (fld (s.dev.config f 0xC i) 1 1 = 2 → Becomes (.spliceGranule i) s (s.dev.join f i ins outs)) ∧
    (fld (s.dev.config f 0xC i) 1 1 = 2 → (s.dev.eng 0xC i).active = false → ∀ p t idx, lowest (ins.flatMap (fun x => s.dev.inQ x.ep)) = some (p, t, idx) →
      ins.any (fun x => !(s.dev.ofSample x.ep p t).any (fun g => g.last)) = true → Becomes (.spliceGranule i) s s.dev))

/-- The batch assembler takes the granules of the lowest position not yet placed: an unpacked sample's bytes gather up to SLOT_BYTES, one byte more is 0x0702,
and with its last granule the sample is placed (R94, R134, R135). Packing places a sample's tokens as R135's `place` does: within a row from the first free token on, a new row where a row or its segment table is full,
OUTPUT_LIMIT where no row is left, and no place for a sample without tokens. -/
def Obligations.AssemblersPlaceSamples : Prop :=
  (∀ (s : State) (f : FnId) (port fn : Nat) (ep : Endpoint) (l : Live) (e : Eng) (g : Granule) (d d' : Dev), s.Works → s.dev.halted f = false →
    s.dev.epOf 0xA f false port = some (fn, ep) → d = s.dev.setInQ ep.ep ((s.dev.inQ ep.ep).filter (fun g => !s.dev.staleAt f g)) →
    (d.fn f).live.find? (fun l => !l.placed) = some l → l.waiting = false → e = d.eng 0xA f → e.active = true → e.pos = l.pos → e.tok = l.tok →
    e.st = .splice port → d.asmWaits f (d.batchOf f l.pos) = false → d.takeGranule ep.ep l.pos l.tok = some (g, d') → d'.packMode f = 0 →
    (g.defect ≠ 0 → Becomes (.assemblerGranule f port) s (d'.asmDefect f l g.defect)) ∧
    (g.defect = 0 → withinCap (d'.workCap f 0xA f l.idx) (e.units + 1) = false → Becomes (.assemblerGranule f port) s (d'.asmDefect f l 0x0704)) ∧
    (g.defect = 0 → withinCap (d'.workCap f 0xA f l.idx) (e.units + 1) = true →
      (d'.slotBytes f < (e.buf ++ g.data).length → Becomes (.assemblerGranule f port) s (d'.asmDefect f l 0x0702)) ∧
      ((e.buf ++ g.data).length ≤ d'.slotBytes f → g.last = false →
        Becomes (.assemblerGranule f port) s (d'.setEng 0xA f { e with
          buf := e.buf ++ g.data
          units := e.units + 1 })) ∧
      ((e.buf ++ g.data).length ≤ d'.slotBytes f → g.last = true → Becomes (.assemblerGranule f port) s (d'.placeSample f l (e.buf ++ g.data))))) ∧
  (∀ (rowTokens rows segMax fuel r o g n : Nat) (first : Bool),
    (placeLoop rowTokens rows segMax (fuel + 1) r o g 0 first = some ((r, o, g), [])) ∧
    (0 < n → o ≠ rowTokens → g ≠ segMax → r < rows → n ≤ rowTokens - o →
      placeLoop rowTokens rows segMax (fuel + 2) r o g n first = some ((r, o + n, g + 1), [⟨r, g, o, n, if first then 0 else 1⟩])) ∧
    (0 < n → (o = rowTokens ∨ g = segMax) → rows ≤ r + 1 → placeLoop rowTokens rows segMax (fuel + 1) r o g n first = none) ∧
    (0 < n → (o = rowTokens ∨ g = segMax) → r + 1 < rows → 0 < rowTokens → rowTokens < n →
      placeLoop rowTokens rows segMax (fuel + 1) r o g n first =
        (placeLoop rowTokens rows segMax fuel (r + 1) rowTokens 1 (n - rowTokens) false).map
          (fun x => (x.1, ⟨r + 1, 0, 0, rowTokens, (if first then 0 else 1) + 2⟩ :: x.2))))

/-- Delivery to a consumer goes on with its oldest batch: the shard first and then the manifest, at its ring slot; a batch still to be signed waits, and a ring of no
slots holds the shard with 0x0201 (R130 to R133). SEC signs the manifest at the head of its queue: the signature of every byte before it is appended, the queue's token retired and SEC_SIGNED counted
(R139, R526). -/
def Obligations.ShardsAndManifestsAreDelivered : Prop :=
  (∀ (s : State) (f : FnId) (c : Nat) (b : Batch) (node win dataOff manOff ring : Nat), s.Works →
    (s.dev.fn f).batches.find? (fun b => b.manifest.isSome && c < b.consumers && b.stateOf c != 4) = some b → Map.find b.fails c = none →
    b.consumer c = (node, win, dataOff, manOff, ring) →
    (b.signing = true → Becomes (.shardDelivery f c) s s.dev) ∧
    (b.signing = false → b.stateOf c = 0 → ring = 0 → Becomes (.shardDelivery f c) s (s.dev.holdShard f b c 0x0201).settleShards) ∧
    (b.signing = false → b.stateOf c = 0 → ring ≠ 0 → (b.shardBytes c).isEmpty = false → ∀ d : Dev, d = s.dev.setFn f ((s.dev.fn f).setBatch (b.setState c 1)) →
      Becomes (.shardDelivery f c) s
        (d.deliverBytes f (b.setState c 1) c node win (dataOff + b.no % ring * b.dataStride) (b.shardBytes c)).settleShards) ∧
    (b.signing = false → b.stateOf c = 2 → ring ≠ 0 → ∀ d : Dev, d = s.dev.setFn f ((s.dev.fn f).setBatch (b.setState c 3)) →
      Becomes (.shardDelivery f c) s (d.deliverBytes f (b.setState c 3) c node win
        (manOff + b.no % ring * alignUp 4096 (b.manifest.getD []).length) (b.manifest.getD [])).settleShards)) ∧
  (∀ (s : State) (x : SignItem) (r : List SignItem) (b : Batch), s.Works → s.dev.sec.signQ = x :: r → (s.dev.fn x.fn).batches = [b] → b.no = x.batch →
    b.signing = true → ∀ d : Dev, d = (({ s.dev with sec := { s.dev.sec with signQ := r } }.retire (poolNo 0x15 0) 1).addWord R.SEC_SIGNED 1) →
    Becomes .manifestSign s (d.setFn x.fn { s.dev.fn x.fn with batches := [{ b with
      signing := false
      manifest := b.manifest.map (fun m => m ++ edSign s.dev.sec.seed m) }] }))

/-! ## Media -/

/-- A media read slot senses the next codeword of its extent: a page that decodes at step 1 is counted in CW_READ and CW_HARD and its payload kept; a codeword past
the sample's work cap is not started and makes the sample defective with 0x0704; a codeword that no step corrects goes on to the replica and, that failing
too, fails the read (R150 to R152). An extent leaves the media engine only where the CRC-32C of its bytes is STORED_CRC, and INPUT_CRC is then STORED_CRC; where no step proves it the read has
failed: it is counted, MEDIA_UNCORRECTABLE is raised once and the function stalls (R150, R151, R153). A media-window read of a thread answers it with the bytes of its codeword, or with 0x0301 where no step corrects it; media that is not online answers 0x0303
(R147, R150, R151). -/
def Obligations.MediaReadsAnswer : Prop :=
  (∀ (s : State) (f : FnId) (pos e ch n i p a : Nat) (o : CwOutcome) (rep : Remote) (l : Live) (ep : Endpoint) (x : MediaRead) (ms : List Nat)
    (m page cw : Nat), s.Works → s.dev.halted f = false → s.dev.liveAt f pos = some l → l.waiting = false → l.hit = false → s.dev.mOnline = true →
    e = s.dev.sampleExtent f l.idx → ch = s.dev.extChannel f e →
    (s.dev.img f).eps.find? (fun y => y.kind = 1 && y.inst = ch && y.out && y.port = s.dev.samplePort f l.idx) = some ep →
    (s.dev.fn f).readOf pos l.tok = some x → x.fin = false → x.failed = 0 → n = s.dev.extCount f e → i = x.cws.length → i < n →
    s.dev.extPlace f e i = (ms, m, page, cw) → p = s.dev.mapNs f (s.dev.extFld f e 0 2) 4 4 → a = s.dev.resolve (ms.getD m 0) p →
    (withinCap (s.dev.workCap f 1 ch l.idx) (i + 1) = false →
      Becomes (.mediaCodewordRead f pos o rep) s
        (((s.dev.setRead f { x with fin := true }).retire (poolNo 6 f) 1).markOut f 1 ch [ep.ep] pos l.tok l.idx 0x0704)) ∧
    (withinCap (s.dev.workCap f 1 ch l.idx) (i + 1) = true →
      (i + 1 < n → s.dev.med.queue.contains a = false → s.dev.blkFailed a = false → o.hard = .stored → ∀ b,
        Map.find s.dev.med.nand (pcaOf a page cw) = some b →
        Becomes (.mediaCodewordRead f pos o rep) s
          ((((s.dev.hlth cwRead).sense_ a 1).hlth cwHard).setRead f { x with cws := x.cws ++ [(b, false)] })) ∧
      (∀ d, s.dev.readCw ms m page cw p o = (none, d) →
        Becomes (.mediaCodewordRead f pos o rep) s (d.lastSteps f ch ep.ep l x rep)) ∧
      (i + 1 = n → ∀ c d, s.dev.readCw ms m page cw p o = (some c, d) →
        Becomes (.mediaCodewordRead f pos o rep) s (d.extentCheck f ch ep.ep l { x with cws := x.cws ++ [c] } o.badMembers rep)))) ∧
  (∀ (d : Dev) (f ch ep e off len want : Nat) (l : Live) (x : MediaRead) (bad : List Nat) (rep : Remote) (b : Bytes),
    e = d.sampleExtent f l.idx → off = d.extFld f e 4 2 → len = d.extFld f e 8 4 → want = d.extFld f e 0xC 4 →
    b = slice (x.cws.flatMap (fun c => c.1)) off len →
    (crc32c b = want → d.extentCheck f ch ep l x bad rep = d.deliverExtent f ch ep l x b) ∧
    (rep = .none → x.failed = 0 → d.lastSteps f ch ep l x rep =
      (((d.hlth cwUncorrectable).setRead f { x with failed := 1 }).raise 129 f).stall f l.pos 0x0301) ∧
    (rep = .none → x.failed ≠ 0 → d.lastSteps f ch ep l x rep = (d.hlth cwUncorrectable).setRead f { x with failed := 1 })) ∧
  (∀ (s : State) (o : CwOutcome) (serial t addr len : Nat) (r : List MediaAsk) (d : Dev), s.Works →
    s.dev.med.asks = .thread serial t addr len :: r → d = { s.dev with med := { s.dev.med with asks := r } } →
    (∀ st b d', d.windowRead (addr % 2 ^ 52) len o = ((st, b), d') → Becomes (.mediaWindowRead o) s (d'.thrGot t serial st b)) ∧
    (d.mOnline = false → Becomes (.mediaWindowRead o) s (d.thrGot t serial St.mediaOffline [])) ∧
    (s.dev.med.asks = [] → Becomes (.mediaWindowRead o) s s.dev))

/-- A die that fails its RESET after a command timeout becomes FAILED: its bit in MED_DIE_FAIL_k is set, it is counted, and DIE_FAILED is raised; a die that recovers
leaves everything as it was (R154). PAGE_PROGRAM writes the four codewords of a data page that the write buffer holds, and PARITY_PROGRAM the XOR of the stripe's data pages once all of them are
programmed, after which the stripe is protected and leaves the write buffer; a page that fails to program replaces its member (R148, R149, R156). A freed block is erased, once no live relocation names it as OLD: its pages are gone and it returns to the free pool, or is worn out, or is retired where the
erase fails; while a live entry names it, nothing happens (R163, R176). -/
def Obligations.PagesAndBlocksAreWritten : Prop :=
  (∀ (s : State) (ch die : Nat), s.Live → ch < 32 → die < s.dev.mDies →
    Becomes (.nandCommandTimeout ch die false) s s.dev ∧
    (s.dev.dieFailed ch die = false → Becomes (.nandCommandTimeout ch die true) s
      (((s.dev.set ⟨R.MED_DIE_FAIL (ch / 2), 32 * (ch % 2) + die, 32 * (ch % 2) + die⟩ 1).inc R.MED_STATUS_DIES_FAILED).raise 130 (ch * 32 + die))) ∧
    (s.dev.dieFailed ch die = true → Becomes (.nandCommandTimeout ch die true) s s.dev)) ∧
  (∀ (s : State) (k page m : Nat) (b : SupBlk), s.Live → s.dev.mOnline = true → b = s.dev.sb k → b.members.length = 32 →
    (m < 32 → m ≠ page % 32 → b.data.contains (32 * page + m) = false → ∀ w : List Bytes, w.length = 4 →
      (List.range 4).map (fun c => Map.find s.dev.med.wbuf (placeNo k page m c)) = w.map some →
      Becomes (.pageProgram k page m false) s (s.dev.programFailed k m) ∧
      Becomes (.pageProgram k page m true) s (((s.dev.modMed (fun x => { x with
        nand := ((List.range 4).zip (w.map some)).foldl (fun l e => Map.insert l (pcaOf (b.members.getD m 0) page e.1) (e.2.getD [])) x.nand })).setSb k
          { b with data := insNat (32 * page + m) b.data }).hlth pagePrograms)) ∧
    (b.prot.contains page = false → (∀ j, j < 32 → j ≠ page % 32 → b.data.contains (32 * page + j) = true) →
      Becomes (.parityProgram k page false) s (s.dev.programFailed k (page % 32)) ∧
      ∃ par : List Bytes, (∀ c, c < 4 → par.getD c [] = ((List.range 32).filter (fun j => j != page % 32)).foldl (fun acc j =>
          xorBytes acc ((Map.find s.dev.med.nand (pcaOf (b.members.getD j 0) page c)).getD [])) (List.replicate 3840 0)) ∧
        Becomes (.parityProgram k page true) s (((s.dev.modMed (fun x => { x with
          nand := ((List.range 4).zip par).foldl (fun l e => Map.insert l (pcaOf (b.members.getD (page % 32) 0) page e.1) e.2) x.nand
          wbuf := x.wbuf.filter (fun e => e.1 / 128 ≠ k * 1024 + page) })).setSb k { b with prot := insNat page b.prot }).hlth pagePrograms))) ∧
  (∀ (s : State) (a : Nat) (d : Dev), s.Live → s.dev.inP0 = true →
    (s.dev.med.live.reloc.any (fun x => x.old = a) = true → ∀ ok, Becomes (.blockErase a ok) s s.dev) ∧
    ((s.dev.blk a).st = 2 → s.dev.med.live.reloc.any (fun x => x.old = a) = false → s.dev.med.freeing.contains a = false →
      d = s.dev.modMed (fun x => { x with nand := x.nand.filter (fun e => e.1 / 4096 ≠ a) }) →
      Becomes (.blockErase a false) s ((d.setBlkSt a 3).hlth eraseFails) ∧
      (d.endurance = 0 ∨ (d.blk a).erases + 1 < d.endurance → Becomes (.blockErase a true) s
        (((d.setBlk a ⟨0, (d.blk a).erases + 1, 0⟩).hlth blockErases).modLive (fun m => { m with
          spareUsed := Map.upd 0 m.spareUsed (blkChan a) (· - 1) }))) ∧
      (d.endurance ≠ 0 → d.endurance ≤ (d.blk a).erases + 1 → Becomes (.blockErase a true) s
        ((d.setBlk a ⟨3, (d.blk a).erases + 1, 0⟩).hlth blockErases))))

/-- Refresh moves the block at the head of its queue, and repair the oldest block queued, to an erased block of the channel, which starts at read count 0; the
move becomes a live relocation entry when it is committed: the map epoch rises by one where none has risen since the latest export, and the entry
takes it (R150, R161, R162, R164, R169, R171, R172). A write of MED_MAP_FLOOR that lowers the floor or exceeds the map epoch is refused with 0x011D, one above a loaded section's epoch with 0x0521, and neither
changes floor or table; an accepted one frees the entries at or below it, whose OLD blocks are erased and returned when the freeing is done (R168). -/
def Obligations.BlocksAreMovedAndFreed : Prop :=
  (∀ (s : State) (old new : Nat) (r : List Nat) (d : Dev), s.Live →
    (s.dev.mayMove old new = true → ∀ ps : List (Nat × Bytes),
      ps = (s.dev.med.nand.filter (fun e => e.1 / 4096 = old)).map (fun e => (e.1 % 4096 + new * 4096, e.2)) →
      d = ((s.dev.sense_ old (ps.length / 4)).modMed (fun x => { x with
        nand := ps.foldl (fun l e => Map.insert l e.1 e.2) x.nand
        move := some (old, new) })).useSpare (blkChan old) new →
      (s.dev.med.queue = old :: r → Becomes (.blockRefresh new true) s (d.hlth refreshes) ∧
        Becomes (.blockRefresh new false) s ((s.dev.setBlkSt new 3).hlth programFails)) ∧
      (s.dev.med.repair = old :: r → s.dev.blkSealed old = true → Becomes (.blockRepair new true) s (d.hlth repairs))) ∧
    (s.dev.med.repair = old :: r → s.dev.blkSealed old = false →
      (s.dev.med.live.sbs.findSome? (fun e => (e.2.members.findIdx? (· == old)).map (fun m => (e.1, m))) = none → ∀ ok,
        Becomes (.blockRepair new ok) s (s.dev.modMed (fun m => { m with repair := r }))) ∧
      (∀ k m e, s.dev.med.live.sbs.findSome? (fun e => (e.2.members.findIdx? (· == old)).map (fun m => (e.1, m))) = some (k, m) →
        s.dev.replaceMember k m = some e → Becomes (.blockRepair new true) s ((e.modMed (fun m => { m with repair := r })).hlth repairs))) ∧
    (s.dev.mayMove old new = false → s.dev.med.queue = old :: r → ∀ ok, Becomes (.blockRefresh new ok) s s.dev) ∧
    (s.dev.med.move = some (old, new) → ∀ ep : Nat, (s.dev.med.live.exported = true ∧ s.dev.med.live.raised = false ∧ ep = s.dev.med.live.epoch + 1 ∨
        (s.dev.med.live.exported = false ∨ s.dev.med.live.raised = true) ∧ ep = s.dev.med.live.epoch) →
      ∃ e : Dev, Becomes .relocationCommit s e ∧ e.med.live.epoch = ep ∧ e.med.live.reloc = s.dev.med.live.reloc ++ [⟨old, new, ep⟩] ∧
        e.med.move = none ∧ e.med.saved.reloc = e.med.live.reloc ∧ e.mem = s.dev.mem ∧ e.get R.MED_MAP_EPOCH_EPOCH = ep % 2 ^ 32)) ∧
  (∀ (s : State) (v : Word) (n : Nat), s.Live → n = getBits v 31 0 →
    (n < s.dev.med.live.floor ∨ s.dev.med.live.epoch < n →
      Becomes (.mapFloorWrite v) s ((s.dev.setSt R.MED_MAP_FLOOR_STATUS 0x011D).reply 0)) ∧
    (s.dev.med.live.floor ≤ n → n ≤ s.dev.med.live.epoch → s.dev.mapEpochs.any (fun e => e < n) = true →
      Becomes (.mapFloorWrite v) s ((s.dev.setSt R.MED_MAP_FLOOR_STATUS 0x0521).reply 0)) ∧
    (s.dev.med.live.floor ≤ n → n ≤ s.dev.med.live.epoch → s.dev.mapEpochs.any (fun e => e < n) = false →
      ∃ d : Dev, Becomes (.mapFloorWrite v) s (d.reply 0) ∧ d.med.live.floor = n ∧ d.med.live.reloc = s.dev.med.live.reloc.filter (fun x => n < x.epoch) ∧
        d.med.freeing = s.dev.med.freeing ++ (s.dev.med.live.reloc.filter (fun x => x.epoch ≤ n)).map (·.old) ∧ d.mem = s.dev.mem ∧
        d.med.nand = s.dev.med.nand ∧ d.seq = s.dev.seq) ∧
    (Becomes .mapFloorFreeDone s (s.dev.med.freeing.foldl (fun d a => d.returnBlock a) (s.dev.modMed (fun m => { m with
      freeing := []
      nand := m.nand.filter (fun e => !s.dev.med.freeing.contains (e.1 / 4096)) })))))

/-- The minutely and hourly copies: the read counts, the health log and a temperature entry of the minute (R170, R179). GC copies the valid sectors of the superblock it picks into new places of the writable region; a copied sector's page-map entry follows once its target page
is programmed, and only if it still names the source, so that a host write in between wins; a target that fails to program retires its block (R173 to R175). Media start-up: a geometry unlike the profile's or a channel that does not train leaves the media OFFLINE with 0x0304, a corrupt metadata area leaves it FAILED
with 0x0305, and otherwise it comes ONLINE with status 0 and the geometry found, the map state as the metadata area holds it (R143, R178). -/
def Obligations.MediaUpkeepRuns : Prop :=
  (∀ (s : State) (hi lo : BitVec 8), s.Live →
    (s.dev.mOnline = true →
      Becomes .readCountSave s (s.dev.modMed (fun m => { m with saved := { m.saved with blks := m.live.blks } })) ∧
      Becomes .healthLogSave s (s.dev.modMed (fun m => { m with saved := { m.saved with
        counters := m.live.counters
        gcHalted := m.live.gcHalted
        temps := m.live.temps } }))) ∧
    (∀ mx mn, s.dev.med.tj = some (mx, mn) → s.dev.med.live.temps.length < 1440 →
      Becomes (.tempHistoryRecord hi lo) s ((s.dev.modMed (fun m => { m with tj := none })).modLive (fun m => { m with
        temps := m.temps ++ [le 4 (s.dev.ftSeconds / 60) ++ [hi, lo] ++ (le 1 (wrap 8 mx) ++ le 1 (wrap 8 mn))] })))) ∧
  (∀ (s : State) (k : Nat) (c : GcCopy) (r : List GcCopy) (page m cw : Nat), s.Live →
    (s.dev.mOnline = true → s.dev.inP0 = true → s.dev.med.gcSb = none → s.dev.med.live.gcHalted = false →
      (s.dev.writableSbs - s.dev.wSbs.length < 4 ∨ s.dev.wSbs.any (fun e => e.2.members.any s.dev.blkFailed) = true) →
      (∀ ch, ch < 32 → 0 < s.dev.unowned ch) → s.dev.gcChoice = some k → s.dev.validIn k = [] → s.dev.med.gc = [] →
      Becomes .gcRun s (((s.dev.modMed (fun m => { m with gcSb := some k })).gcFree k).modMed (fun m => { m with gcSb := none }))) ∧
    (s.dev.med.gc = c :: r → placeOf (c.dst % s.dev.sbSectors) = (page, m, cw) →
      Becomes (.gcMapUpdate false) s ((s.dev.programFailed (c.dst / s.dev.sbSectors) m).hlth gcTargetFails) ∧
      ((s.dev.sb (c.dst / s.dev.sbSectors)).data.contains (32 * page + m) = true → r ≠ [] →
        (Map.find s.dev.med.live.pmap c.key = some c.src → Becomes (.gcMapUpdate true) s
          (((s.dev.modLive (fun x => { x with pmap := Map.insert x.pmap c.key c.dst })).hlth gcCopies).modMed (fun x => { x with gc := r }))) ∧
        (Map.find s.dev.med.live.pmap c.key ≠ some c.src → Becomes (.gcMapUpdate true) s (s.dev.modMed (fun x => { x with gc := r })))))) ∧
  (∀ (s : State) (x : MediaFound) (p : Bytes), s.Live → s.dev.mOnline = false → p = s.dev.profile →
    (profileOk p = false ∨ x.trained = false ∨ x.dies ≠ fld p 8 1 ∨ x.planes ≠ fld p 9 1 ∨ x.blocks ≠ fld p 0xA 2 ∨ x.pages ≠ fld p 0xC 2 →
      Becomes (.mediaStartup x) s ((s.dev.set R.MED_STATUS_STATE 0).setSt R.MED_STATUS_STATUS 0x0304)) ∧
    (profileOk p = true → x.trained = true → x.dies = fld p 8 1 → x.planes = fld p 9 1 → x.blocks = fld p 0xA 2 → x.pages = fld p 0xC 2 →
      (x.metaOk = false → Becomes (.mediaStartup x) s ((s.dev.set R.MED_STATUS_STATE 3).setSt R.MED_STATUS_STATUS 0x0305)) ∧
      (x.metaOk = true → x.failedDies = [] → s.dev.med.lost = false →
        ∃ d : Dev, Becomes (.mediaStartup x) s d ∧ d.get R.MED_STATUS_STATE = 2 ∧ d.get R.MED_STATUS_STATUS = 0 ∧
          d.get R.MED_GEOM_DIES = x.dies % 2 ^ 8 ∧ d.med.live.pmap = s.dev.med.saved.pmap ∧ d.med.live.ns = s.dev.med.saved.ns ∧
          d.med.live.reloc = s.dev.med.saved.reloc ∧ d.med.nand = s.dev.med.nand ∧ d.mem = s.dev.mem ∧ d.seq = s.dev.seq)))

/-! ## Storage commands and power states -/

/-- A GO on a free task set clears the set's status, result and parts and reports its OPCODE; the checks of R187 then end the command at once with their status, or
put it in line as BUSY. A GO with an OPCODE of no command ends with 0x0116, and one on a set that is BUSY sets GO_REJECTED and changes nothing else (R181, R182,
R186, R187, R200, R475). A GO on a task set that is BUSY is rejected: GO_REJECTED is set and nothing else changes (R181). The checks of R187 in their order: the opcode, the namespace number, the media, the namespace's existence, a SEAL or NS_DELETE of it under way, its kind and
state, a reserved length, the bounds, a count of 0, the write pointer, the buffer. -/
def Obligations.StorageCommandsStart : Prop :=
  (∀ (s : State) (t : Fin 8) (c : Instr) (op : Nat) (x : Task) (d e : Dev), s.Live → s.dev.has (R.STC_TASK_STATUS_BUSY t) = false →
    op = s.dev.get (R.STC_TASK_CMD_OPCODE t) →
    (c, op) ∈ [(Instr.read t, 1), (.write t, 2), (.flush t, 3), (.deallocate t, 4), (.nsCreate t, 0x10), (.nsDelete t, 0x11), (.nsList t, 0x12),
        (.identify t, 0x13), (.health t, 0x14), (.mapExport t, 0x15), (.seal t, 0x16)] ∨ stcListed op = false ∧ c = .stcOpcodeInvalid t →
    x = s.dev.stcTask t →
    d = (List.range 8).foldl (fun d k => d.setWord (R.STC_TASK_PART t k) 0)
      ((((s.dev.setWord (R.STC_TASK_STATUS t) 0).set (R.STC_TASK_STATUS_OPCODE t) x.op).setWord (R.STC_TASK_RESULT t) 0).setWord (R.STC_TASK_PART_MASK t) 0) →
    e = d.powerWake.set (R.STC_TASK_STATUS_BUSY t) 1 →
    (d.fatal = true → Becomes c s ((d.stcComplete t 0x0F04 0).reply 0)) ∧
    (d.fatal = false →
      (stcListed op = false → Becomes c s ((e.stcComplete t 0x0116 0).reply 0)) ∧
      (∀ st runs, e.stcCheck x = (st, runs) → st ≠ 0 ∨ runs = false → Becomes c s ((e.stcComplete t st 0).reply 0)) ∧
      (e.stcCheck x = (0, true) → op ≠ 2 ∨ (e.modMed (fun m => { m with tasks := m.tasks ++ [x] })).bufRemote x.buf = false →
        Becomes c s ((e.modMed (fun m => { m with tasks := m.tasks ++ [x] })).reply 0)))) ∧
  (∀ (s : State) (t : Fin 8), s.Live → s.dev.has (R.STC_TASK_STATUS_BUSY t) = true →
    Becomes (.stcGoRejected t) s ((s.dev.set (R.STC_TASK_STATUS_GO_REJECTED t) 1).reply 0)) ∧
  (∀ (d : Dev) (t : Task),
    (stcListed t.op = false → d.stcCheck t = (0x0116, false)) ∧
    (stcListed t.op = true →
      (stcNames t.op = true → t.nsid = 0 ∧ t.op ≠ 3 ∨ 64 < t.nsid → d.stcCheck t = (0x0123, false)) ∧
      (stcNames t.op = true → 1 ≤ t.nsid → t.nsid ≤ 64 → d.mOnline = false → d.stcCheck t = (0x0303, false)) ∧
      (stcNames t.op = true → 1 ≤ t.nsid → t.nsid ≤ 64 → d.mOnline = true →
        (t.op = 0x10 → ∀ x, d.ns t.nsid = some x → d.stcCheck t = (0x0523, false)) ∧
        (t.op ≠ 0x10 → d.ns t.nsid = none → d.stcCheck t = (0x0522, false)) ∧
        (∀ x, d.ns t.nsid = some x → t.op ≠ 0x10 →
          (d.med.tasks.any (fun e => (e.op = 0x16 || e.op = 0x11) && e.nsid = t.nsid) = true → d.stcCheck t = (0x0525, false)) ∧
          (d.med.tasks.any (fun e => (e.op = 0x16 || e.op = 0x11) && e.nsid = t.nsid) = false →
            (d.stcKind t x ≠ 0 → d.stcCheck t = (d.stcKind t x, false)) ∧
            (d.stcKind t x = 0 →
              (stcCounts t.op = true → t.count = 2 ^ 32 - 1 → d.stcCheck t = (0x0202, false)) ∧
              (stcCounts t.op = true → t.count < 2 ^ 32 - 1 → stcBuffers t.op = false ∨ t.len ≠ 2 ^ 64 - 1 →
                (d.stcBounds t = false → d.stcCheck t = (0x0201, false)) ∧
                (d.stcBounds t = true → t.count = 0 → d.stcCheck t = (0, false)) ∧
                (d.stcBounds t = true → t.count ≠ 0 → t.op = 2 → x.kind = 1 → t.sector ≠ d.projWp t.nsid x → d.stcCheck t = (0x0121, false)) ∧
                (d.stcBounds t = true → t.count ≠ 0 → t.op ≠ 2 ∨ x.kind ≠ 1 ∨ t.sector = d.projWp t.nsid x → d.stcCheck t = (d.stcBuf t, true)))))))))

/-- A storage command completes by its own effect once nothing earlier holds it back: READ writes the sectors to its buffer, DEALLOCATE unmaps its sectors, NS_CREATE
makes the namespace, NS_LIST and IDENTIFY write their records; a command that an earlier one holds back waits (R156, R184, R188, R192, R194, R195). A completion reports its status and, where it is OK, its result, clears BUSY and sets DONE (R182). -/
def Obligations.StorageCommandsEnd : Prop :=
  (∀ (s : State) (t : Fin 8) (fails : List (Nat × Status)) (x : Task), s.Works → s.dev.get R.MGT_FW_STATUS_STATE ≠ 3 → s.dev.task t = some x → x.set = t →
    ((s.dev.earlier t).any (fun e => s.dev.holds e x) = true → Becomes (.stcCommandComplete t fails) s s.dev) ∧
    ((s.dev.earlier t).any (fun e => s.dev.holds e x) = false →
      (x.op = 1 → s.dev.bufRemote x.buf = false → (∀ c, c < 32 → 0 < s.dev.unowned c) → (∀ i, i < x.count → s.dev.secPlace x.nsid (x.sector + i) = none) →
        (∃ y, s.dev.ns x.nsid = some y ∧ y.kind = 0) →
        Becomes (.stcCommandComplete t fails) s ((s.dev.write (x.buf % 2 ^ 52) (List.replicate (3840 * x.count) 0)).stcComplete t 0 (3840 * x.count))) ∧
      (x.op = 4 → Becomes (.stcCommandComplete t fails) s (((s.dev.modLive (fun m => { m with
          pmap := m.pmap.filter (fun e => e.1 < 2 ^ 48 * x.nsid + x.sector || 2 ^ 48 * x.nsid + x.sector + x.count ≤ e.1) })).modMed (fun m => { m with
          dirty := true })).stcComplete t 0 0)) ∧
      (x.op = 0x10 → s.dev.ns x.nsid = none →
        Becomes (.stcCommandComplete t fails) s (((s.dev.setNs x.nsid ⟨x.kind, x.cap, false, false, 0, 0, []⟩).saveMeta).stcComplete t 0 0)) ∧
      (∀ b, x.op = 0x12 ∧ b = s.dev.med.live.ns.flatMap (fun e => nsEntry e.1 e.2) ∨ x.op = 0x13 ∧ b = s.dev.identifyRec → s.dev.bufRemote x.buf = false →
        Becomes (.stcCommandComplete t fails) s ((s.dev.write (x.buf % 2 ^ 52) b).stcComplete t 0 b.length)))) ∧
  (∀ (d : Dev) (t : Fin 8) (st : Status) (r : Nat),
    (d.stcComplete t st r).get (R.STC_TASK_STATUS_STATUS t) = st.toNat ∧ (d.stcComplete t st r).has (R.STC_TASK_STATUS_BUSY t) = false ∧
    (d.stcComplete t st r).has (R.STC_TASK_STATUS_DONE t) = true ∧ (st = 0 → (d.stcComplete t st r).word (R.STC_TASK_RESULT t) = BitVec.ofNat 64 r) ∧
    (st ≠ 0 → (d.stcComplete t st r).word (R.STC_TASK_RESULT t) = 0) ∧ (d.stcComplete t st r).mem = d.mem)

/-- A power request: the current state completes at once with 0, a shallower one takes effect at once, a deeper one begins an entry unless a function runs (0x0515)
or the loader is busy; one made while an entry is under way, or after a fatal cause, is refused (R198, R201, R475). An entry commits once no task set is BUSY and nothing is left in the write buffer: CURRENT takes the target. HBM enters self-refresh when its timer runs out
(R197, R199). -/
def Obligations.PowerStatesChange : Prop :=
  (∀ (s : State) (c : Instr) (p cur : Nat) (d e : Dev), s.Live →
    (c, p) ∈ [(Instr.powerRequestP0, 0), (.powerRequestP1, 1), (.powerRequestP2, 2), (.powerRequestP3, 3)] → cur = s.dev.get R.STC_POWER_STATUS_CURRENT →
    d = s.dev.set R.STC_POWER_CTRL_TARGET p → e = d.set R.STC_POWER_STATUS_TARGET p →
    (d.fatal = true → Becomes c s ((d.powerDone 0x0F04).reply 0)) ∧
    (d.fatal = false → d.has R.STC_POWER_STATUS_ENTERING = true → Becomes c s ((d.powerDone 0x0511).reply 0)) ∧
    (d.fatal = false → d.has R.STC_POWER_STATUS_ENTERING = false →
      (p = cur → Becomes c s ((e.powerDone 0).reply 0)) ∧
      (p < cur → Becomes c s (((e.powerExit p).powerDone 0).reply 0)) ∧
      (cur < p → (List.range 16).all (fun f => d.fnState f ≤ stStopped) = false → Becomes c s ((e.powerDone 0x0515).reply 0)) ∧
      (cur < p → (List.range 16).all (fun f => d.fnState f ≤ stStopped) = true →
        (d.has R.SEQ_IMG_STATUS_BUSY = true ∨ d.has R.SEQ_IMG_STATUS_PENDING = true → Becomes c s ((e.powerDone 0x0510).reply 0)) ∧
        (d.has R.SEQ_IMG_STATUS_BUSY = false → d.has R.SEQ_IMG_STATUS_PENDING = false →
          Becomes c s (((e.set R.STC_POWER_STATUS_ENTERING 1).set R.STC_POWER_STATUS_DONE 0).reply 0))))) ∧
  (∀ s : State, (s.Works →
      (s.dev.has R.STC_POWER_STATUS_ENTERING = false ∨ s.dev.med.tasks ≠ [] → Becomes .powerEntryCommit s s.dev) ∧
      (s.dev.has R.STC_POWER_STATUS_ENTERING = true → s.dev.med.tasks = [] → s.dev.mOnline = false → s.dev.med.wbuf = [] → ∀ p,
        p = s.dev.get R.STC_POWER_STATUS_TARGET → p ≠ 3 →
        Becomes .powerEntryCommit s (((s.dev.set R.STC_POWER_STATUS_CURRENT p).set R.STC_POWER_STATUS_ENTERING 0).powerDone 0)) ∧
      (s.dev.has R.STC_POWER_STATUS_ENTERING = true → s.dev.med.tasks = [] → s.dev.mOnline = true → s.dev.padAll.med.wbuf ≠ [] →
        Becomes .powerEntryCommit s s.dev.padAll)) ∧
    (s.Live →
      (s.dev.med.accessed = true → s.dev.expired .selfRefresh = true →
        Becomes .hbmSelfRefreshEntry s ((s.dev.modMed (fun m => { m with accessed := false })).disarm .selfRefresh)) ∧
      (s.dev.expired .selfRefresh = false → Becomes .hbmSelfRefreshEntry s s.dev)))

/-! ## Engines -/

/-- The residue codec decodes a stream in the order of R210: a stream or frame header that is not valid is 0x0703, a stream longer than the output limit 0x0702; a frame
starts with fresh contexts, or with those that its HIST_IN restores; a block gives its values or ends the sample at its first error, as 0x0704 where the
work cap comes first; a trailer whose CRC differs is 0x0701 (R203 to R210, R216). The residue codec compresses a whole sample: the checks of R220 in their order decide a defect; an empty sample gives a stream without a frame, and any other a
stream of one frame whose blocks take the cheapest predictors and whose trailer is the sample's CRC-32C (R220, R221). -/
def Obligations.ResidueStreamsAreCoded : Prop :=
  (∀ (s : State) (i f eo : Nat) (e : Eng) (d : Dev) (c h : Bytes) (r : RcxSt) (n rows : Nat), s.Works → s.dev.AtWork 2 i f eo e d → c = d.config f 2 i → fld c 1 1 = 0 →
    r = e.rcx → h = e.buf.take 32 → n = fld e.buf 4 4 → rows = min (ghBlockRows r.hdr) r.rows →
    (r.stage = 0 → 16 ≤ e.buf.length →
      (streamHeaderOk e.buf = false → Becomes (.rcxFrameHeader i) s ((d.setEng 2 i e).failSample f 2 i eo 0x0703)) ∧
      (streamHeaderOk e.buf = true → fld c 0x10 8 < fld e.buf 8 8 → Becomes (.rcxFrameHeader i) s ((d.setEng 2 i e).failSample f 2 i eo 0x0702))) ∧
    (r.stage = 1 → 32 ≤ e.buf.length →
      (frameHeaderOk h = false → Becomes (.rcxFrameHeader i) s ((d.setEng 2 i e).failSample f 2 i eo 0x0703)) ∧
      (frameHeaderOk h = true → (ghFlags h).testBit 1 = false ∨ fld c 4 4 ≠ 0 →
        ((ghFlags h).testBit 0 = false → Becomes (.rcxFrameHeader i) s ((d.setEng 2 i e).rcxGo i e { r with
          stage := 2
          hdr := h
          rows := ghHeight h
          up := List.replicate (ghWidth h * ghComps h) (2 ^ (ghDepth h - 1))
          ctx := freshCtx (ghDepth h)
          crc := 0xFFFFFFFF } 32)) ∧
        ((ghFlags h).testBit 0 = true → (d.setEng 2 i e).rcxRestore c h = none →
          Becomes (.rcxFrameHeader i) s ((d.setEng 2 i e).failSample f 2 i eo 0x0703)) ∧
        (∀ ctx row, (ghFlags h).testBit 0 = true → (d.setEng 2 i e).rcxRestore c h = some (ctx, row) →
          Becomes (.rcxFrameHeader i) s (((d.setEng 2 i e).inc (R.RCX_ENG_HIST_RESTORES i)).rcxGo i e { r with
            stage := 2
            hdr := h
            rows := ghHeight h
            up := row
            ctx := ctx
            crc := 0xFFFFFFFF } 32)))) ∧
    (r.stage = 2 → 12 ≤ e.buf.length →
      (blockHeaderOk e.buf r.hdr rows = false → Becomes (.rcxBlockDecode i) s (d.failSample f 2 i eo 0x0703)) ∧
      (blockHeaderOk e.buf r.hdr rows = true → 12 + n ≤ e.buf.length → ∀ out,
        (min r.total (fld c 0x10 8) < r.written + fld e.buf 0 4 → Becomes (.rcxBlockDecode i) s (d.failSample f 2 i eo 0x0702)) ∧
        (r.written + fld e.buf 0 4 ≤ min r.total (fld c 0x10 8) →
          (∀ t, blockDecode e.buf ((e.buf.drop 12).take n) r rows = (out, some t) →
            (withinCap (d.capOf f 2 i e) (cdiv t.written 64) = true →
              Becomes (.rcxBlockDecode i) s ((d.rcxGo i { e with units := cdiv t.written 64 } t (12 + n)).putOut 2 i eo out)) ∧
            (withinCap (d.capOf f 2 i e) (cdiv t.written 64) = false → Becomes (.rcxBlockDecode i) s (d.failSample f 2 i eo 0x0704))) ∧
          (blockDecode e.buf ((e.buf.drop 12).take n) r rows = (out, none) → out.length ≠ fld e.buf 0 4 →
            Becomes (.rcxBlockDecode i) s (d.failSample f 2 i eo
              (if withinCap (d.capOf f 2 i e) ((r.written + out.length) / 64 + 1) then 0x0703 else 0x0704)))))) ∧
    (r.stage = 3 → 4 ≤ e.buf.length →
      (fld e.buf 0 4 ≠ r.crc ^^^ 0xFFFFFFFF → Becomes (.rcxFrameTrailer i) s (d.failSample f 2 i eo 0x0701)) ∧
      (fld e.buf 0 4 = r.crc ^^^ 0xFFFFFFFF → (ghFlags r.hdr).testBit 1 = false → r.frames ≠ 1 →
        Becomes (.rcxFrameTrailer i) s (d.rcxGo i e { r with
          frames := r.frames - 1
          stage := 1 } 4)))) ∧
  (∀ (s : State) (i f eo : Nat) (e : Eng) (d : Dev) (c : Bytes), s.Works → s.dev.AtWork 2 i f eo e d → c = d.config f 2 i → fld c 1 1 = 1 → e.arrived = true →
    (∀ st, compressCheck c (d.capOf f 2 i e) e.buf = st → st ≠ 0 → Becomes (.rcxCompressSample i) s (d.failSample f 2 i eo st)) ∧
    (compressCheck c (d.capOf f 2 i e) e.buf = 0 →
      (e.buf = [] → Becomes (.rcxCompressSample i) s (((d.setEng 2 i { e with
          buf := []
          units := 0 }).putOut 2 i eo ([0x47, 0x52, 0x46, 0x31] ++ le 2 1 ++ le 2 0 ++ le 8 0)).finish f 2 i eo)) ∧
      (e.buf ≠ [] → fld c 0x1E 1 = 0 → ∀ (depth nc width br bps : Nat) (rows : List (List Nat)) (h blocks : Bytes) (last : List (Nat × Nat) × List Nat),
        depth = fld c 0x18 1 → nc = fld c 0x19 1 → width = fld c 0x1A 2 → br = fld c 0x1C 2 → bps = (if depth ≤ 8 then 1 else 2) →
        rows = chunks (width * nc) (valuesIn bps e.buf) →
        h = [0x46, 0x52] ++ le 1 depth ++ le 1 nc ++ le 2 width ++ le 2 br ++ le 4 rows.length ++ le 1 0 ++ [0, 0, 0] ++ le 4 (fld c 0x20 4) ++ le 4 0
          ++ List.replicate 8 0 →
        codeBlocks depth nc bps (chunks br rows) (List.replicate (width * nc) (2 ^ (depth - 1))) (freshCtx depth) [] = (blocks, last) →
        Becomes (.rcxCompressSample i) s (((d.setEng 2 i { e with
          buf := []
          units := cdiv e.buf.length 64 }).putOut 2 i eo ([0x47, 0x52, 0x46, 0x31] ++ le 2 1 ++ le 2 1 ++ le 8 e.buf.length ++ h ++ blocks
            ++ le 4 (crc32c e.buf))).finish f 2 i eo))))

/-- A video decoder takes its sample header (a bad one, or a CONT_IN whose context is not there, is 0x0703), decodes picture by picture (what leaves the bounds is
0x0703, what exceeds the output limit 0x0702, the work cap 0x0704), and a CONT_OUT sample decoded to its end saves its context and completes; what a bitstream
decodes to is free (log entry 15) (R226, R230 to R232, R236). A JPEG decoder decodes one scan at a time, checked in the order of R236: output limit, work cap, decode; after the last scan the picture record leaves and the
sample is finished (R235, R236). An image engine turns the picture record on input 0 into the tensors of its levels, for modes 0 and 1 the crop, flip and rotation that its draws choose; a record
that is none, or a rectangle outside the picture, is 0x0703, too long an output 0x0702, too many output pixels 0x0704. A region table that keeps to R246 becomes
the entry of its stream, and a bad or late one is counted (R236, R240, R241, R245, R246). -/
def Obligations.PicturesAreDecoded : Prop :=
  (∀ (s : State) (i f eo : Nat) (e : Eng) (d : Dev) (c h : Bytes), s.Works → s.dev.AtWork 3 i f eo e d → c = d.config f 3 i →
    (e.st = .none → 32 ≤ e.buf.length → h = e.buf.take 32 →
      (vdeHeaderOk (fld c 1 1) h = false → Becomes (.vdeSampleStart i) s (d.failSample f 3 i eo 0x0703)) ∧
      (vdeHeaderOk (fld c 1 1) h = true →
        ((fld h 5 1).testBit 0 = true → d.vdeRestore c h = none → Becomes (.vdeSampleStart i) s (d.failSample f 3 i eo 0x0703)) ∧
        ((fld h 5 1).testBit 0 = false → (fld h 5 1).testBit 1 = false ∨ fld c 6 2 ≠ 0 → Becomes (.vdeSampleStart i) s (d.setEng 3 i { e with
          buf := e.buf.drop 32
          st := .vde { hdr := h, saved := [], k := 0, shown := 0, selected := 0, written := 0 } })) ∧
        (∀ saved, (fld h 5 1).testBit 0 = true → d.vdeRestore c h = some saved → (fld h 5 1).testBit 1 = false →
          Becomes (.vdeSampleStart i) s ((d.inc (R.VDE_CTX_RESTORES i)).setEng 3 i { e with
            buf := e.buf.drop 32
            st := .vde { hdr := h, saved := saved, k := 0, shown := 0, selected := 0, written := 0 } })))) ∧
    (∀ v : VdeSt, e.st = .vde v → e.arrived = true → h = v.hdr →
      ((fld h 5 1).testBit 1 = true → v.k ≠ 0 →
        (∀ cw ch state sound outs recs sel, Config.vidStep (fld h 4 1) (fld c 2 1 = 1) v.saved e.buf v.k = .picture cw ch state sound outs →
          vdeSelect c h v.shown v.selected outs = (recs, sel) →
          ((1 ≤ cw && cw ≤ 8192 && 1 ≤ ch && ch ≤ 8192 && cw * ch ≤ 35651584) = false → Becomes (.vdePictureDecode i) s (d.failSample f 3 i eo 0x0703)) ∧
          ((1 ≤ cw && cw ≤ 8192 && 1 ≤ ch && ch ≤ 8192 && cw * ch ≤ 35651584) = true →
            (fld c 0x28 8 < v.written + recs.flatten.length ∨ fld c 0x10 8 < state → Becomes (.vdePictureDecode i) s (d.failSample f 3 i eo 0x0702)) ∧
            (v.written + recs.flatten.length ≤ fld c 0x28 8 → state ≤ fld c 0x10 8 →
              (withinCap (d.capOf f 3 i e) (e.units + cdiv cw 16 * cdiv ch 16) = false → Becomes (.vdePictureDecode i) s (d.failSample f 3 i eo 0x0704)) ∧
              (withinCap (d.capOf f 3 i e) (e.units + cdiv cw 16 * cdiv ch 16) = true → sound = true →
                Becomes (.vdePictureDecode i) s (((d.setEng 3 i { e with
                  units := e.units + cdiv cw 16 * cdiv ch 16
                  st := .vde { v with
                    k := v.k + 1
                    shown := v.shown + outs.length
                    selected := sel
                    written := v.written + recs.flatten.length } }).putOut 3 i eo recs.flatten).addWord (R.VDE_PICTURES i) recs.length))))) ∧
        (Config.vidStep (fld h 4 1) (fld c 2 1 = 1) v.saved e.buf v.k = .ended true → fld h 0x10 8 = e.buf.length → ∀ (priv : Bytes) (a : Nat),
          priv = Config.vidContext (fld h 4 1) (fld c 2 1 = 1) v.saved e.buf → a = vdeEntry c (fld h 8 4) (fld h 0xC 4) → 0x1000 + priv.length ≤ fld c 0x10 8 →
          Becomes (.vdeContextSave i) s ((((d.write (a + 0x1000) priv).write a (vdeMagic ++ le 1 (fld h 4 1) ++ [0, 0, 0] ++ le 4 (fld h 8 4) ++ le 4 (fld h 0xC 4)
            ++ le 8 (0x1000 + priv.length) ++ List.replicate (0x1000 - 0x1C) 0)).inc (R.VDE_CTX_SAVES i)).finish f 3 i eo))))) ∧
  (∀ (s : State) (i f eo n : Nat) (e : Eng) (d : Dev) (c p r : Bytes) (g : JpgImg) (sc : JpgScan), s.Works → s.dev.AtWork 4 i f eo e d → c = d.config f 4 i →
    e.arrived = true → e.st = .none ∧ n = 0 ∨ e.st = .jpg n →
    (jpgAfter (fld c 1 1) e.buf n = .bad → Becomes (.jpgScanDecode i) s (d.failSample f 4 i eo 0x0703)) ∧
    (jpgAfter (fld c 1 1) e.buf n = .scan g p r →
      (jpgScan g p = none → Becomes (.jpgScanDecode i) s (d.failSample f 4 i eo 0x0703)) ∧
      (jpgScan g p = some sc → g.prog = false →
        (fld c 8 8 < g.hdr.len → Becomes (.jpgScanDecode i) s (d.failSample f 4 i eo 0x0702)) ∧
        (g.hdr.len ≤ fld c 8 8 → withinCap (d.capOf f 4 i e) (e.units + jpgUnits g sc) = false →
          Becomes (.jpgScanDecode i) s (d.failSample f 4 i eo 0x0704)) ∧
        (g.hdr.len ≤ fld c 8 8 → withinCap (d.capOf f 4 i e) (e.units + jpgUnits g sc) = true → ∀ (x : Dev), x = d.setEng 4 i { e with
            units := e.units + jpgUnits g sc
            st := .jpg (n + 1) } →
          (jpgDecode g sc r = none → Becomes (.jpgScanDecode i) s (x.failSample f 4 i eo 0x0703)) ∧
          (∀ g1 r1 g2, jpgDecode g sc r = some (g1, r1) → jpgHead (fld c 1 1) (r1.length + 1) r1 g1 = .ended g2 →
            Becomes (.jpgScanDecode i) s (((x.putOut 4 i eo (g2.hdr.record (g2.comps.map jpgPlane))).addWord (R.JPG_PICTURES i) 1).finish f 4 i eo)))))) ∧
  (∀ (s : State) (i f : Nat) (ei : Endpoint) (e : Eng) (d : Dev) (c : Bytes) (v : ImgSt) (o : Nat), s.Works → s.dev.halted f = false →
    (s.dev.epOf 5 i false 0 = some (f, ei) → (s.dev.epOf 5 i true 0).map (fun x => x.2.ep) = some o → s.dev.epOf 5 i true 1 = none → s.dev.feed f 5 i ei.ep = d →
      d.eng 5 i = e → e.active = true → e.skip = false → e.mark = 0 → c = d.config f 5 i → fld c 1 1 < 2 → e.st = .none ∧ v = ImgSt.start ∨ e.st = .img v → e.buf ≠ [] →
      (picHdr e.buf = none → 64 ≤ e.buf.length → Becomes (.imgPicture i) s (d.imgFail f i [o] 0x0703)) ∧
      (∀ (h : PicHdr) rect flip rot, picHdr e.buf = some h → h.len ≤ e.buf.length → v.pic ≤ 65535 →
        d.imgChoice f c h (d.epochOf f e.pos) (d.sampleId f e.idx) v.pic = (rect, flip, rot) →
        (rect = none → Becomes (.imgPicture i) s (d.imgFail f i [o] 0x0703)) ∧
        (∀ q n l1, rect = some q → n = (imgLevels c).foldl (fun n l => n + l.2.1 * l.2.2) 0 → l1 = v.len1 →
          (fld c 0x48 8 < v.len0 + imgLen c 0 1 ∨ fld c 0x48 8 < l1 → Becomes (.imgPicture i) s (d.imgFail f i [o] 0x0702)) ∧
          (v.len0 + imgLen c 0 1 ≤ fld c 0x48 8 → l1 ≤ fld c 0x48 8 →
            (withinCap (d.capOf f 5 i e) (e.units + cdiv n 64) = false → Becomes (.imgPicture i) s (d.imgFail f i [o] 0x0704)) ∧
            (withinCap (d.capOf f 5 i e) (e.units + cdiv n 64) = true → h.len < e.buf.length → ∀ (x : Dev) (rest : Bytes),
              d.cutOut e (some o) e.out (imgOut c h 0 (4 * b2n flip + 8 * rot) 0xFFFFFFFF [q] [imgRegion c h (imgPlanes h e.buf) flip rot q]) = (x, rest) →
              Becomes (.imgPicture i) s ((x.addWord (R.IMG_PICTURES i) 1).setEng 5 i { e with
                units := e.units + cdiv n 64
                buf := e.buf.drop h.len
                out := rest
                st := .img { pic := v.pic + 1, len0 := v.len0 + imgLen c 0 1, len1 := l1, out1 := [] } })))))) ∧
    (∀ (p t x : Nat) (q mine : List Granule) (b : Bytes), s.dev.epOf 5 i false 1 = some (f, ei) → q = s.dev.inQ ei.ep → lowest q = some (p, t, x) →
      mine = q.filter (fun g => g.pos = p && g.tok = t) → mine.any (fun g => g.last) = true → mine.any (fun g => g.defect ≠ 0) = false →
      d = s.dev.setInQ ei.ep (q.filter (fun g => !(g.pos = p && g.tok = t))) → b = mine.flatMap (fun g => g.data) → c = d.config f 5 i → fld c 1 1 = 2 →
      (roiTableOk b = false ∨ (d.roiLast i (fld b 8 4)).any (fun x => fld b 0xC 4 ≤ x.1) = true → Becomes (.regionTableArrival i) s (d.inc ⟨R.IMG_ROI i, 31, 0⟩)) ∧
      (roiTableOk b = true → (d.roiLast i (fld b 8 4)).any (fun x => fld b 0xC 4 ≤ x.1) = false →
        Becomes (.regionTableArrival i) s (d.roiWrite c (fld b 8 4) (fld b 0xC 4) 1 0 (fld b 0xC 4 - 1)
          ((chunks 16 (b.drop 64)).map (fun r => (fld r 0 2, fld r 2 2, fld r 4 2, fld r 6 2)))))))

/-- A BPE lane writes its pieces' tokens, bounded by OUT_LIMIT and the work cap; merging takes the lowest rank first and, among equals, the first place (R257 to R259). A mask unit takes its chunk header and then token by token: a token inside the allowed set moves the automaton on, one outside is a violation that fails the sequence or,
where the record says so, the sample; a token or a record too many is 0x0703 or 0x0702; a capped item 0x0704 (R261 to R266). A detokenizer lane puts out a token's bytes, or its record, item by item: a token outside the vocabulary is 0x0703, too long an output 0x0702, a capped item 0x0704
(R252, R271). -/
def Obligations.TokensAreMade : Prop :=
  ((∀ (s : State) (i f eo : Nat) (e : Eng) (d : Dev) (c : Bytes) (b v : BpeSt) (buf out : Bytes) (units : Nat) (ends : LaneEnd), s.Works → s.dev.AtWork 6 i f eo e d →
    c = d.config f 6 i → b = e.bpe → b.begun = true → d.bpeLoop f c (d.capOf f 6 i e) e.arrived (e.buf.length + 1) e.buf b e.units false [] = (buf, v, units, out, ends) →
    ∀ x : Dev, x = (d.addWord (R.TOK_BPE_TOKENS i) (v.tokens - b.tokens)).setEng 6 i { e with
      buf := buf
      units := units
      st := .bpe v } →
    (ends = .more → Becomes (.bpeRun i) s (x.putOut 6 i eo out)) ∧ (ends = .ended → Becomes (.bpeRun i) s ((x.putOut 6 i eo out).finish f 6 i eo)) ∧
    (∀ st, ends = .bad st → Becomes (.bpeRun i) s (x.failSample f 6 i eo st))) ∧
  (∀ (d : Dev) (f : Nat) (c : Bytes) (cap : Option Nat) (fuel : Nat) (b : BpeSt) (units : Nat) (counted : Bool) (out : Bytes) (w : Bytes × BpeSt × Nat × Bytes × LaneEnd),
    d.bpeLoop f c cap true fuel [] b units counted out = w → fuel ≠ 0 →
    (∀ v o, bpeWrite (fld c 0x10 8) b out ((if b.piece.isEmpty then [] else d.pieceTokens f b.piece) ++
        (if (fld c 1 1).testBit 1 then [fld c 0xC 4] else [])) = (v, o, false) → w = ([], v, units, o, .ended)) ∧
    (∀ v o, bpeWrite (fld c 0x10 8) b out ((if b.piece.isEmpty then [] else d.pieceTokens f b.piece) ++
        (if (fld c 1 1).testBit 1 then [fld c 0xC 4] else [])) = (v, o, true) → w = ([], v, units, o, .bad 0x0702))) ∧
  (∀ (ms : List (Nat × Nat × Nat)) (i : Nat) (l : List Nat) (k x at_ : Nat), bestMerge ms i l = some (k, x, at_) →
    i ≤ at_ ∧ rankOf ms 0 (l.getD (at_ - i) 0) (l.getD (at_ - i + 1) 0) = some (k, x) ∧
    ∀ j k' x', j + 1 < l.length → rankOf ms 0 (l.getD j 0) (l.getD (j + 1) 0) = some (k', x') → k < k' ∨ k = k' ∧ at_ - i ≤ j)) ∧
  ((∀ (s : State) (i f eo : Nat) (e : Eng) (d : Dev) (c : Bytes) (m : MaskSt) (g t v : Nat), s.Works → s.dev.AtWork 7 i f eo e d → c = d.config f 7 i → g = fld c 4 4 →
    m = d.maskSt f g e → t = fld e.buf 0 4 → v = d.vocabCount f →
    (fld c 2 1 ≠ 0 → m.headed = false → 32 ≤ e.buf.length →
      (fld (e.buf.take 32) 4 2).testBit 0 = true →
      (chunkHeaderOk (e.buf.take 32) = false ∨ (fld (e.buf.take 32) 4 2).testBit 1 = false ∧ fld c 8 4 = 0 →
        Becomes (.maskChunkHeader i) s (d.failSample f 7 i eo 0x0703)) ∧
      (chunkHeaderOk (e.buf.take 32) = true → (fld (e.buf.take 32) 4 2).testBit 1 = true →
        Becomes (.maskChunkHeader i) s ((d.maskGo i e { MaskSt.start (d.gramFld f g 8 4) with
          headed := true
          fin := true
          key := fld (e.buf.take 32) 8 4
          seq := fld (e.buf.take 32) 0xC 4
          left := some (fld (e.buf.take 32) 0x10 4) } 32).maskEnd f i eo c))) ∧
    (m.headed = true → 4 ≤ e.buf.length →
      (withinCap (d.capOf f 7 i e) (e.units + 1) = false → Becomes (.maskToken i) s (d.failSample f 7 i eo 0x0704)) ∧
      (withinCap (d.capOf f 7 i e) (e.units + 1) = true →
        (v ≤ t ∨ m.left = some 0 → Becomes (.maskToken i) s (d.failSample f 7 i eo 0x0703)) ∧
        (t < v → m.left ≠ some 0 → ∀ (x : Dev) flags al m' (rec_ : Bytes), x = d.addWord (R.TOK_MASK_TOKENS i) 1 →
          maskStep (x.transOf f g m.state) (x.deadEnd f g m.state) (x.gramFld f g 2 2) (fld c 3 1 = 1) m t = (flags, al, m', false, false, false) →
          rec_ = maskRecord (fld c 1 1) v m t flags al →
          (fld c 0x18 8 < m.outLen + rec_.length → Becomes (.maskToken i) s (x.failSample f 7 i eo 0x0702)) ∧
          (m.outLen + rec_.length ≤ fld c 0x18 8 → Becomes (.maskToken i) s
            (((x.maskGo i { e with units := e.units + 1 } { m' with
              left := m.left.map (· - 1)
              pos := m.pos + 1
              outLen := m.outLen + rec_.length } 4).putOut 7 i eo rec_).maskEnd f i eo c)))))) ∧
  (∀ (ts : List Bytes) (dead max : Nat) (defect : Bool) (m : MaskSt) (t : Nat) (al : List (Nat × Nat)), m.failed = false → m.terminal = false →
    al = allowedRuns max ts m.stack → al ≠ [] →
    (∀ tr, inRuns al t = true → takes ts m.stack t = some tr → maskStep ts dead max defect m t = (0, al, { m with
      state := trNext tr
      stack := trStack m.stack tr }, false, false, false)) ∧
    (inRuns al t = false → maskStep ts dead max false m t = (12, al, { m with failed := true }, false, true, false) ∧
      (maskStep ts dead max true m t).2.2.2 = (false, true, true)))) ∧
  (∀ (s : State) (i f eo n t : Nat) (e : Eng) (d : Dev) (c : Bytes), s.Works → s.dev.AtWork 8 i f eo e d → c = d.config f 8 i → e.st = .none ∧ n = 0 ∨ e.st = .detok n →
    t = fld e.buf 0 4 →
    (e.buf = [] → e.arrived = true → Becomes (.detokToken i) s (d.finish f 8 i eo)) ∧
    (4 ≤ e.buf.length →
      (withinCap (d.capOf f 8 i e) (e.units + 1) = false → Becomes (.detokToken i) s (d.failSample f 8 i eo 0x0704)) ∧
      (withinCap (d.capOf f 8 i e) (e.units + 1) = true →
        (d.vocabCount f ≤ t → Becomes (.detokToken i) s (d.failSample f 8 i eo 0x0703)) ∧
        (t < d.vocabCount f → ∀ (x : Dev) (em : Bytes), x = d.addWord (R.TOK_DTK_TOKENS i) 1 → em = x.emission f c t →
          (fld c 8 8 < n + em.length → Becomes (.detokToken i) s (x.failSample f 8 i eo 0x0702)) ∧
          (n + em.length ≤ fld c 8 8 → 4 < e.buf.length → Becomes (.detokToken i) s ((x.setEng 8 i { e with
            units := e.units + 1
            buf := e.buf.drop 4
            st := .detok (n + em.length) }).putOut 8 i eo em))))))

/-! ## The thread array -/

/-- A whole sample at a queue's input enters the slot of the next item index, issued under the generation in force, and takes an item token; one longer than IN_SLOT is
accepted at once with 0x0702, and one whose slot is taken waits (R296, R302, R306, R468). A live core with a free thread group starts the lowest item issued to it, and outside DET mode takes over the lowest item that another live core has not begun, which
STEAL counts; a core without a free group does neither (R297, R301). An attempt starts with every register 0 but those of R297: the input slot and its length, the output slot and its length, position, sample identity, epoch, thread
number, draw pointer, scratch window and completion token; every thread stands at the queue's entry point, and the scratch window is zeroed (R297, R303). -/
def Obligations.ItemsAndAttempts : Prop :=
  (∀ (s : State) (q : Fin 256) (f i n p t idx : Nat) (ep : Endpoint) (inq mine : List Granule) (x : ThrQ) (b : Bytes) (d : Dev), s.Works →
    s.dev.epOf 9 q false 0 = some (f, ep) → s.dev.halted f = false → inq = s.dev.inQ ep.ep → lowest inq = some (p, t, idx) →
    mine = inq.filter (fun g => g.pos = p && g.tok = t) → mine.any (fun g => g.last) = true → s.dev.mayBegin f 9 q p = true →
    mine.foldl (fun m g => if g.defect = 0 then m else g.defect) 0 = 0 → x = s.dev.thrQ q → i = x.next → n = s.dev.slotCount f q → b = mine.flatMap (fun g => g.data) →
    (x.items.any (fun y => y.i.any (fun j => j % n = i % n)) = true → Becomes (.queueItemAdmit q) s s.dev) ∧
    (x.items.any (fun y => y.i.any (fun j => j % n = i % n)) = false → s.dev.thr.atts.any (fun y => y.2.q = q && y.2.i % n = i % n) = false →
      d = (s.dev.setInQ ep.ep (inq.filter (fun g => !(g.pos = p && g.tok = t)))).issue (poolNo 4 f) 1 → ∀ y : Dev,
      y = d.setThrQ q ⟨i + 1, x.items ++ [d.issueItem q ⟨some i, p, t, idx, b.length, 1024, [], false, false, none, 0⟩]⟩ →
      (d.inSlot f q < b.length → Becomes (.queueItemAdmit q) s (y.acceptItem f q i 0x0702 [])) ∧
      (b.length ≤ d.inSlot f q → Becomes (.queueItemAdmit q) s (y.write (y.slotAt f q i) b)))) ∧
  (∀ (s : State) (q : Fin 256) (core f : Nat) (x : ThrItem), s.Works → s.dev.owner 9 q = some f → s.dev.halted f = false →
    (s.dev.groupFree f q core = false → Becomes (.attemptStart q core) s s.dev ∧ Becomes (.itemSteal q core) s s.dev) ∧
    (s.dev.groupFree f q core = true →
      ((s.dev.unbegun q).find? (fun e => e.core = core) = some x → Becomes (.attemptStart q core) s (s.dev.beginItem f q core x)) ∧
      (s.dev.det = true → Becomes (.itemSteal q core) s s.dev) ∧
      (s.dev.det = false → (s.dev.unbegun q).find? (fun e => e.core ≠ core && (s.dev.liveCores q).contains e.core) = some x →
        Becomes (.itemSteal q core) s ((s.dev.beginItem f q core x).addWord (R.THR_Q_STEAL q) 1)))) ∧
  (∀ (d : Dev) (f q core n i g ti : Nat) (x : ThrItem), n = d.thrThreads f q → x.i = some i →
    findNat (fun g => !d.thr.atts.any (fun e => e.1 = 16 * core + n * g)) (16 / n) 0 = some g → ti < n → x.again = false →
    ∃ a th, Map.find (d.beginItem f q core x).thr.atts (16 * core + n * g) = some a ∧ a.q = q ∧ a.i = i ∧ a.core = core ∧ a.threads.length = n ∧ a.retired = 0 ∧
      a.threads[ti]? = some th ∧ th.pc = 4 * (d.kernelFld f q 0 4 + d.kernelFld f q 8 4) ∧ th.st = 0 ∧ th.p = 0 ∧
      th.sr 0 = BitVec.ofNat 64 (selfAddr (d.slotAt f q i)) ∧ th.sr 1 = BitVec.ofNat 64 x.len ∧
      th.sr 2 = BitVec.ofNat 64 (selfAddr (d.slotAt f q i + d.inSlot f q)) ∧ th.sr 3 = BitVec.ofNat 64 (d.outSlot f q) ∧ th.sr 4 = BitVec.ofNat 64 x.pos ∧
      th.sr 5 = BitVec.ofNat 64 (d.sampleId f x.idx) ∧ th.sr 6 = BitVec.ofNat 64 (d.epochOf f x.pos) ∧ th.sr 7 = BitVec.ofNat 64 ti ∧
      th.sr 8 = BitVec.ofNat 64 (fld (d.thrCfg f q) 0x30 8) ∧ th.sr 10 = BitVec.ofNat 64 (completionToken q f (x.gens.headD 0) i) ∧ th.sr 11 = 0)

/-- A withdrawal or restore waits for the device tick; at its tick a BOUND core of a queue with another live one leaves the live list, and a WITHDRAWN core without a
thread comes back, each raising the generation. A core failure stops its attempts, reports 0x0F03 and takes it off every live list at once (R302, R308, R318). -/
def Obligations.CoresLeaveAndReturn : Prop :=
  (∀ (s : State) (c : Nat), s.Works →
    (c < s.dev.get R.GLB_UNITS_THR_CORES →
      Becomes (.coreWithdraw c) s (s.dev.modThr (fun t => { t with reqs := t.reqs ++ [(c, true)] })) ∧
      Becomes (.coreRestore c) s (s.dev.modThr (fun t => { t with reqs := t.reqs ++ [(c, false)] })) ∧
      (s.dev.get (R.THR_CORE_STATE c) = 3 → ∀ u, Becomes (.coreFailure c u) s s.dev) ∧
      (∀ u d, s.dev.get (R.THR_CORE_STATE c) ≠ 3 → (∀ e ∈ s.dev.thr.atts, e.2.core ≠ c) →
        d = ((s.dev.set (R.THR_CORE_STATE c) 3).setSt (R.THR_CORE_ERR_STATUS c) 0x0F03).raise 448 c →
        (s.dev.get (R.THR_CORE_STATE c) = 0 → Becomes (.coreFailure c u) s d) ∧
        (s.dev.get (R.THR_CORE_STATE c) ≠ 0 → Becomes (.coreFailure c u) s (d.regenerate (d.get (R.THR_CORE_QUEUE c)))))) ∧
    (s.dev.get R.GLB_UNITS_THR_CORES ≤ c → Becomes (.coreWithdraw c) s s.dev ∧ Becomes (.coreRestore c) s s.dev)) ∧
  (∀ (d : Dev) (c q : Nat), q = d.get (R.THR_CORE_QUEUE c) →
    (d.get (R.THR_CORE_STATE c) = 1 → 1 < (d.liveCores q).length → d.withdraw c = (d.set (R.THR_CORE_STATE c) 2).regenerate q) ∧
    (d.get (R.THR_CORE_STATE c) = 1 → (d.liveCores q).length ≤ 1 → d.withdraw c = d) ∧
    (d.get (R.THR_CORE_STATE c) = 2 → d.coreBusy c = false → d.restore c = (d.set (R.THR_CORE_STATE c) 1).regenerate q) ∧
    (d.get (R.THR_CORE_STATE c) = 2 → d.coreBusy c = true → d.restore c = d))

/-- Decoding the encoding of a valid GTC instruction gives it back, with every operand at every value the encoding admits (R319 to R321). -/
def Obligations.GtcDecodeOfEncode : Prop :=
  ∀ (i : Instr) (w : Nat), gtcEncode i = some w → gtcOperandsOk i = true → guardOk (gtcGuard w) = true → ∃ t, gtcDecode t w = some i

/-- Words written out from the encodings of R319, R320 and R324 spell the instructions they stand for, and words that R319 and R321 do not allow spell
none: PRED 0 with NEG, an unassigned OP, a reserved FN, and a reserved operand bit. -/
def Obligations.GtcWordsSpellInstructions : Prop :=
  gtcDecode 5 0b0011_0_000001_000001_000010_000011_001 = some (.alu0 5 ⟨3, false⟩ ⟨1, 2, 3, 1⟩) ∧
  gtcDecode 5 0b0010_1_000100_111111_000000_111111111 = some (.addi 5 ⟨2, true⟩ ⟨63, 0, 0x1FF⟩) ∧
  gtcDecode 0 0b0000_0_001001_000111_100000000000000 = some (.movi 0 ⟨0, false⟩ ⟨7, 0x4000⟩) ∧
  gtcDecode 0 0b0000_0_100001_000100_000101_111_01_10_01 = some (.atom 0 ⟨0, false⟩ ⟨4, 5, 7, 1, 2, 1⟩) ∧
  gtcDecode 0 0b0000_0_100011_000100_000101_1110_00_00_0 = some (.xadd 0 ⟨0, false⟩ ⟨4, 5, 14, 0, 0⟩) ∧
  gtcDecode 0 0b0000_0_101000_00001_00010_00011_010_011 = some (.varith 0 ⟨0, false⟩ ⟨1, 2, 3, 2, 3⟩) ∧
  gtcDecode 0 0b0000_0_010011_000001_000010_0001_0100_1 = some (.fcvt 0 ⟨0, false⟩ ⟨1, 2, 1, 4, true⟩) ∧
  gtcDecode 0 0b0000_0_110001_011_000100_000000_000000 = some (.tload 0 ⟨0, false⟩ ⟨3, 4, 0, 0⟩) ∧
  gtcDecode 0 0b0000_0_111000_111111111111111111111 = some (.br 0 ⟨0, false⟩ ⟨0x1FFFFF⟩) ∧
  gtcDecode 0 0b0000_0_100100_0000000000000000_1_10_11 = some (.fence 0 ⟨0, false⟩ ⟨true, 2, 3⟩) ∧
  gtcDecode 0 0b0000_0_111111_000000000000000000000 = some (.nop 0 ⟨0, false⟩) ∧
  gtcDecode 0 0b0000_1_111111_000000000000000000000 = none ∧ gtcDecode 0 0b0000_0_100111_000000000000000000000 = none ∧
  gtcDecode 0 0b0000_0_000010_000001_000010_000011_111 = none ∧ gtcDecode 0 0b0000_0_111111_000000000000000000001 = none

/-- An instruction whose guard does not hold retires and counts, and has no other effect (R319). DONE by thread 0 with status 0 or 0x0703 completes the attempt with the length in sA, and raises 0x012E by another thread or with another status; HALT stops
its own thread, and raises 0x012E by thread 0; BAR stands until every thread that has not halted stands at one (R333, R336). -/
def Obligations.GtcRetiring : Prop :=
  (∀ (s : State) (t : Nat) (i : Instr) (w f k : Nat) (a : Attempt) (th : Thread),
    gtcDecode t w = some i → s.Stands t i f k a th → ¬th.Guarded (gtcGuard w) →
    s.dev.inCode f a.q (th.pc + 4) = true → Becomes i s (s.dev.retired t k a th (th.pc + 4))) ∧
  (∀ (s : State) (t : Nat) (g : Guard) (o : FmtR) (f k : Nat) (a : Attempt) (th : Thread) (st : Nat),
    st = (th.sr o.b.toNat).toNat % 2 ^ 16 →
    (s.Stands t (.done t g o) f k a th → th.Guarded g →
      (t = k → (st = 0 ∨ st = 0x0703) →
        Becomes (.done t g o) s (s.dev.thrComplete f k a.counted (th.sr o.a.toNat).toNat (BitVec.ofNat 16 st))) ∧
      (t ≠ k ∨ (st ≠ 0 ∧ st ≠ 0x0703) → k ≤ t →
        Becomes (.done t g o) s (s.dev.thrExc f k a (t - k) 0x012E 0 th.pc (s.dev.codeWord f th.pc)))) ∧
    (s.Stands t (.halt t g) f k a th → th.Guarded g →
      (k < t → Becomes (.halt t g) s ((s.dev.setAtt k (a.counted.setTh (t - k) { th with st := 1 })).barCheck f k)) ∧
      (t = k → Becomes (.halt t g) s (s.dev.thrExc f k a 0 0x012E 0 th.pc (s.dev.codeWord f th.pc)))) ∧
    (s.Stands t (.bar t g) f k a th → th.Guarded g →
      Becomes (.bar t g) s ((s.dev.setAtt k (a.counted.setTh (t - k) { th with st := 2 })).barCheck f k)))

/-- ALU0, ALU1 and ALU2 write the result that R324 and R325 give for their FN to sD and retire: arithmetic modulo 2^64, shift counts modulo 64, division
truncating towards zero, by zero giving all ones with remainder sA, and −2^63 by −1 giving −2^63 with remainder 0. ADDI, ANDI, ORI, XORI, SHIFTI, MOVI and LIT write sD: IMM9 and IMM15 are sign-extended, SHIFTI takes its kind from IMM9[8:7] and its amount from
IMM9[5:0], and LIT takes entry IMM15 of the kernel's constant slice (R324, R341, R342). -/
def Obligations.GtcIntegers : Prop :=
  (∀ (s : State) (t : Nat) (g : Guard) (o : FmtR) (f k : Nat) (a : Attempt) (th : Thread) (x y r : Word),
    x = th.sr o.a.toNat → y = th.sr o.b.toNat →
    (s.Ready t (.alu0 t g o) g f k a th →
      (o.fn = 0 ∧ r = x + y ∨ o.fn = 1 ∧ r = x - y ∨ o.fn = 2 ∧ r = x &&& y ∨ o.fn = 3 ∧ r = x ||| y ∨ o.fn = 4 ∧ r = x ^^^ y ∨
        o.fn = 5 ∧ r = x <<< (y.toNat % 64) ∨ o.fn = 6 ∧ r = x >>> (y.toNat % 64) ∨ o.fn = 7 ∧ r = x.sshiftRight (y.toNat % 64)) →
      Becomes (.alu0 t g o) s (s.dev.retired t k a (th.setSr o.d.toNat r) (th.pc + 4))) ∧
    (s.Ready t (.alu1 t g o) g f k a th →
      (o.fn = 0 ∧ r = x * y ∨ o.fn = 1 ∧ r = BitVec.ofInt 64 (x.toInt * y.toInt / 2 ^ 64) ∨ o.fn = 2 ∧ r = BitVec.ofNat 64 (x.toNat * y.toNat / 2 ^ 64) ∨
        o.fn = 3 ∧ y ≠ 0 ∧ r = BitVec.ofInt 64 (x.toInt.tdiv y.toInt) ∨ o.fn = 3 ∧ y = 0 ∧ r = BitVec.allOnes 64 ∨
        o.fn = 3 ∧ x = BitVec.ofInt 64 (-2 ^ 63) ∧ y = BitVec.ofInt 64 (-1) ∧ r = x ∨
        o.fn = 4 ∧ y ≠ 0 ∧ r.toNat = x.toNat / y.toNat ∨ o.fn = 4 ∧ y = 0 ∧ r = BitVec.allOnes 64 ∨
        o.fn = 5 ∧ y ≠ 0 ∧ r = BitVec.ofInt 64 (x.toInt.tmod y.toInt) ∨ o.fn = 5 ∧ y = 0 ∧ r = x ∨
        o.fn = 5 ∧ x = BitVec.ofInt 64 (-2 ^ 63) ∧ y = BitVec.ofInt 64 (-1) ∧ r = 0 ∨
        o.fn = 6 ∧ y ≠ 0 ∧ r.toNat = x.toNat % y.toNat ∨ o.fn = 6 ∧ y = 0 ∧ r = x) →
      Becomes (.alu1 t g o) s (s.dev.retired t k a (th.setSr o.d.toNat r) (th.pc + 4))) ∧
    (s.Ready t (.alu2 t g o) g f k a th →
      (o.fn = 0 ∧ (r = x ∨ r = y) ∧ r.toInt = min x.toInt y.toInt ∨ o.fn = 1 ∧ (r = x ∨ r = y) ∧ r.toInt = max x.toInt y.toInt ∨
        o.fn = 2 ∧ r.toNat = min x.toNat y.toNat ∨ o.fn = 3 ∧ r.toNat = max x.toNat y.toNat ∨
        o.fn = 4 ∧ x ≠ 0 ∧ 2 ^ (63 - r.toNat) ≤ x.toNat ∧ x.toNat < 2 ^ (64 - r.toNat) ∧ r.toNat < 64 ∨ o.fn = 4 ∧ x = 0 ∧ r = 64 ∨
        o.fn = 5 ∧ x.getLsbD r.toNat = true ∧ (∀ n, n < r.toNat → x.getLsbD n = false) ∨ o.fn = 5 ∧ x = 0 ∧ r = 64 ∨
        o.fn = 6 ∧ r.toNat = ((List.range 64).filter (fun n => x.getLsbD n)).length) →
      Becomes (.alu2 t g o) s (s.dev.retired t k a (th.setSr o.d.toNat r) (th.pc + 4)))) ∧
  (∀ (s : State) (t : Nat) (g : Guard) (o : FmtI) (u : FmtU) (f k : Nat) (a : Attempt) (th : Thread) (x m : Word),
    x = th.sr o.a.toNat → m = BitVec.signExtend 64 o.imm →
    (s.Ready t (.addi t g o) g f k a th → Becomes (.addi t g o) s (s.dev.retired t k a (th.setSr o.d.toNat (x + m)) (th.pc + 4))) ∧
    (s.Ready t (.andi t g o) g f k a th → Becomes (.andi t g o) s (s.dev.retired t k a (th.setSr o.d.toNat (x &&& m)) (th.pc + 4))) ∧
    (s.Ready t (.ori t g o) g f k a th → Becomes (.ori t g o) s (s.dev.retired t k a (th.setSr o.d.toNat (x ||| m)) (th.pc + 4))) ∧
    (s.Ready t (.xori t g o) g f k a th → Becomes (.xori t g o) s (s.dev.retired t k a (th.setSr o.d.toNat (x ^^^ m)) (th.pc + 4))) ∧
    (s.Ready t (.shifti t g o) g f k a th → ∀ r, (o.imm.toNat / 128 = 0 ∧ r = x <<< (o.imm.toNat % 64) ∨
        o.imm.toNat / 128 = 1 ∧ r = x >>> (o.imm.toNat % 64) ∨ o.imm.toNat / 128 = 2 ∧ r = x.sshiftRight (o.imm.toNat % 64)) →
      Becomes (.shifti t g o) s (s.dev.retired t k a (th.setSr o.d.toNat r) (th.pc + 4))) ∧
    (s.Ready t (.movi t g u) g f k a th →
      Becomes (.movi t g u) s (s.dev.retired t k a (th.setSr u.d.toNat (BitVec.signExtend 64 u.imm)) (th.pc + 4))) ∧
    (s.Ready t (.lit t g u) g f k a th →
      Becomes (.lit t g u) s (s.dev.retired t k a (th.setSr u.d.toNat (BitVec.ofNat 64
        (s.dev.readLe (s.dev.sectAt f 7 + s.dev.sfld f 7 0x20 8 + 8 * (s.dev.kernelFld f a.q 0xC 4 + u.imm.toNat)) 8))) (th.pc + 4))))

/-- CMP and PLOG write a predicate (a write to p0 is ignored), SRD reads the special registers of R323, SWR writes FLAGS[5:0] or DRAWPTR, and DRAW gives the
generator's draw sA, or raises 0x012D outside the queue's range (R323, R324, R326). FP32 and FP64 compute on the low 32 and on all 64 bits, zero-extend and raise their flags, FCMP writes its relation to pD, and FCVT converts, its integer
results sign-extended but for UINT8 (R281 to R283, R324, R325). -/
def Obligations.GtcPredicatesAndFloats : Prop :=
  (∀ (s : State) (t : Nat) (g : Guard) (o : FmtR) (i : FmtI) (f k : Nat) (a : Attempt) (th : Thread) (x y : Word) (c : Cx),
    x = th.sr o.a.toNat → y = th.sr o.b.toNat → c = ⟨s.dev, f, a, t - k, th⟩ →
    (s.Ready t (.cmp t g o) g f k a th → ∀ r : Bool, (o.fn = 0 ∧ (r = true ↔ x = y) ∨ o.fn = 1 ∧ (r = true ↔ x ≠ y) ∨
        o.fn = 2 ∧ (r = true ↔ x.toInt < y.toInt) ∨ o.fn = 3 ∧ (r = true ↔ y.toInt ≤ x.toInt) ∨
        o.fn = 4 ∧ (r = true ↔ x.toNat < y.toNat) ∨ o.fn = 5 ∧ (r = true ↔ y.toNat ≤ x.toNat)) →
      Becomes (.cmp t g o) s (s.dev.retired t k a (th.setPr o.d.toNat r) (th.pc + 4))) ∧
    (s.Ready t (.plog t g o) g f k a th → ∀ r p q : Bool, p = th.pr o.a.toNat → q = th.pr o.b.toNat →
        (o.fn = 0 ∧ r = (p && q) ∨ o.fn = 1 ∧ r = (p || q) ∨ o.fn = 2 ∧ r = (p ^^ q) ∨ o.fn = 3 ∧ r = (p && !q) ∨ o.fn = 4 ∧ r = !p ∨ o.fn = 5 ∧ r = p) →
      Becomes (.plog t g o) s (s.dev.retired t k a (th.setPr o.d.toNat r) (th.pc + 4))) ∧
    (th.setPr 0 true = th ∧ th.setPr 0 false = th ∧ th.pr 0 = true) ∧
    (s.Ready t (.srd t g i) g f k a th → ∀ v, (i.imm = 0 ∧ v = th.flags ∨ i.imm = 1 ∧ v = th.drawptr.toNat ∨ i.imm = 2 ∧ v = b2n s.dev.det ∨
        i.imm = 0x100 ∧ v = a.core ∨ i.imm = 0x101 ∧ v = s.dev.node ∨ i.imm = 0x102 ∧ v = s.dev.ftNs ∨
        i.imm = 0x103 ∧ v = (s.dev.clk - a.start) * 3 / 10 ∨ i.imm = 0x104 ∧ v = a.gen) →
      Becomes (.srd t g i) s (s.dev.retired t k a (th.setNat i.d.toNat v) (th.pc + 4))) ∧
    (s.Ready t (.swr t g i) g f k a th →
      (i.imm = 0 → Becomes (.swr t g i) s (s.dev.retired t k a { th with flags := (th.sr i.a.toNat).toNat % 64 } (th.pc + 4))) ∧
      (i.imm = 1 → Becomes (.swr t g i) s (s.dev.retired t k a { th with drawptr := th.sr i.a.toNat } (th.pc + 4)))) ∧
    (s.Ready t (.draw t g o) g f k a th →
      (fld (s.dev.thrCfg f a.q) 0x30 8 ≤ x.toNat ∧ x.toNat ≤ fld (s.dev.thrCfg f a.q) 0x30 8 + 0xFFFFFFFF →
        Becomes (.draw t g o) s (s.dev.retired t k a
          (th.setNat o.d.toNat (drawOf (s.dev.img f).seed a.epoch a.sid x.toNat)) (th.pc + 4))) ∧
      (x.toNat < fld (s.dev.thrCfg f a.q) 0x30 8 ∨ fld (s.dev.thrCfg f a.q) 0x30 8 + 0xFFFFFFFF < x.toNat →
        Becomes (.draw t g o) s (s.dev.thrExc f k a (t - k) 0x012D 0 th.pc (s.dev.codeWord f th.pc))))) ∧
  (∀ (s : State) (t : Nat) (g : Guard) (o : FmtR) (c : FmtC) (f k : Nat) (a : Attempt) (th : Thread),
    (s.Ready t (.fp32 t g o) g f k a th → ∀ x y z (r : Num Nat), x = (th.sr o.a.toNat).toNat % 2 ^ 32 → y = (th.sr o.b.toNat).toNat % 2 ^ 32 →
        z = (th.sr o.d.toNat).toNat % 2 ^ 32 →
        (o.fn = 0 ∧ r = addF fp32 x y ∨ o.fn = 1 ∧ r = subF fp32 x y ∨ o.fn = 2 ∧ r = mulF fp32 x y ∨ o.fn = 3 ∧ r = fmaF fp32 x y z ∨
          o.fn = 4 ∧ r = minMaxF fp32 false x y ∨ o.fn = 5 ∧ r = minMaxF fp32 true x y ∨ o.fn = 6 ∧ r = divF fp32 x y ∨ o.fn = 7 ∧ r = sqrtF fp32 x) →
      Becomes (.fp32 t g o) s (s.dev.retired t k a { th.setNat o.d.toNat r.val with flags := th.flags ||| (r.fl % 64) } (th.pc + 4))) ∧
    (s.Ready t (.fp64 t g o) g f k a th → ∀ x y z (r : Num Nat), x = (th.sr o.a.toNat).toNat → y = (th.sr o.b.toNat).toNat → z = (th.sr o.d.toNat).toNat →
        (o.fn = 0 ∧ r = addF fp64 x y ∨ o.fn = 1 ∧ r = subF fp64 x y ∨ o.fn = 2 ∧ r = mulF fp64 x y ∨ o.fn = 3 ∧ r = fmaF fp64 x y z ∨
          o.fn = 4 ∧ r = minMaxF fp64 false x y ∨ o.fn = 5 ∧ r = minMaxF fp64 true x y ∨ o.fn = 6 ∧ r = divF fp64 x y ∨ o.fn = 7 ∧ r = sqrtF fp64 x) →
      Becomes (.fp64 t g o) s (s.dev.retired t k a { th.setNat o.d.toNat r.val with flags := th.flags ||| (r.fl % 64) } (th.pc + 4))) ∧
    (s.Ready t (.fcmp t g o) g f k a th → ∀ (m : Fmt) x y (r : Num Bool), (o.fn.toNat < 4 ∧ m = fp32 ∨ 4 ≤ o.fn.toNat ∧ m = fp64) →
        x = (th.sr o.a.toNat).toNat % 2 ^ m.width → y = (th.sr o.b.toNat).toNat % 2 ^ m.width → r = floatRel m (o.fn.toNat % 4) x y →
      Becomes (.fcmp t g o) s (s.dev.retired t k a ((th.setPr o.d.toNat r.val).raiseFlags r.fl) (th.pc + 4))) ∧
    (s.Ready t (.fcvt t g c) g f k a th → ∀ (m n : Fmt) (r : Num Nat), fmtOf c.src.toNat = some m → fmtOf c.dst.toNat = some n → c.sr = false →
        r = convertBits n m ((th.sr c.a.toNat).toNat % 2 ^ m.width) →
      Becomes (.fcvt t g c) s (s.dev.retired t k a ((th.setSr c.d.toNat (scalarOf n r.val)).raiseFlags r.fl) (th.pc + 4))) ∧
    (∀ (m : Fmt) (x y : Nat), (decode m x).isNan = true ∨ (decode m y).isNan = true →
      (floatRel m 0 x y).val = false ∧ (floatRel m 1 x y) = ⟨false, flInvalid⟩ ∧ (floatRel m 2 x y) = ⟨false, flInvalid⟩ ∧ (floatRel m 3 x y).val = true))

/-- VARITH, VLOGIC, VCMP, VRED, VCVT and VMOVE act on every lane and write vD, or sD for VGET (R330, R331). TZERO clears tD with the type it names; TLOAD, TSTORE and TMMA retire with what R332 computes from their descriptors, and a TSTORE to local memory stores
the rows it computes there; an empty tensor makes them retire without effect (R316, R332). -/
def Obligations.GtcVectorsAndTiles : Prop :=
  (∀ (s : State) (t : Nat) (g : Guard) (o : FmtV) (c : FmtC) (m : FmtR) (f k : Nat) (a : Attempt) (th : Thread) (w : Nat),
    w = laneWidth o.ty.toNat →
    (s.Ready t (.varith t g o) g f k a th → ∀ r : Num (List Nat),
        r = joinNums ((((lanes w (th.vr o.va.toNat)).zip (lanes w (th.vr o.vb.toNat))).zip (lanes w (th.vr o.vd.toNat))).map (fun x =>
          match laneFmt o.ty.toNat with
          | some n => floatOp n o.fn.toNat x.1.1 x.1.2 x.2
          | none => ⟨intOp w o.fn.toNat x.1.1 x.1.2 x.2, 0⟩)) →
      Becomes (.varith t g o) s (s.dev.retired t k a ((th.setVr o.vd.toNat (unlanes w r.val)).raiseFlags r.fl) (th.pc + 4))) ∧
    (s.Ready t (.vlogic t g o) g f k a th →
      Becomes (.vlogic t g o) s (s.dev.retired t k a (th.setVr o.vd.toNat (unlanes w (((lanes w (th.vr o.va.toNat)).zip
        ((lanes w (th.vr o.vb.toNat)).zip (lanes w (th.vr o.vd.toNat)))).map (fun x => laneLogic w o.fn.toNat x.1 x.2.1 x.2.2)))) (th.pc + 4))) ∧
    (s.Ready t (.vcmp t g o) g f k a th → ∀ r : List (Num Bool),
        r = ((lanes w (th.vr o.va.toNat)).zip (lanes w (th.vr o.vb.toNat))).map (fun x => laneCmp o.ty.toNat o.fn.toNat x.1 x.2) →
      Becomes (.vcmp t g o) s (s.dev.retired t k a ((th.setVr o.vd.toNat (unlanes w (r.map (fun x => if x.val then 2 ^ w - 1 else 0)))).raiseFlags
        (r.foldl (fun n x => n ||| x.fl) 0)) (th.pc + 4))) ∧
    (s.Ready t (.vred t g o) g f k a th → ∀ r : Num Nat, r = vred o.ty.toNat o.fn.toNat (th.vr o.va.toNat) →
      Becomes (.vred t g o) s (s.dev.retired t k a ((th.setVr o.vd.toNat (r.val % 2 ^ w)).raiseFlags r.fl) (th.pc + 4))) ∧
    (s.Ready t (.vcvt t g c) g f k a th → ∀ (n p : Fmt) (r : Num (List Nat)), fmtOf c.src.toNat = some n → fmtOf c.dst.toNat = some p → c.sr = false →
        r = joinNums ((List.range (vcvtCount p n)).map (fun j => convertBits p n (elemAt n (vbytes (th.vr c.a.toNat)) j))) →
      Becomes (.vcvt t g c) s (s.dev.retired t k a ((th.setVr c.d.toNat (unle (packRow p r.val))).raiseFlags r.fl) (th.pc + 4))) ∧
    (s.Ready t (.vmove t g m) g f k a th → ∀ (x : Thread) (n : Nat), n = (th.sr m.b.toNat).toNat →
        (m.fn.toNat < 4 ∧ x = th.setVr m.d.toNat (unlanes (8 * 2 ^ m.fn.toNat) (List.replicate (128 / 2 ^ m.fn.toNat)
            ((th.sr m.a.toNat).toNat % 2 ^ (8 * 2 ^ m.fn.toNat)))) ∨
          m.fn = 4 ∧ x = th.setNat m.d.toNat ((lanes 64 (th.vr m.a.toNat)).getD (n % 16) 0) ∨
          m.fn = 5 ∧ x = th.setVr m.d.toNat (unlanes 64 (setNth (lanes 64 (th.vr m.d.toNat)) (n % 16) (th.sr m.a.toNat).toNat)) ∨
          m.fn = 6 ∧ x = th.setVr m.d.toNat (unle (((vbytes (th.vr m.a.toNat) ++ vbytes (th.vr m.d.toNat)).drop (n % 128)).take 128)) ∨
          m.fn = 7 ∧ x = th.setVr m.d.toNat (th.vr m.a.toNat)) →
      Becomes (.vmove t g m) s (s.dev.retired t k a x (th.pc + 4)))) ∧
  (∀ (s : State) (t : Nat) (g : Guard) (o : FmtT) (f k : Nat) (a : Attempt) (th x : Thread) (c : Cx), c = ⟨s.dev, f, a, t - k, th⟩ →
    (s.Ready t (.tzero t g o) g f k a th →
      Becomes (.tzero t g o) s (s.dev.retired t k a (th.setTr o.td.toNat ⟨o.fn.getLsbD 0, []⟩) (th.pc + 4))) ∧
    (s.Ready t (.tload t g o) g f k a th → c.tload o = .retire x → Becomes (.tload t g o) s (s.dev.retired t k a x (th.pc + 4))) ∧
    (s.Ready t (.tmma t g o) g f k a th → c.tmma o = .retire x → Becomes (.tmma t g o) s (s.dev.retired t k a x (th.pc + 4))) ∧
    (s.Ready t (.tstore t g o) g f k a th → ∀ ws, c.tstore o = .store x ws → (∀ p ∈ ws, s.dev.isLocal p.1 = true) →
      (s.dev.thrStores ws).inCode f a.q (th.pc + 4) = true →
      Becomes (.tstore t g o) s ((s.dev.thrStores ws).retired t k a x (th.pc + 4))) ∧
    (∀ b : Bytes, (th.sr o.a.toNat).toNat % 64 = 0 → s.dev.isLocal (th.sr o.a.toNat).toNat = true → (th.sr o.a.toNat).toNat % 2 ^ 52 < mediaBase →
      c.load (th.sr o.a.toNat).toNat 64 = .data b → c.tensorSt (tensorOf b) false = (0, 0) → (tensorOf b).dims.any (· == 0) = true →
      c.tload o = .retire th ∧ c.tmma o = .retire th))

/-- A load of memory that the thread may read writes sD with the bytes there, zero-extended or sign-extended, and VLD writes vD with 128 bytes; memory stays as
it was (R322, R324, R327). A store to memory that the thread may write stores the low bytes of sD, and VST the 128 bytes of vD, at sA + IMM9 × the size, and changes no register
and no other byte (R322, R324, R327). A misaligned load, store, VLD, VST, ATOM, FATOM or XADD raises 0x0106 and has no other effect (R327). -/
def Obligations.GtcMemory : Prop :=
  (∀ (s : State) (t : Nat) (g : Guard) (o : FmtI) (f k : Nat) (a : Attempt) (th : Thread) (n l : Nat),
    l = (th.sr o.a.toNat + BitVec.signExtend 64 o.imm * BitVec.ofNat 64 n).toNat → l % n = 0 → s.dev.isLocal l = true → l % 2 ^ 52 < mediaBase →
    (Cx.mk s.dev f a (t - k) th).access (l % 2 ^ 52) n 0 = St.ok →
    (∀ c, (c = .ldu8 t g o ∧ n = 1 ∨ c = .ldu16 t g o ∧ n = 2 ∨ c = .ldu32 t g o ∧ n = 4 ∨ c = .ld64 t g o ∧ n = 8) → s.Ready t c g f k a th →
      Becomes c s (s.dev.retired t k a (th.setNat o.d.toNat (s.dev.readLe (l % 2 ^ 52) n)) (th.pc + 4))) ∧
    (∀ c, (c = .lds8 t g o ∧ n = 1 ∨ c = .lds16 t g o ∧ n = 2 ∨ c = .lds32 t g o ∧ n = 4) → s.Ready t c g f k a th →
      Becomes c s (s.dev.retired t k a (th.setSr o.d.toNat (BitVec.ofInt 64 (sext (8 * n) (s.dev.readLe (l % 2 ^ 52) n)))) (th.pc + 4))) ∧
    (n = 128 → s.Ready t (.vld t g o) g f k a th →
      Becomes (.vld t g o) s (s.dev.retired t k a (th.setVr o.d.toNat (s.dev.readLe (l % 2 ^ 52) 128)) (th.pc + 4)))) ∧
  (∀ (s : State) (t : Nat) (g : Guard) (o : FmtI) (f k : Nat) (a : Attempt) (th : Thread) (n l : Nat) (b : Bytes) (c : Instr),
    l = (th.sr o.a.toNat + BitVec.signExtend 64 o.imm * BitVec.ofNat 64 n).toNat → l % n = 0 → s.dev.isLocal l = true →
    (Cx.mk s.dev f a (t - k) th).access (l % 2 ^ 52) n 1 = St.ok →
    (c = .st8 t g o ∧ n = 1 ∨ c = .st16 t g o ∧ n = 2 ∨ c = .st32 t g o ∧ n = 4 ∨ c = .st64 t g o ∧ n = 8 ∨ c = .vst t g o ∧ n = 128) →
    b = (if n = 128 then le 128 (th.vr o.d.toNat) else le n (th.sr o.d.toNat).toNat) →
    s.Ready t c g f k a th → (s.dev.write (l % 2 ^ 52) b).inCode f a.q (th.pc + 4) = true →
    Becomes c s ((s.dev.write (l % 2 ^ 52) b).retired t k a th (th.pc + 4)) ∧ b.length = n ∧
      (∀ y m, Mem.wf s.dev.mem = true → y + m ≤ l % 2 ^ 52 ∨ l % 2 ^ 52 + n ≤ y → (s.dev.write (l % 2 ^ 52) b).read y m = s.dev.read y m)) ∧
  (∀ (s : State) (t : Nat) (g : Guard) (o : FmtI) (x : FmtA) (z : FmtX) (f k : Nat) (a : Attempt) (th : Thread) (n l : Nat) (c : Instr),
    (l = (th.sr o.a.toNat + BitVec.signExtend 64 o.imm * BitVec.ofNat 64 n).toNat ∧ l % n ≠ 0 ∧
        (c = .ldu16 t g o ∧ n = 2 ∨ c = .lds16 t g o ∧ n = 2 ∨ c = .ldu32 t g o ∧ n = 4 ∨ c = .lds32 t g o ∧ n = 4 ∨ c = .ld64 t g o ∧ n = 8 ∨
          c = .st16 t g o ∧ n = 2 ∨ c = .st32 t g o ∧ n = 4 ∨ c = .st64 t g o ∧ n = 8 ∨ c = .vld t g o ∧ n = 128 ∨ c = .vst t g o ∧ n = 128) ∨
      c = .atom t g x ∧ l = (th.sr x.a.toNat).toNat ∧ (x.sz = 0 ∧ l % 4 ≠ 0 ∨ x.sz = 1 ∧ l % 8 ≠ 0) ∨
      c = .fatom t g x ∧ l = (th.sr x.a.toNat).toNat ∧ (x.sz = 0 ∧ l % 4 ≠ 0 ∨ x.sz ≠ 0 ∧ l % 2 ≠ 0) ∨
      c = .xadd t g z ∧ l = (th.sr z.a.toNat).toNat ∧ l % (if z.fmt = 0x0E then 512 else 64) ≠ 0) →
    s.Stands t c f k a th → th.Guarded g →
    Becomes c s (s.dev.thrExc f k a (t - k) 0x0106 l th.pc (s.dev.codeWord f th.pc)))

/-- ATOM, FATOM and XADD on memory of this device that the thread may write are performed there; ATOM and FATOM return the old value to sD, XADD leaves sD
(R312 to R314, R328, R329). What the integer atomics of R328 store and return: the old word always, the new word by AOP. -/
def Obligations.GtcAtomicOperations : Prop :=
  (∀ (s : State) (t : Nat) (g : Guard) (o : FmtA) (z : FmtX) (f k : Nat) (a : Attempt) (th : Thread) (l old : Nat) (d : Dev),
    s.dev.isLocal l = true → d.inCode f a.q (th.pc + 4) = true →
    (l = (th.sr o.a.toNat).toNat → (o.sz = 0 ∧ l % 4 = 0 ∨ o.sz = 1 ∧ l % 8 = 0) →
      (Cx.mk s.dev f a (t - k) th).access (l % 2 ^ 52) (4 * 2 ^ o.sz.toNat) 2 = St.ok →
      s.dev.atomicAt 0 o.aop.toNat o.sz.toNat 0 (th.sr o.d.toNat).toNat (if o.aop = 7 then (th.sr (o.d.toNat + 1)).toNat else 0) (l % 2 ^ 52) = (old, d) →
      s.Ready t (.atom t g o) g f k a th → Becomes (.atom t g o) s (d.retired t k a (th.setNat o.d.toNat old) (th.pc + 4))) ∧
    (l = (th.sr o.a.toNat).toNat → (o.sz = 0 ∧ l % 4 = 0 ∨ o.sz ≠ 0 ∧ l % 2 = 0) → s.dev.det = false →
      (Cx.mk s.dev f a (t - k) th).access (l % 2 ^ 52) (if o.sz = 0 then 4 else 2) 2 = St.ok →
      s.dev.atomicAt 1 o.aop.toNat o.sz.toNat 0 (th.sr o.d.toNat).toNat 0 (l % 2 ^ 52) = (old, d) →
      s.Ready t (.fatom t g o) g f k a th → Becomes (.fatom t g o) s (d.retired t k a (th.setNat o.d.toNat old) (th.pc + 4))) ∧
    (l = (th.sr z.a.toNat).toNat → l % (if z.fmt = 0x0E then 512 else 64) = 0 →
      (Cx.mk s.dev f a (t - k) th).access (l % 2 ^ 52) (atomSize 2 0 z.fmt.toNat) 2 = St.ok →
      s.dev.atomicAt 2 0 0 z.fmt.toNat (th.sr z.d.toNat).toNat 0 (l % 2 ^ 52) = (old, d) →
      s.Ready t (.xadd t g z) g f k a th → Becomes (.xadd t g z) s (d.retired t k a th (th.pc + 4)))) ∧
  (∀ (d : Dev) (sz l opd new n old x : Nat), (sz = 0 ∧ n = 4 ∨ sz = 1 ∧ n = 8) → old = d.readLe l n → x = opd % 2 ^ (8 * n) →
    d.atomicAt 0 0 sz 0 opd new l = (old, d.write l (le n ((old + x) % 2 ^ (8 * n)))) ∧
    d.atomicAt 0 1 sz 0 opd new l = (old, d.write l (le n (if sext (8 * n) x < sext (8 * n) old then x else old))) ∧
    d.atomicAt 0 2 sz 0 opd new l = (old, d.write l (le n (if sext (8 * n) old < sext (8 * n) x then x else old))) ∧
    d.atomicAt 0 3 sz 0 opd new l = (old, d.write l (le n (old &&& x))) ∧
    d.atomicAt 0 4 sz 0 opd new l = (old, d.write l (le n (old ||| x))) ∧
    d.atomicAt 0 5 sz 0 opd new l = (old, d.write l (le n (old ^^^ x))) ∧
    d.atomicAt 0 6 sz 0 opd new l = (old, d.write l (le n x)) ∧
    (old = x → d.atomicAt 0 7 sz 0 opd new l = (old, d.write l (le n (new % 2 ^ (8 * n))))) ∧
    (old ≠ x → d.atomicAt 0 7 sz 0 opd new l = (old, d.write l (le n old))))

/-- BR and CALL go to their own address plus 4 × IMM21, CALL after writing the next word's address to s63; JR goes to sA, or raises 0x012F outside the
kernel's code; NOP and FENCE only retire (R324, R333, R335; for FENCE log entry 17). WAIT on a local word retires at once where its relation holds, and otherwise leaves its thread waiting, for sD cycles where sD is not 0; a waiting thread
goes on once the relation holds, and raises 0x0801 where its timeout has come first (R19, R334). -/
def Obligations.GtcControl : Prop :=
  (∀ (s : State) (t : Nat) (g : Guard) (o : FmtB) (r : FmtR) (e : FmtS) (f k : Nat) (a : Attempt) (th : Thread) (x : Nat),
    ((x : Int) = th.pc + 4 * o.imm.toInt → s.dev.inCode f a.q x = true →
      (s.Stands t (.br t g o) f k a th → th.Guarded g → Becomes (.br t g o) s (s.dev.retired t k a th x)) ∧
      (s.Stands t (.call t g o) f k a th → th.Guarded g →
        Becomes (.call t g o) s (s.dev.retired t k a (th.setNat 63 (th.pc + 4)) x))) ∧
    (s.Stands t (.jr t g r) f k a th → th.Guarded g →
      (s.dev.inCode f a.q (th.sr r.a.toNat).toNat = true → Becomes (.jr t g r) s (s.dev.retired t k a th (th.sr r.a.toNat).toNat)) ∧
      (s.dev.inCode f a.q (th.sr r.a.toNat).toNat = false →
        Becomes (.jr t g r) s (s.dev.thrExc f k a (t - k) 0x012F 0 th.pc (s.dev.codeWord f th.pc)))) ∧
    (s.Ready t (.nop t g) g f k a th → Becomes (.nop t g) s (s.dev.retired t k a th (th.pc + 4))) ∧
    (s.Ready t (.fence t g e) g f k a th → Becomes (.fence t g e) s (s.dev.retired t k a th (th.pc + 4)))) ∧
  (∀ (s : State) (t : Nat) (g : Guard) (o : FmtR) (f k : Nat) (a : Attempt) (th : Thread) (l v y : Nat),
    l = (th.sr o.a.toNat).toNat → y = (th.sr o.b.toNat).toNat → l % 8 = 0 → s.dev.isLocal l = true → l % 2 ^ 52 < mediaBase →
    (Cx.mk s.dev f a (t - k) th).access (l % 2 ^ 52) 8 0 = St.ok → v = s.dev.readLe (l % 2 ^ 52) 8 →
    ((o.fn = 0 ∧ v = y ∨ o.fn = 1 ∧ v ≠ y ∨ o.fn = 2 ∧ y ≤ v ∨ o.fn = 3 ∧ v < y) →
      (s.Ready t (.wait t g o) g f k a th → Becomes (.wait t g o) s (s.dev.retired t k a th (th.pc + 4))) ∧
      (s.Works → s.dev.waiter t = some (f, k, a, th, o) → th.out = 0 → s.dev.inCode f a.q (th.pc + 4) = true →
        Becomes (.waitConditionMet t) s ((s.dev.disarm (.wait t)).retired t k a th (th.pc + 4)))) ∧
    ((o.fn = 0 ∧ v ≠ y ∨ o.fn = 1 ∧ v = y ∨ o.fn = 2 ∧ v < y ∨ o.fn = 3 ∧ y ≤ v) →
      (s.Stands t (.wait t g o) f k a th → th.Guarded g → k ≤ t → ∀ d : Dev, d = s.dev.setAtt k (a.setTh (t - k) { th with
          st := 3
          got := [] }) →
        Becomes (.wait t g o) s (if th.sr o.d.toNat = 0 then d else d.arm (.wait t) (cdiv (10 * (th.sr o.d.toNat).toNat) 3))) ∧
      (s.Works → s.dev.waiter t = some (f, k, a, th, o) → s.dev.expired (.wait t) = true →
        Becomes (.waitTimeout t) s (s.dev.thrExc f k a (t - k) 0x0801 l th.pc (s.dev.codeWord f th.pc)))))

/-! ## The fabric -/

/-- A DATA frame is accepted only with the expected SEQ, a good CRC and a well-formed header: the expected SEQ moves on, its units are issued, its ACK is taken, and its
packet is handled. A stomped frame is discarded in silence and any other is discarded with one NAK per failure (R351 to R353, R359, R361, R372). A packet is routed in the order of R361: a malformed one is counted in BAD_TYPE, one from a fenced epoch in FENCED, one for this node goes to its layer, one whose hops
are spent in HOPS, one without a live route in NO_ROUTE; every discard frees the units. -/
def Obligations.FramesAndPacketsAreTaken : Prop :=
  (∀ (s : State) (p : PortId) (fr : Bytes) (unc : Bool) (corr n good crc : Nat) (d e : Dev), s.Works → n = fr.length → good = crc32c (fr.take (n - 8)) → crc = fld fr (n - 8) 4 →
    (s.dev.gfUp p = false → Becomes (.dataFrame p fr unc corr) s s.dev) ∧
    (s.dev.gfUp p = true → d = s.dev.add (R.FAB_PORT_ERR_FEC_CORRECTED p) corr →
      (unc = false → dataWf fr = true → crc = good ^^^ 0xFFFFFFFF → Becomes (.dataFrame p fr unc corr) s d) ∧
      (unc = true → dataWf fr = false ∨ fld fr 4 4 ≠ (d.link p).rxSeq →
        Becomes (.dataFrame p fr unc corr) s ((d.inc (R.FAB_PORT_ERR_UNCORRECTABLE p)).discardNak p)) ∧
      (unc = false → crc ≠ good ^^^ 0xFFFFFFFF → dataWf fr = false ∨ fld fr 4 4 ≠ (d.link p).rxSeq → Becomes (.dataFrame p fr unc corr) s (d.discardNak p)) ∧
      (unc = false → crc ≠ good ^^^ 0xFFFFFFFF → crc = good → dataWf fr = true → fld fr 4 4 = (d.link p).rxSeq →
        e = (((d.setLink p { d.link p with
          rxSeq := ((d.link p).rxSeq + 1) % 2 ^ 32
          nakSent := none }).arm (.linkRx p) (us 10)).linkAck p (fld fr 8 4)).issueAt 0x12 p (n / 64) →
        (fld fr 1 1 = 7 → Becomes (.dataFrame p fr unc corr) s (e.relayHandle p (n / 64) ((fr.drop 16).take (n - 24)))) ∧
        (fld fr 1 1 ≠ 7 → Becomes (.dataFrame p fr unc corr) s (e.netHandle p (fld fr 1 1) (n / 64) ((fr.drop 16).take (n - 24))))))) ∧
  (∀ (d : Dev) (p v u : Nat) (b : Bytes) (dst src typ len : Nat) (ok : Bool), dst = fld b 0 2 → src = fld b 2 2 → typ = fld b 6 1 → len = fld b 8 2 →
    ok = (dst < 4096 && src < 4096 && fld b 7 1 == 0 && fld b 0xA 2 == 0 && allZero (slice b 0x14 12) && fld b 4 1 < 32 && 1 ≤ typ && typ ≤ 3 && len ≤ 4096 &&
      u == unitsOf (32 + len) && (if typ = 3 then v == 6 && fld b 4 1 == 0 else v == d.fab.vlOf (fld b 4 1))) →
    (ok = false → d.netHandle p v u b = (d.freeUnits p v u).inc (R.FAB_PORT_MISC_BAD_TYPE p)) ∧
    (ok = true → d.fenced src (fld b 0x10 4) = true → d.netHandle p v u b = (d.freeUnits p v u).inc (R.FAB_PORT_DISC_FENCED p)) ∧
    (ok = true → d.fenced src (fld b 0x10 4) = false →
      (dst = d.node → dst ≠ 0xFFF → typ = 1 → d.netHandle p v u b = { d.freeUnits p v u with fab := { (d.freeUnits p v u).fab with
        xptRx := (d.freeUnits p v u).fab.xptRx ++ [⟨p, d.tim.ft.toNat, src, fld b 4 1, fld b 0xC 4, fld b 0x10 4, slice b 32 len⟩] } }) ∧
      (dst = 0xFFF → typ ≠ 3 → d.netHandle p v u b = (d.freeUnits p v u).inc (R.FAB_PORT_DISC_NO_ROUTE p)) ∧
      (dst ≠ d.node → dst ≠ 0xFFF → fld b 5 1 = 0 → d.netHandle p v u b = (d.freeUnits p v u).inc (R.FAB_PORT_MISC_HOPS p)) ∧
      (dst ≠ d.node → dst ≠ 0xFFF → fld b 5 1 ≠ 0 → d.routePort dst src (fld b 0xC 4) v = none →
        d.netHandle p v u b = (d.freeUnits p v u).inc (R.FAB_PORT_DISC_NO_ROUTE p))))

/-- A CONTROL frame counts as CTRL_CRC where its CRC fails; in INIT the partner's INIT sets allotment and credit, and a frame without INIT that follows it takes the port
UP; while UP it returns credit, acknowledges, and a NAK sends everything unacknowledged again (R352, R353, R355, R358). The link's timers: 4 µs without ACK sends everything again, 10 µs without a valid frame retrains, 1 ms of retraining without a lock takes the port DOWN, and a DOWN port
trains again each 100 ms; before its time each does nothing. A lock takes a training port to INIT (UP on Ethernet) and a retraining one back to UP. CONTROL frames carry
RET and ACK while UP and INIT before (R353, R356, R358). A free port that is UP starts the frame that its scheduler picks: the frame leaves its queue, pays its shaper, takes the next SEQ and its credit, stands in the replay
buffer, and goes out; with nothing eligible it sends nothing (R353, R355, R405). -/
def Obligations.LinksKeepAndRecover : Prop :=
  (∀ (s : State) (p : PortId) (fr : Bytes) (corr : Nat) (d : Dev) (words : List Nat), s.Works → s.dev.isGf p = true → d = s.dev.add (R.FAB_PORT_ERR_FEC_CORRECTED p) corr →
    words = (List.range 8).map (fun v => fld fr (0x10 + 4 * v) 4) →
    (s.dev.pstate p ≠ 2 → s.dev.pstate p ≠ 3 → Becomes (.controlFrame p fr corr) s s.dev) ∧
    (s.dev.pstate p = 2 ∨ s.dev.pstate p = 3 → fr.length ≠ 64 ∨ fld fr 0x38 4 ≠ crc32c (fr.take 56) →
      Becomes (.controlFrame p fr corr) s (d.inc (R.FAB_PORT_MISC_CTRL_CRC p))) ∧
    (fr.length = 64 → fld fr 0x38 4 = crc32c (fr.take 56) → fld fr 0 1 = 2 → fld fr 1 1 = 0 → fld fr 2 2 = 1 →
      (s.dev.pstate p = 2 → (fld fr 0xC 1).testBit 1 = true → Becomes (.controlFrame p fr corr) s (((d.setLink p { d.link p with
        gotInit := true
        allot := words
        credit := words }).set (R.FAB_PORT_STATE_PEER_NODE p) (fld fr 0x30 2)).set (R.FAB_PORT_STATE_PEER_PORT p) (fld fr 0x32 1))) ∧
      (s.dev.pstate p = 3 → (fld fr 0xC 1).testBit 1 = true → Becomes (.controlFrame p fr corr) s (d.arm (.linkRx p) (us 10))) ∧
      (s.dev.pstate p = 3 → d.pstate p = 3 → (fld fr 0xC 1).testBit 1 = false → ∀ e : Dev, e = ((d.arm (.linkRx p) (us 10)).linkRet p words).linkAck p (fld fr 8 4) →
        Becomes (.controlFrame p fr corr) s (if (fld fr 0xC 1).testBit 0 then e.resend p else e)))) ∧
  (∀ (s : State) (p : PortId), s.Works →
    (s.dev.gfUp p = true →
      (s.dev.expired (.replay p) = true → Becomes (.replayTimeout p) s (s.dev.resend p)) ∧
      (s.dev.expired (.replay p) = false → Becomes (.replayTimeout p) s s.dev) ∧
      (s.dev.expired (.linkRx p) = true → Becomes (.linkRxTimeout p) s (s.dev.enterRetrain p)) ∧
      (s.dev.expired (.linkRx p) = false → Becomes (.linkRxTimeout p) s s.dev) ∧
      Becomes (.controlFrameSend p) s (s.dev.sendControl p false)) ∧
    (s.dev.pstate p = 4 →
      (s.dev.expired (.retrain p) = true → Becomes (.retrainTimeout p) s (s.dev.enterDown p)) ∧
      (s.dev.expired (.retrain p) = false → Becomes (.retrainTimeout p) s s.dev ∧
        (s.dev.isPort p = true → Becomes (.portLaneLock p) s (((s.dev.disarm (.retrain p)).enterUp p).resend p)))) ∧
    (s.dev.pstate p = 5 →
      (s.dev.expired (.down p) = true → Becomes (.downRetrain p) s ((s.dev.setLink p { s.dev.link p with attempt := true }).arm (.down p) (ms 100))) ∧
      (s.dev.expired (.down p) = false → Becomes (.downRetrain p) s s.dev)) ∧
    (s.dev.isPort p = true → s.dev.pstate p = 1 → Becomes (.portLaneLock p) s (if s.dev.isEth p then s.dev.enterUp p else s.dev.enterInit p)) ∧
    (s.dev.isGf p = true → s.dev.pstate p = 2 → Becomes (.controlFrameSend p) s
      (if ((s.dev.sendInit p).link p).gotInit then (s.dev.sendInit p).sendControl p false else s.dev.sendInit p))) ∧
  ((∀ (s : State) (p : PortId) (d : Dev), s.Works → s.dev.isPort p = true → s.dev.pstate p = 3 → (s.dev.link p).freeAt ≤ s.dev.clk → d = s.dev.countWaits p →
    (d.pickFrom p 8 0 = none → Becomes (.frameTransmitStart p) s d) ∧
    (∀ q l k r, d.pickFrom p 8 0 = some (q, l) → Map.get [] l.queues q = k :: r →
      Becomes (.frameTransmitStart p) s ((d.setLink p { l with
        queues := Map.put [] l.queues q r
        deficit := if r.isEmpty then Map.erase l.deficit q else l.deficit }).startFrame p k))) ∧
  (∀ (d : Dev) (p : Nat) (k : Pkt) (e : Dev), d.isEth p = false → e = d.pay p k → e.isEth p = false → (e.link p).replay ≠ [] →
    d.startFrame p k = (((((e.setLink p { e.link p with
      freeAt := e.clk + 8 * e.txNs p (e.wireLen p k)
      txSeq := ((e.link p).txSeq + 1) % 2 ^ 32
      credit := modNth (e.link p).credit k.vl (fun c => c - k.units)
      replay := (e.link p).replay ++ [((e.link p).txSeq, k.vl, k.bytes)] }).issueAt 0x13 p k.units).sendData p (e.link p).txSeq k.vl k.bytes)).freePkt k)))

/-- An Ethernet port that is UP checks a frame in the order of R373: a bad FCS, a PAUSE frame and a frame outside the subset are counted and discarded; PFC pauses and
resumes the priorities it names; a lossy priority without room drops the frame, and any other frame is held (R373, R374). A write to FAB_PORT_CFG_p: ENABLE 0 takes the port to DISABLED, ENABLE 1 on a disabled port configures and trains it or, where the width does not fit, is refused with
0x0107 and changes nothing else; on an enabled port the new fields wait (R375, R475). A route GO copies the shadow bank at once or at its tick, and is refused
with 0x0511 while one waits and with 0x0517 once its tick has passed (R365). A gate list is refused with 0x0511 while one waits and with 0x0134 where it is not valid; an accepted one waits for the time R413 gives and then is in force, and while a
list is in force the entry in force follows fabric time (R410 to R413). -/
def Obligations.EthernetPortsAndGates : Prop :=
  (∀ (s : State) (p : PortId) (fr : EthFrame) (pr u held : Nat) (l : Link), s.Works →
    (s.dev.isPort p = false ∨ s.dev.isEth p = false ∨ s.dev.pstate p ≠ 3 → Becomes (.ethFrame p fr) s s.dev) ∧
    (s.dev.isPort p = true → s.dev.isEth p = true → s.dev.pstate p = 3 → l = s.dev.link p →
      (fr.fcsOk = false → Becomes (.ethFrame p fr) s (s.dev.inc (R.FAB_PORT_ETH_FCS p))) ∧
      (fr.fcsOk = true → fr.pause = true → Becomes (.ethFrame p fr) s (s.dev.inc (R.FAB_PORT_ETH_PAUSE p))) ∧
      (fr.fcsOk = true → fr.pause = false →
        (∀ mask off, fr.pfc = some (mask, off) → ∃ x : List Nat, Becomes (.ethFrame p fr) s (s.dev.setLink p { l with paused := x }) ∧
          x = (List.range 8).foldl (fun x i => if !mask.toNat.testBit i then x else if off.toNat.testBit i then insNat i x else x.filter (· != i)) l.paused) ∧
        (fr.pfc = none →
          (fr.inSubset = false ∨ fr.bytes < 64 ∨ 9216 < fr.bytes → Becomes (.ethFrame p fr) s (s.dev.inc (R.FAB_PORT_ETH_UNSUPPORTED p))) ∧
          (fr.inSubset = true → 64 ≤ fr.bytes → fr.bytes ≤ 9216 → pr = (match fr.tagPcp with | some t => t.val | none => 0) → u = cdiv fr.bytes 64 →
            held = Map.get 0 l.ethHeld pr →
            ((s.dev.fab.vl pr).lossy = true → s.dev.ethBuf p pr < held + u → Becomes (.ethFrame p fr) s (s.dev.inc (R.FAB_PORT_DISC_LOSSY p))) ∧
            ((s.dev.fab.vl pr).lossy = true → held + u ≤ s.dev.ethBuf p pr → ∀ d : Dev, d = s.dev.setLink p { l with ethHeld := Map.put 0 l.ethHeld pr (held + u) } →
              Becomes (.ethFrame p fr) s { d with fab := { d.fab with ethRx := d.fab.ethRx ++ [(p.val, fr)] } })))))) ∧
  (∀ (s : State) (p : PortId) (v : Word) (cfg : Nat → Dev) (t : Nat), s.Live →
    (∀ e, cfg e = ((((s.dev.set (R.FAB_PORT_CFG_WIDTH p) (getBits v 3 0)).set (R.FAB_PORT_CFG_RELAY p) (getBits v 5 5)).set (R.FAB_PORT_CFG_PRECODE p) (getBits v 6 6)).set
      (R.FAB_PORT_CFG_CR p) (getBits v 7 7)).set (R.FAB_PORT_CFG_ENABLE p) e) →
    (s.dev.fatal = true → Becomes (.portEnable p v) s (s.dev.reply 0)) ∧
    (s.dev.fatal = false →
      (v.getLsbD 8 = false → (cfg 0).pstate p ≠ 0 → Becomes (.portEnable p v) s (((cfg 0).enterDisabled p).reply 0)) ∧
      (v.getLsbD 8 = true → s.dev.has (R.FAB_PORT_CFG_ENABLE p) = true → s.dev.pstate p ≠ 0 → Becomes (.portEnable p v) s ((cfg 1).reply 0)) ∧
      (v.getLsbD 8 = true → s.dev.has (R.FAB_PORT_CFG_ENABLE p) = false →
        (s.dev.portFits p (getBits v 3 0) = true → Becomes (.portEnable p v) s ((((cfg 1).startPort p (getBits v 3 0) (v.getLsbD 5) (v.getLsbD 6) (v.getLsbD 7)).setSt
          (R.FAB_PORT_STATE_STATUS p) 0).reply 0)) ∧
        (s.dev.portFits p (getBits v 3 0) = false → Becomes (.portEnable p v) s ((s.dev.setSt (R.FAB_PORT_STATE_STATUS p) 0x0107).reply 0)))) ∧
    (t = (s.dev.word R.FAB_ROUTE_TICK).toNat →
      (s.dev.has R.FAB_ROUTE_CTRL_PENDING = true → Becomes .routeCommitGo s ((s.dev.setSt R.FAB_ROUTE_CTRL_STATUS 0x0511).reply 0)) ∧
      (s.dev.has R.FAB_ROUTE_CTRL_PENDING = false →
        (t ≠ 0 → t ≤ (s.dev.word R.SEQ_TICK).toNat → Becomes .routeCommitGo s ((s.dev.setSt R.FAB_ROUTE_CTRL_STATUS 0x0517).reply 0)) ∧
        ((s.dev.word R.SEQ_TICK).toNat < t → Becomes .routeCommitGo s (((s.dev.setSt R.FAB_ROUTE_CTRL_STATUS 0).set R.FAB_ROUTE_CTRL_PENDING 1).reply 0)) ∧
        (t = 0 → Becomes .routeCommitGo s ((((s.dev.setSt R.FAB_ROUTE_CTRL_STATUS 0).set R.FAB_ROUTE_CTRL_PENDING 1).routeCopy).reply 0))))) ∧
  (∀ (s : State) (p : PortId) (n : BitVec 9) (d e : Dev) (force : Nat), s.Live → s.dev.isPort p = true → d = s.dev.set (R.TSH_GATE_CTRL_ENTRIES p) n.toNat →
    (d.has (R.TSH_GATE_CTRL_PENDING p) = true → Becomes (.gateListGo p n) s ((d.setSt (R.TSH_GATE_CTRL_STATUS p) 0x0511).reply 0)) ∧
    (d.has (R.TSH_GATE_CTRL_PENDING p) = false →
      (n ≠ 0 → d.gateValid p (d.shadowList p n.toNat) = false → Becomes (.gateListGo p n) s ((d.setSt (R.TSH_GATE_CTRL_STATUS p) 0x0134).reply 0)) ∧
      (n = 0 ∨ d.gateValid p (d.shadowList p n.toNat) = true → force = d.gateForce p → e = (d.setSt (R.TSH_GATE_CTRL_STATUS p) 0).set (R.TSH_GATE_CTRL_PENDING p) 1 →
        d.ftNs < force → Becomes (.gateListGo p n) s ((e.setLink p { e.link p with gatePend := some (n.toNat, force) }).reply 0))) ∧
    (∀ k, (s.dev.link p).gatePend = some (k, force) →
      (force ≤ s.dev.ftNs → Becomes (.gateListCommit p) s (s.dev.gateCommit p k force)) ∧ (s.dev.ftNs < force → Becomes (.gateListCommit p) s s.dev)) ∧
    (s.dev.has (R.TSH_GATE_CTRL_ACTIVE p) = false → Becomes (.gateEntryChange p) s s.dev) ∧
    (∀ l cyc, s.dev.has (R.TSH_GATE_CTRL_ACTIVE p) = true → l = s.dev.gateList p → cyc = l.foldl (fun n e => n + e.2) 0 → cyc ≠ 0 →
      Becomes (.gateEntryChange p) s (s.dev.setLink p { s.dev.link p with
        gateEntry := (gateAt l ((s.dev.ftNs - (s.dev.word (R.TSH_GATE_BASE p)).toNat) % cyc) 0 0).1 })))

/-! ## Remote memory access -/

/-- CREATE refuses for the first of R377's reasons that holds, after a fatal cause with 0x0F04, and in a self-fenced node with 0x0502 (R377, R475, R481). The queue-pair commands: an accepted CREATE makes the queue pair READY on die, a refused one reports its status; DESTROY of an idle queue pair ends at once and of a busy one
once its requests have ended; QUERY shows the state; an invalid OP is 0x0116, and a GO while one is in progress sets GO_REJECTED (R377, R378). -/
def Obligations.QueuePairsAreCommanded : Prop :=
  (∀ (d : Dev) (q owner : Nat) (u : QpSetup), u = qpSetupOf d.qpRecord → owner = d.qpOwner q →
    (d.fatal = true → d.createCheck q = 0x0F04) ∧
    (d.fatal = false → d.has R.LGR_STATUS_SELF_FENCED = true → d.createCheck q = 0x0502) ∧
    (d.fatal = false → d.has R.LGR_STATUS_SELF_FENCED = false →
      (∀ x, d.qp q = some x → d.createCheck q = 0x0532) ∧
      (d.qp q = none →
        (d.qpRecordOk d.qpRecord = false → d.createCheck q = 0x0133) ∧
        (d.tcOk owner u.tc = false → d.createCheck q = 0x0133) ∧
        (d.has (R.XPT_PD_VALID u.pd) = false ∨ d.get (R.XPT_PD_OWNER u.pd) ≠ owner → d.createCheck q = 0x0133) ∧
        (u.mode = 1 → d.isPort u.port = false ∨ d.isEth u.port = false ∨ d.creditClass u.tc = true → d.createCheck q = 0x0133) ∧
        (d.qpRecordOk d.qpRecord = true → d.tcOk owner u.tc = true → d.has (R.XPT_PD_VALID u.pd) = true → d.get (R.XPT_PD_OWNER u.pd) = owner →
          (u.mode = 1 → d.isPort u.port = true ∧ d.isEth u.port = true ∧ d.creditClass u.tc = false) → d.createCheck q = 0)))) ∧
  (∀ (s : State) (q : BitVec 20) (op : Nat) (c : Instr) (d e : Dev), s.Live →
    (c, op) ∈ [(Instr.create q, 1), (.destroy q, 2), (.query q, 3), (.qpCmdInvalid q, 0)] → d = (s.dev.set R.XPT_QP_CMD_OP op).set R.XPT_QP_CMD_QP q.toNat →
    (d.has R.XPT_QP_CMD_BUSY = true → Becomes c s ((d.set R.XPT_QP_CMD_GO_REJECTED 1).reply 0)) ∧
    (d.has R.XPT_QP_CMD_BUSY = false →
      (op = 0 → d.fatal = false → Becomes c s ((d.qpDone 0x0116).reply 0)) ∧
      (d.fatal = true → Becomes c s ((d.qpDone 0x0F04).reply 0)) ∧
      (∀ st, op = 1 → d.createCheck q.toNat = st → st ≠ 0 → Becomes c s ((d.qpDone st).reply 0)) ∧
      (op = 1 → d.createCheck q.toNat = 0 → (d.setQp q.toNat (d.qpFresh (qpSetupOf d.qpRecord))).bringIn q.toNat = some e →
        Becomes c s (((e.topUp q.toNat).qpDone 0).reply 0)) ∧
      (op = 2 → d.fatal = false → d.qp q.toNat = none → Becomes c s ((d.qpDone 0).reply 0)) ∧
      (∀ x, op = 2 → d.fatal = false → d.qp q.toNat = some x → x.reqs = [] → Becomes c s ((d.destroyEnd q.toNat).reply 0)) ∧
      (∀ x, op = 2 → d.fatal = false → d.qp q.toNat = some x → x.reqs ≠ [] →
        Becomes c s (((d.modXpt (fun t => { t with destroying := some q.toNat })).set R.XPT_QP_CMD_BUSY 1).reply 0)) ∧
      (op = 3 → d.fatal = false → d.qp q.toNat = none →
        Becomes c s ((((d.setW R.XPT_QP_STATUS 0).set R.XPT_QP_STATUS_CACHED (b2n ((d.setW R.XPT_QP_STATUS 0).onDie q.toNat))).qpDone 0).reply 0))) ∧
    (s.Works → s.dev.xpt.destroying = some q.toNat → ∀ x, s.dev.qp q.toNat = some x →
      (x.reqs = [] → Becomes .destroyComplete s (s.dev.destroyEnd q.toNat)) ∧ (x.reqs ≠ [] → Becomes .destroyComplete s s.dev)))

/-- OPEN gives a CLOSED window its next generation and makes it ACTIVE, or is refused: 0x0533 where it is not CLOSED, 0x0202 for an all-ones size, 0x0132 where its domain or range does not
suit. REVOKE fences an ACTIVE window at once and is in progress until every admitted packet has ended, which closes it (R388 to R390). A protection domain, a peer entry and a traffic class take what is written, but for a domain that is in use, a valid peer entry that names another owner's queue pair, and a change of
MODE under a READY queue pair, which keep what they hold (R379, R387, R401). -/
def Obligations.WindowsAndDomainsAreSet : Prop :=
  (∀ (s : State) (w : BitVec 16) (pd : BitVec 12) (acc : BitVec 3) (d v : Dev) (a n gen : Nat), s.Live →
    d = (((s.dev.set R.XPT_WIN_CTRL_OP 1).set R.XPT_WIN_CTRL_INDEX w.toNat).set R.XPT_WIN_CTRL_PD pd.toNat).set R.XPT_WIN_CTRL_ACCESS acc.toNat →
    v = (((s.dev.set R.XPT_WIN_CTRL_OP 2).set R.XPT_WIN_CTRL_INDEX w.toNat).set R.XPT_WIN_CTRL_PD (s.dev.get R.XPT_WIN_CTRL_PD)).set R.XPT_WIN_CTRL_ACCESS
      (s.dev.get R.XPT_WIN_CTRL_ACCESS) →
    a = 4096 * d.get R.XPT_WIN_BASE_BASE → n = (d.word R.XPT_WIN_SIZE).toNat → gen = d.get (R.XPT_WIN_STATE_GEN w.toNat) →
    (d.has R.XPT_WIN_STATUS_BUSY = true → Becomes (.open w pd acc) s ((d.set R.XPT_WIN_STATUS_GO_REJECTED 1).reply 0)) ∧
    (d.has R.XPT_WIN_STATUS_BUSY = false → d.fatal = false →
      (d.winSt w.toNat ≠ 0 → Becomes (.open w pd acc) s ((d.winDoneWith 0x0533).reply 0)) ∧
      (d.winSt w.toNat = 0 →
        (n = 2 ^ 64 - 1 → Becomes (.open w pd acc) s ((d.winDoneWith 0x0202).reply 0)) ∧
        (n ≠ 2 ^ 64 - 1 → d.has (R.XPT_PD_VALID pd.toNat) = false ∨ d.windowRangeOk w.toNat pd.toNat a n = false →
          Becomes (.open w pd acc) s ((d.winDoneWith 0x0132).reply 0)) ∧
        (n ≠ 2 ^ 64 - 1 → d.has (R.XPT_PD_VALID pd.toNat) = true → d.windowRangeOk w.toNat pd.toNat a n = true →
          Becomes (.open w pd acc) s (((((d.modXpt (fun t => { t with
            windows := Map.insert t.windows w.toNat ⟨a, n, pd.toNat, if mediaBase ≤ a then acc.toNat % 2 else acc.toNat⟩ })).set
              (R.XPT_WIN_STATE_GEN w.toNat) (if gen = 0xFFFF then 1 else gen + 1)).set (R.XPT_WIN_STATE_STATE w.toNat) 1).winDoneWith 0).reply 0)))) ∧
    (v.has R.XPT_WIN_STATUS_BUSY = false → v.fatal = false →
      (v.winSt w.toNat = 1 → Becomes (.revoke w) s ((((v.set (R.XPT_WIN_STATE_STATE w.toNat) 2).modXpt (fun t => { t with
        revoking := some w.toNat })).set R.XPT_WIN_STATUS_BUSY 1).reply 0)) ∧
      (v.winSt w.toNat ≠ 1 → Becomes (.revoke w) s ((v.winDoneWith 0).reply 0))) ∧
    (s.Works →
      (s.dev.winSt w.toNat ≠ 2 ∨ s.dev.get (R.XPT_WIN_STATE_ADMITTED w.toNat) ≠ 0 → Becomes (.windowClosed w) s s.dev) ∧
      (s.dev.winSt w.toNat = 2 → s.dev.get (R.XPT_WIN_STATE_ADMITTED w.toNat) = 0 → ∀ x : Dev,
        x = (s.dev.set (R.XPT_WIN_STATE_STATE w.toNat) 0).modXpt (fun t => { t with windows := Map.erase t.windows w.toNat }) →
        (x.xpt.revoking = some w.toNat → Becomes (.windowClosed w) s ((x.modXpt (fun t => { t with revoking := none })).winDoneWith 0)) ∧
        (x.xpt.revoking ≠ some w.toNat → Becomes (.windowClosed w) s x)))) ∧
  (∀ (s : State) (pd n : BitVec 12) (f : Fin 17) (t : Fin 32) (v : Word), s.Live →
    ((∃ e ∈ s.dev.xpt.qps, e.2.setup.pd = pd.toNat) ∨ (∃ e ∈ s.dev.xpt.windows, s.dev.winSt e.1 ≠ 0 ∧ e.2.pd = pd.toNat) → Becomes (.pdWrite pd v) s (s.dev.reply 0)) ∧
    ((∀ e ∈ s.dev.xpt.qps, e.2.setup.pd ≠ pd.toNat) → (∀ e ∈ s.dev.xpt.windows, s.dev.winSt e.1 = 0 ∨ e.2.pd ≠ pd.toNat) →
      Becomes (.pdWrite pd v) s (((s.dev.set (R.XPT_PD_VALID pd.toNat) (getBits v 63 63)).set (R.XPT_PD_OWNER pd.toNat) (getBits v 4 0)).reply 0)) ∧
    (v.getLsbD 63 = true → s.dev.qpOwner (getBits v 19 0) ≠ f.val → Becomes (.peerEntryWrite f n v) s (s.dev.reply 0)) ∧
    (v.getLsbD 63 = false ∨ s.dev.qpOwner (getBits v 19 0) = f.val →
      Becomes (.peerEntryWrite f n v) s ((s.dev.setW (R.XPT_PEER f.val n.toNat) (getBits v 63 63 * 2 ^ 63 + getBits v 19 0)).reply 0)) ∧
    (v.getLsbD 0 ≠ s.dev.creditClass t.val → (∃ e ∈ s.dev.xpt.qps, e.2.st = 1 ∧ e.2.setup.tc = t.val) → Becomes (.tcConfigWrite t v) s (s.dev.reply 0)) ∧
    (v.getLsbD 0 = s.dev.creditClass t.val ∨ (∀ e ∈ s.dev.xpt.qps, e.2.st ≠ 1 ∨ e.2.setup.tc ≠ t.val) →
      Becomes (.tcConfigWrite t v) s (((((s.dev.set (R.XPT_TC_CWND_MAX t.val) (getBits v 63 48)).set (R.XPT_TC_TARGET t.val) (getBits v 47 32)).set (R.XPT_TC_RNR_WAIT t.val)
        (getBits v 31 24)).set (R.XPT_TC_MODE t.val) (getBits v 0 0)).reply 0)))

/-- A request of 1 to 16 parts becomes a transport request: one that cannot be sent ends at once with the status of its reason, and any other joins its queue pair, whose state is
wanted on die, and is sent as far as the window lets it (R379, R396, R397, R481). A request packet is taken in PSN order: the expected one is served once, a later one is answered with one SEQUENCE NAK, an earlier one is a duplicate whose write is only acknowledged;
one for a queue pair that is not READY, not GF or not its sender's is discarded. A WRITE that a window admits stores its bytes there and nowhere else, a READ answers the bytes, an ATOMIC
the old word, and a refusal stores nothing (R381 to R383). -/
def Obligations.RequestsAreIssuedAndServed : Prop :=
  (∀ (s : State) (o : Fin 17) (node : BitVec 12) (tok : Word) (ps : List Part) (pst : List PartSt) (rd : Bool) (k : ReqKind) (kind total : Nat) (chk : List Status) (w q : Nat), s.Works →
    pst = ps.map partState → ps ≠ [] → ps.length ≤ 16 → k = (if rd then .read else .write) → kind = (if rd then 1 else 0) →
    chk = pst.map (fun p => if p.len = 2 ^ 64 - 1 then 0x0202 else if p.len = 0 then 0 else s.dev.bufCheck o p.buf p.len rd) → total = pst.foldl (fun n p => n + p.len) 0 →
    w = s.dev.get ⟨R.XPT_PEER o node.toNat, 63, 0⟩ → q = w % 2 ^ 20 →
    (firstBad chk ≠ 0 → Becomes (.transportRequestIssue o node tok k ps) s (s.dev.endNow .command tok.toNat (firstBad chk) chk)) ∧
    (firstBad chk = 0 → rd = true → 16777216 < total →
      Becomes (.transportRequestIssue o node tok k ps) s (s.dev.endNow .command tok.toNat 0x0201 (pst.map (fun _ => 0x0201)))) ∧
    (firstBad chk = 0 → rd = false ∨ total ≤ 16777216 →
      (total = 0 → Becomes (.transportRequestIssue o node tok k ps) s (s.dev.endNow .command tok.toNat 0 (pst.map (fun _ => 0)))) ∧
      (total ≠ 0 → s.dev.node = 0xFFF → Becomes (.transportRequestIssue o node tok k ps) s (s.dev.endNow .command tok.toNat 0x0503 (pst.map (fun _ => 0x0503)))) ∧
      (total ≠ 0 → s.dev.node ≠ 0xFFF →
        (s.dev.has R.LGR_STATUS_SELF_FENCED = true →
          Becomes (.transportRequestIssue o node tok k ps) s (s.dev.endNow .command tok.toNat 0x0502 (pst.map (fun _ => 0x0502)))) ∧
        (s.dev.has R.LGR_STATUS_SELF_FENCED = false →
          (w < 2 ^ 63 → Becomes (.transportRequestIssue o node tok k ps) s (s.dev.endNow .command tok.toNat 0x0104 (pst.map (fun _ => 0x0104)))) ∧
          (∀ x, 2 ^ 63 ≤ w → s.dev.qp q = some x →
            (x.st = 2 → Becomes (.transportRequestIssue o node tok k ps) s (s.dev.endNow .command tok.toNat x.err (pst.map (fun _ => x.err)))) ∧
            (x.st ≠ 2 → ∀ d : Dev, d = s.dev.modXpt (fun t => { t with nextReq := t.nextReq + 1 }) →
              Becomes (.transportRequestIssue o node tok k ps) s (((d.setQp q { x with reqs := x.reqs ++ [⟨s.dev.xpt.nextReq, .command, tok.toNat, kind, 0, 0, 0,
                pst.map (fun p => { p with
                  status := 0
                  sent := 0
                  done := 0 }), [], 0, []⟩] }).wantQp q).xptSend q))))))) ∧
  ((∀ (d : Dev) (q : Nat) (m : RxPkt) (h : XptHdr) (x : Qp), h = xptHdr m.payload →
    (d.qp q = none → d.onRequest q m = d.inc R.XPT_DISC_BAD_QP) ∧
    (d.qp q = some x →
      (x.st ≠ 1 ∨ x.setup.mode ≠ 0 ∨ x.setup.peerNode ≠ m.src → d.onRequest q m = d.inc R.XPT_DISC_BAD_QP) ∧
      (x.st = 1 → x.setup.mode = 0 → x.setup.peerNode = m.src →
        (h.psn = x.psnRx → ∀ e : Dev, e = (d.setQp q { x with
            psnRx := psnAdd x x.psnRx 1
            seqNaked := false
            rnrAt := none }).serve q x h (m.payload.drop 32) true → d.onRequest q m = if h.flags.testBit 1 then e.creditUsed q else e) ∧
        (h.psn ≠ x.psnRx → psnBefore x x.psnRx h.psn = true →
          (x.rnrAt.isSome = true ∨ x.seqNaked = true → d.onRequest q m = d) ∧
          (x.rnrAt = none → x.seqNaked = false →
            d.onRequest q m = ((d.setQp q { x with seqNaked := true }).inc R.XPT_MISS_SEQ_NAKS).sendNak q 2 0 x.psnRx h.stamp)) ∧
        (h.psn ≠ x.psnRx → psnBefore x x.psnRx h.psn = false →
          (h.op = 1 → d.onRequest q m = (d.inc R.XPT_DISC_DUPLICATES).sendAck q h.stamp) ∧
          (h.op = 2 → d.onRequest q m = (d.inc R.XPT_DISC_DUPLICATES).serve q x h (m.payload.drop 32) false))))) ∧
  (∀ (d : Dev) (q win a : Nat) (x : Qp) (h : XptHdr) (data : Bytes) (fresh : Bool) (st : Status), a < hbmSize → d.touchHbm = d → data.length ≠ 0 → a + (data.length - 1) < hbmSize →
    d.classOf a = .hbm → d.classOf (a + (data.length - 1)) = .hbm →
    (h.op = 1 → d.xptCheck x 1 (h.flags.testBit 0) h.handle h.addr h.remain (h.remain == 2 ^ 32 - 1) = (0, win, a) →
      d.serve q x h data fresh = (d.write a data).sendAck q h.stamp) ∧
    (h.op = 2 → min 4064 h.remain = data.length → d.xptCheck x 0 (h.flags.testBit 0) h.handle h.addr h.remain (h.remain == 2 ^ 32 - 1) = (0, win, a) →
      d.serve q x h data fresh = (d.answer q h (d.read a data.length)).sendAck q h.stamp) ∧
    (h.op = 1 ∨ h.op = 2 → st ≠ 0 → (d.xptCheck x (2 - h.op) (h.flags.testBit 0) h.handle h.addr h.remain (h.remain == 2 ^ 32 - 1)).1 = st →
      d.serve q x h data fresh = ((d.countRefused st).sendNak q 0 st h.psn h.stamp).sendAck q h.stamp)))

/-- The transport packet at the head of the inbox is handled by the command of its opcode and by no other: a request whose queue pair's state is on die is checked at once, one whose state
is not waits in the miss buffer while an entry is free, and otherwise is answered RNR; a response goes to its queue pair (R381, R385, R386). A response reaches a READY GF queue pair of its sender: an ACK acknowledges every PSN below its own, an ERROR NAK fails its part, an RNR NAK waits RNR_WAIT, a SEQUENCE NAK halves the
window and sends again, and a GRANT raises the credit up to CREDIT_MAX (R383, R393, R394). The transport's timers and fetches: 16 µs without progress halves the window and sends the oldest packet and those after it again; RNR_WAIT past sends from the refused PSN; a fetched
state takes the packets that waited for it; 65.536 µs without a RoCEv2 acknowledgement retries, and with no retry left the queue pair goes to ERROR with 0x0801 (R383, R385, R393, R400). An Ethernet frame held for the transport engine leaves its priority's buffer; one that names no READY RoCEv2 queue pair of its sender is counted as unsupported, a CNP is counted and cuts
the window, and a request or response goes to its queue pair; a later PSN is answered with one sequence NAK, an earlier request acknowledged again (R374, R399, R400). -/
def Obligations.TransportTrafficIsTaken : Prop :=
  (∀ (s : State) (c : Instr) (op : Nat) (m : RxPkt) (r : List RxPkt) (d : Dev) (h : XptHdr), s.Works →
    (c, op) ∈ [(Instr.transportWrite, 1), (.readReq, 2), (.readResp, 3), (.atomic, 4), (.atomicResp, 5), (.ack, 6), (.nak, 7), (.grant, 8)] →
    (s.dev.fab.xptRx = [] → Becomes c s s.dev) ∧
    (s.dev.fab.xptRx = m :: r → xptWf m.payload = true → h = xptHdr m.payload → d = { s.dev with fab := { s.dev.fab with xptRx := r } } →
      (h.op ≠ op → Becomes c s s.dev) ∧
      (h.op = op → op = 3 ∨ 5 ≤ op → Becomes c s ((d.arriveResponse m).settle)) ∧
      (h.op = op → op = 1 ∨ op = 2 ∨ op = 4 →
        (∀ e, d.onDie h.qp = true → d.xpt.miss.any (fun x => x.1 = h.qp) = false → d.bringIn h.qp = some e → Becomes c s ((e.onRequest h.qp m).settle)) ∧
        (∀ x, d.onDie h.qp = false → h.flags.testBit 1 = false → d.qp h.qp = some x → x.rnrAt = none →
          (0 < d.missFree → Becomes c s ((((((d.setQp h.qp { x with rnrAt := none }).issue (poolNo 0x10 0) 1).modXpt (fun t => { t with
            miss := t.miss ++ [(h.qp, m)] })).inc R.XPT_MISS_MISSES).wantQp h.qp).settle)) ∧
          (d.missFree = 0 → Becomes c s ((((d.setQp h.qp { x with rnrAt := some h.psn }).inc R.XPT_MISS_RNR_SENT).sendNak h.qp 1 0 h.psn h.stamp).settle)))))) ∧
  (∀ (d : Dev) (m : RxPkt) (h : XptHdr) (x : Qp) (q : Nat), h = xptHdr m.payload → q = h.qp →
    (d.qp q = none → d.arriveResponse m = d) ∧
    (d.qp q = some x →
      (x.st ≠ 1 ∨ x.setup.mode ≠ 0 ∨ x.setup.peerNode ≠ m.src → d.arriveResponse m = d) ∧
      (x.st = 1 → x.setup.mode = 0 → x.setup.peerNode = m.src →
        (h.op = 3 → d.arriveResponse m = d.onReadData q h.psn (m.payload.drop 32)) ∧
        (h.op = 5 → d.arriveResponse m = d.onAtomicData q h.psn (fld m.payload 32 8)) ∧
        (h.op = 6 → d.arriveResponse m = d.onAck q h.psn (some ((d.xptStamp + 2 ^ 32 - h.stamp) % 2 ^ 32))) ∧
        (h.op = 7 → bits h.flags 3 2 = 0 → d.arriveResponse m = d.onRefused q h.psn h.synd) ∧
        (h.op = 7 → bits h.flags 3 2 = 1 → x.flight.any (fun t => t.psn = h.psn) = true →
          d.arriveResponse m = (((d.modQp q (fun x => { x with rnrFrom := some h.psn })).cutHalf q).disarmRetx q).arm (.rnr q)
            (ns (100 * max 1 ((((d.modQp q (fun x => { x with rnrFrom := some h.psn })).cutHalf q).disarmRetx q).get (R.XPT_TC_RNR_WAIT x.setup.tc))))) ∧
        (h.op = 7 → bits h.flags 3 2 = 2 → d.arriveResponse m = (d.cutHalf q).resendFrom q h.psn) ∧
        (∀ gain, h.op = 8 → gain = (h.psn + 2 ^ 32 - x.granted % 2 ^ 32) % 2 ^ 32 → d.credited x = true → gain ≠ 0 → gain < 2 ^ 31 →
          d.arriveResponse m = ((d.setQp q { x with
            granted := x.granted + gain
            unused := min (x.unused + gain) x.setup.creditMax }).add R.XPT_GRANT_EXCESS_GRANT (x.unused + gain - x.setup.creditMax)).xptSend q)))) ∧
  (∀ (s : State) (q : BitVec 20) (x : Qp), s.Works →
    (s.dev.qp q.toNat = none → Becomes (.transportRetransmitTimeout q) s s.dev ∧ Becomes (.rnrWaitExpiry q) s s.dev ∧ Becomes (.roceAckTimeout q) s s.dev) ∧
    (s.dev.qp q.toNat = some x →
      (s.dev.expired (.retransmit q.toNat) = true → Becomes (.transportRetransmitTimeout q) s ((s.dev.cutHalf q.toNat).resendFrom q.toNat x.oldest)) ∧
      (s.dev.expired (.retransmit q.toNat) = false → Becomes (.transportRetransmitTimeout q) s s.dev) ∧
      (∀ n, x.rnrFrom = some n →
        (s.dev.expired (.rnr q.toNat) = true → Becomes (.rnrWaitExpiry q) s ((((s.dev.disarm (.rnr q.toNat)).resendFrom q.toNat n).xptSend q.toNat).settle)) ∧
        (s.dev.expired (.rnr q.toNat) = false → Becomes (.rnrWaitExpiry q) s s.dev)) ∧
      (s.dev.expired (.roceAck q.toNat) = true →
        (x.retries = 0 → Becomes (.roceAckTimeout q) s ((s.dev.qpError q.toNat 0x0801).settle)) ∧
        (x.retries ≠ 0 → Becomes (.roceAckTimeout q) s
          ((((s.dev.setQp q.toNat { x with retries := x.retries - 1 }).cutHalf q.toNat).resendFrom q.toNat x.oldest).settle)))) ∧
    (∀ (d e : Dev) (mine : List (Nat × RxPkt)), s.dev.xpt.fetching.contains q.toNat = true → s.dev.bringIn q.toNat = some d →
      mine = d.xpt.miss.filter (fun e => e.1 = q.toNat) →
      e = mine.foldl (fun d e => ((d.modXpt (fun t => { t with miss := t.miss.erase e })).retire (poolNo 0x10 0) 1).onRequest q.toNat e.2) d →
      Becomes (.qpStateFetched q) s ((((e.modXpt (fun t => { t with fetching := t.fetching.filter (· != q.toNat) })).topUp q.toNat).xptSend q.toNat).settle))) ∧
  ((∀ (s : State) (p : Nat) (f : EthFrame) (r : List (Nat × EthFrame)) (d : Dev), s.Works → s.dev.fab.ethRx = (p, f) :: r →
    d = ({ s.dev with fab := { s.dev.fab with ethRx := r } }).ethFree p f →
    (f.cnp = false → Becomes .cnp s s.dev ∧ Becomes .rocePacket s ((d.roceFrame p f).settle)) ∧
    (f.cnp = true → Becomes .rocePacket s s.dev ∧
      (d.roceQp p f = none → Becomes .cnp s ((d.inc (R.FAB_PORT_ETH_UNSUPPORTED p)).settle)) ∧
      (∀ q x, d.roceQp p f = some (q, x) → f.pkt.ecnCe = false →
        Becomes .cnp s ((((d.inc R.XPT_GRANT_CNP).onRtt q 0 (2 * (d.inc R.XPT_GRANT_CNP).get (R.XPT_TC_TARGET x.setup.tc))).xptSend q).settle)))) ∧
  (∀ (d : Dev) (p q : Nat) (f : EthFrame) (x : Qp), f.cnp = false → f.pkt.ecnCe = false →
    (d.roceQp p f = none → d.roceFrame p f = d.inc (R.FAB_PORT_ETH_UNSUPPORTED p)) ∧
    (d.roceQp p f = some (q, x) → d.qp q = some x →
      (f.pkt.op = .ack → d.roceFrame p f = d.onAck q (psnAdd x f.pkt.psn.toNat 1) ((x.flight.find? (fun t => t.psn = f.pkt.psn.toNat)).map (fun t => d.ftNs - t.stamp))) ∧
      (∀ a b c, f.pkt.op = .send a b c [] → psnBefore x x.psnRx f.pkt.psn.toNat = true → x.seqNaked = false →
        d.roceFrame p f = ((d.setQp q { x with seqNaked := true }).inc R.XPT_MISS_SEQ_NAKS).roceAck q 0x60 x.psnRx) ∧
      (∀ a b c, f.pkt.op = .send a b c [] → psnBefore x x.psnRx f.pkt.psn.toNat = false → f.pkt.psn.toNat ≠ x.psnRx →
        d.roceFrame p f = (d.inc R.XPT_DISC_DUPLICATES).roceAck q 0x1F f.pkt.psn.toNat))))

/-! ## Fabric time, barriers and in-network compute -/

/-- A GF port that is UP sends one SYNC and one DELAY_REQ every 125 µs while TIM is enabled (R445, R446). A received SYNC is recorded with its receive time; on the upstream port it starts the 1 ms loss timer again, and the eighth one on a VALID port takes a FREE node to SYNTONIZED,
as any one does in HOLDOVER; otherwise the offset t2 − t1 − d_in steers the servo. A received DELAY_REQ is answered with its own time stamps; a DELAY_RESP to the outstanding request
gives d = ((t2 − t1) + (t4 − t3)) / 2, VALID after 16 exchanges, and LOCKED after 16 in a row within 50 ps (R446 to R448). 1 ms without a SYNC from upstream takes a node that is SYNTONIZED or LOCKED to HOLDOVER; ACCURATE clears 1 ms after entry to it; a timer that has not run out does nothing (R448). FT is set only on the root and only while ticks do not run; a read gives its integer ns and latches the fraction; a 1PPS edge captures it, and on the root with 1PPS enabled bends
its rate by at most 1 ppm; while ticks run DOMAIN and ROOT keep their values (R442, R448, R449, R451, R466). -/
def Obligations.FabricTimeFollowsItsMessages : Prop :=
  (∀ (s : State) (p : PortId) (d : Dev), s.Works → d = s.dev.arm (.exchange p.val) 1000000 →
    (s.dev.gfUp p.val = false ∨ s.dev.expired (.exchange p.val) = false → Becomes (.timeExchangeSend p) s s.dev) ∧
    (s.dev.gfUp p.val = true → s.dev.expired (.exchange p.val) = true →
      (d.has R.TIM_CTRL_ENABLE = false → Becomes (.timeExchangeSend p) s d) ∧
      (d.has R.TIM_CTRL_ENABLE = true → Becomes (.timeExchangeSend p) s
        ((d.sendTime p.val (ctlPayload 1 (b2n (d.has R.TIM_STATUS_ACCURATE)) (d.get R.TIM_CTRL_DOMAIN) 0 0 0 0)).sendTime p.val
          (ctlPayload 2 0 (d.get R.TIM_CTRL_DOMAIN) 0 0 0 0))))) ∧
  (∀ (s : State) (m : RxPkt) (d : Dev), s.Works →
    (s.dev.takeTim 1 = (some m, d) →
      (d.has R.TIM_CTRL_ENABLE = false → Becomes .sync s d) ∧
      (d.has R.TIM_CTRL_ENABLE = true → ∀ (t : PTime) (x y : Dev),
        t = { d.ptime m.port with
          sync := some (timeOf m.payload 8, m.time)
          accurate := (fld m.payload 1 1).testBit 0
          syncs := if d.delayValid m.port then (d.ptime m.port).syncs + 1 else 0 } → x = d.setPtime m.port t → y = x.arm .syncLoss 8000000 →
        (x.upstream m.port = false → Becomes .sync s x) ∧
        (x.upstream m.port = true → y.delayValid m.port = false → Becomes .sync s y) ∧
        (x.upstream m.port = true → y.delayValid m.port = true → y.get R.TIM_STATUS_STATE = 0 ∧ 8 ≤ t.syncs ∨ y.get R.TIM_STATUS_STATE = 3 → Becomes .sync s y.syntonize) ∧
        (x.upstream m.port = true → y.delayValid m.port = true → (y.get R.TIM_STATUS_STATE ≠ 0 ∨ t.syncs < 8) → y.get R.TIM_STATUS_STATE ≠ 3 →
          Becomes .sync s ((y.useOffset ((m.time : Int) - timeOf m.payload 8 - y.delayIn m.port) false).judgeAccurate)))) ∧
    (s.dev.takeTim 2 = (some m, d) →
      (d.has R.TIM_CTRL_ENABLE = false → Becomes .delayReq s d) ∧
      (d.has R.TIM_CTRL_ENABLE = true →
        Becomes .delayReq s (d.sendTime m.port (ctlPayload 3 0 (d.get R.TIM_CTRL_DOMAIN) 0 0 m.time (timeOf m.payload 8))))) ∧
    (s.dev.takeTim 3 = (some m, d) →
      (d.has R.TIM_CTRL_ENABLE = false → Becomes .delayResp s d) ∧
      (d.has R.TIM_CTRL_ENABLE = true → (d.ptime m.port).reqAt ≠ some (timeOf m.payload 0x12) ∨ (d.ptime m.port).sync = none → Becomes .delayResp s d) ∧
      (d.has R.TIM_CTRL_ENABLE = true → (d.ptime m.port).reqAt = some (timeOf m.payload 0x12) → ∀ (t1 t2 : Nat) (t : PTime) (x y : Dev), (d.ptime m.port).sync = some (t1, t2) →
        t = { d.ptime m.port with
          reqAt := none
          exchanges := (d.ptime m.port).exchanges + 1
          delay := Config.filterDelay (d.ptime m.port).delay ((((t2 : Int) - t1) + ((timeOf m.payload 8 : Int) - timeOf m.payload 0x12)) / 2) } →
        x = (d.setPtime m.port t).set (R.TIM_PORT_DELAY_DELAY m.port) (wrap 48 t.delay) →
        y = (if 16 ≤ t.exchanges then x.set (R.TIM_PORT_DELAY_VALID m.port) 1 else x) →
        (y.upstream m.port = false ∨ y.delayValid m.port = false → Becomes .delayResp s y) ∧
        (y.upstream m.port = true → y.delayValid m.port = true → ∀ (off : Int) (z : Dev), y.offsetOf m.port = some off →
          z = { y with tim := { y.tim with inBound := if off.natAbs ≤ 3276 then y.tim.inBound + 1 else 0 } } →
          (y.get R.TIM_STATUS_STATE = 3 → Becomes .delayResp s z.syntonize) ∧
          (y.get R.TIM_STATUS_STATE = 1 → 16 ≤ z.tim.inBound → Becomes .delayResp s (z.set R.TIM_STATUS_STATE 2).judgeAccurate) ∧
          (y.get R.TIM_STATUS_STATE ≠ 3 → y.get R.TIM_STATUS_STATE ≠ 1 ∨ z.tim.inBound < 16 → Becomes .delayResp s z)))) ∧
    (s.dev.takeTim 1 = (none, d) → Becomes .sync s d) ∧ (s.dev.takeTim 2 = (none, d) → Becomes .delayReq s d) ∧ (s.dev.takeTim 3 = (none, d) → Becomes .delayResp s d)) ∧
  (∀ s : State, s.Live →
    (s.dev.expired .syncLoss = false → Becomes .syncLossTimeout s s.dev) ∧
    (s.dev.expired .syncLoss = true → ∀ x : Dev, x = s.dev.disarm .syncLoss →
      (x.get R.TIM_STATUS_STATE = 0 ∨ x.get R.TIM_STATUS_STATE = 3 → Becomes .syncLossTimeout s x.judgeAccurate) ∧
      (x.get R.TIM_STATUS_STATE ≠ 0 → x.get R.TIM_STATUS_STATE ≠ 3 → ∀ y : Dev, y = (x.set R.TIM_STATUS_STATE 3).disarm .syncLoss →
        Becomes .syncLossTimeout s ((({ y with tim := { y.tim with inBound := 0 } } : Dev).arm .accurate 8000000).judgeAccurate))) ∧
    (s.dev.expired .accurate = false → Becomes .accurateClear s s.dev) ∧
    (s.dev.expired .accurate = true → Becomes .accurateClear s ((s.dev.disarm .accurate).set R.TIM_STATUS_ACCURATE 0))) ∧
  (∀ (s : State) (v : Word), s.Live →
    (s.dev.has R.TIM_CTRL_ROOT = true → s.dev.has R.SEQ_TICK_CTRL_RUNNING = false →
      Becomes (.ftSet v) s ({ s.dev with tim := { s.dev.tim with ft := BitVec.ofNat 80 (v.toNat * 65536), sub := 0, stepped := s.dev.tim.stepped + 1 } }.reply 0)) ∧
    (s.dev.has R.TIM_CTRL_ROOT = false ∨ s.dev.has R.SEQ_TICK_CTRL_RUNNING = true → Becomes (.ftSet v) s (s.dev.reply 0)) ∧
    Becomes .ftNsRead s ((s.dev.set R.TIM_FT_FRAC_FRAC (s.dev.tim.ft.toNat % 65536)).reply 0 (BitVec.ofNat 64 (s.dev.tim.ft.toNat / 65536))) ∧
    (∀ t, s.dev.tim.ppsAt = some t → s.dev.clk < t + 7200000000 → Becomes .ppsEdge s s.dev) ∧
    ((∀ t, s.dev.tim.ppsAt = some t → t + 7200000000 ≤ s.dev.clk) → ∀ d : Dev,
      d = ({ s.dev with tim := { s.dev.tim with ppsAt := some s.dev.clk } } : Dev).setW R.TIM_PPS_CAPTURE (s.dev.tim.ft.toNat / 65536) →
      (d.has R.TIM_CTRL_ENABLE = false ∨ d.has R.TIM_CTRL_ROOT = false ∨ d.has R.TIM_PPS_ENABLE = false → Becomes .ppsEdge s d) ∧
      (d.has R.TIM_CTRL_ENABLE = true → d.has R.TIM_CTRL_ROOT = true → d.has R.TIM_PPS_ENABLE = true → ∃ r : Nat, r ≤ nominalRate + nominalRate / 1000000 ∧
        nominalRate - nominalRate / 1000000 ≤ r ∧ Becomes .ppsEdge s { d with tim := { d.tim with rate := r } })) ∧
    (s.dev.has R.SEQ_TICK_CTRL_RUNNING = true → getBits v 63 48 ≠ s.dev.get R.TIM_CTRL_DOMAIN ∨ getBits v 1 1 ≠ s.dev.get R.TIM_CTRL_ROOT →
      Becomes (.timCtrlWrite v) s (s.dev.reply 0)) ∧
    (s.dev.has R.SEQ_TICK_CTRL_RUNNING = false → ∀ d : Dev, d = (((s.dev.set R.TIM_CTRL_DOMAIN (getBits v 63 48)).set R.TIM_CTRL_UPSTREAM (getBits v 47 40)).set R.TIM_CTRL_ROOT
        (getBits v 1 1)).set R.TIM_CTRL_ENABLE (getBits v 0 0) →
      (getBits v 0 0 = 0 → ∀ x : Dev, x = ((d.set R.TIM_STATUS_STATE 0).disarm .syncLoss).disarm .accurate →
        Becomes (.timCtrlWrite v) s ((({ x with tim := { x.tim with rate := nominalRate, inBound := 0 } } : Dev).judgeAccurate).reply 0)) ∧
      (getBits v 0 0 ≠ 0 → getBits v 1 1 = 1 → Becomes (.timCtrlWrite v) s ((((d.set R.TIM_STATUS_STATE 2).disarm .syncLoss).judgeAccurate).reply 0))))

/-- A member arrives once per generation, locally where LOCAL is set, and by BAR_ARRIVE from a port whose delay is VALID; a second arrival of one source and a foreign generation are
counted and dropped. A full count goes up to PARENT, or at the root starts the release: R_FT is FT's integer ns, rounded up, plus LEAD_NS, and BAR_RELEASE goes out on every port that
arrived (R452, R453). A received BAR_RELEASE starts the countdown T_A − d_in and is forwarded; one that comes late releases at once. A release sets RELEASED, records R_FT, raises the generation and
clears the arrivals, steps FT to R_FT where the member is not LOCKED, and lets tick 0 fall where an ARM waits on the barrier. CANCEL clears the barrier and sends nothing
(R453 to R456). -/
def Obligations.BarriersArriveAndRelease : Prop :=
  (∀ (s : State) (b : PortId), s.Live →
    (s.dev.has (R.TIM_BAR_CFG_LOCAL b.val) = false ∨ (s.dev.bar b.val).loc = true → Becomes (.arrive b) s ((s.dev.inc R.TIM_DISC_DUP_ARRIVE).reply 0)) ∧
    (s.dev.has (R.TIM_BAR_CFG_LOCAL b.val) = true → (s.dev.bar b.val).loc = false →
      Becomes (.arrive b) s (((s.dev.setBar b.val { s.dev.bar b.val with loc := true }).barFull b.val).reply 0)) ∧
    (s.Works → ∀ (m : RxPkt) (d : Dev) (k : Nat), k = fld m.payload 4 1 → s.dev.takeTim 0x10 = (some m, d) → d.has R.TIM_CTRL_ENABLE = true →
      (d.delayValid m.port = false → Becomes .barArrive s d) ∧
      (d.delayValid m.port = true →
        (fld m.payload 6 2 ≠ d.get (R.TIM_BAR_STATUS_GEN k) → Becomes .barArrive s (d.inc R.TIM_DISC_STALE_GEN)) ∧
        (fld m.payload 6 2 = d.get (R.TIM_BAR_STATUS_GEN k) → m.port ∈ (d.bar k).ports → Becomes .barArrive s (d.inc R.TIM_DISC_DUP_ARRIVE)) ∧
        (fld m.payload 6 2 = d.get (R.TIM_BAR_STATUS_GEN k) → m.port ∉ (d.bar k).ports →
          Becomes .barArrive s ((d.setBar k { d.bar k with ports := insNat m.port (d.bar k).ports }).barFull k)))) ∧
    (∀ (d x : Dev) (k n rft : Nat), n = (d.bar k).ports.length + b2n (d.bar k).loc →
      x = (d.set (R.TIM_BAR_STATUS_COUNT k) n).set (R.TIM_BAR_STATUS_WAITING k) (b2n (n < d.get (R.TIM_BAR_CFG_EXPECT k) + d.get (R.TIM_BAR_CFG_LOCAL k))) →
      rft = cdiv x.tim.ft.toNat 65536 + x.get (R.TIM_BAR_CFG_LEAD_NS k) →
      (n ≠ d.get (R.TIM_BAR_CFG_EXPECT k) + d.get (R.TIM_BAR_CFG_LOCAL k) → d.barFull k = x) ∧
      (n = d.get (R.TIM_BAR_CFG_EXPECT k) + d.get (R.TIM_BAR_CFG_LOCAL k) → x.has (R.TIM_BAR_CFG_ROOT k) = true →
        d.barFull k = ((x.setBar k { d.bar k with
          countdown := some ((rft * 65536 : Nat) - (x.tim.ft.toNat : Int))
          rft := rft }).set (R.TIM_BAR_STATUS_COUNTING k) 1).sendRelease k (d.get (R.TIM_BAR_STATUS_GEN k)) rft (d.bar k).ports) ∧
      (n = d.get (R.TIM_BAR_CFG_EXPECT k) + d.get (R.TIM_BAR_CFG_LOCAL k) → x.has (R.TIM_BAR_CFG_ROOT k) = false →
        x.gfUp (x.get (R.TIM_BAR_CFG_PARENT k)) = true → x.delayValid (x.get (R.TIM_BAR_CFG_PARENT k)) = true →
        d.barFull k = x.sendTime (x.get (R.TIM_BAR_CFG_PARENT k)) (ctlPayload 0x10 0 (x.get R.TIM_CTRL_DOMAIN) k (d.get (R.TIM_BAR_STATUS_GEN k)) 0 0)))) ∧
  (∀ (s : State) (b : PortId), s.Live →
    (s.Works → ∀ (m : RxPkt) (d x : Dev) (k : Nat) (left : Int), k = fld m.payload 4 1 → s.dev.takeTim 0x11 = (some m, d) → d.has R.TIM_CTRL_ENABLE = true →
      left = (timeOf m.payload 8 : Int) - d.delayIn m.port →
      x = ((d.setBar k { d.bar k with
        countdown := some left
        rft := timeOf m.payload 0x12 / 65536 }).set (R.TIM_BAR_STATUS_COUNTING k) 1).sendRelease k (d.get (R.TIM_BAR_STATUS_GEN k)) (timeOf m.payload 0x12 / 65536) (d.bar k).ports →
      (d.delayValid m.port = false → Becomes .barRelease s d) ∧
      (d.delayValid m.port = true → fld m.payload 6 2 ≠ d.get (R.TIM_BAR_STATUS_GEN k) → Becomes .barRelease s (d.inc R.TIM_DISC_STALE_GEN)) ∧
      (d.delayValid m.port = true → fld m.payload 6 2 = d.get (R.TIM_BAR_STATUS_GEN k) → 0 < left → Becomes .barRelease s x) ∧
      (d.delayValid m.port = true → fld m.payload 6 2 = d.get (R.TIM_BAR_STATUS_GEN k) → left ≤ 0 →
        Becomes .barRelease s ((x.set (R.TIM_BAR_STATUS_LATE k) 1).release k))) ∧
    ((∀ c, (s.dev.bar b.val).countdown = some c → 0 < c) → Becomes (.barrierRelease b) s s.dev) ∧
    (∀ c, (s.dev.bar b.val).countdown = some c → c ≤ 0 → Becomes (.barrierRelease b) s (s.dev.release b.val)) ∧
    (∀ (d x y : Dev) (k : Nat), x = (d.set (R.TIM_BAR_STATUS_RELEASED k) 1).setWord (R.TIM_BAR_RELEASE k) (BitVec.ofNat 64 (d.bar k).rft) →
      y = (if x.barClear k |>.get R.TIM_STATUS_STATE |> (· = 2) then x.barClear k else (x.barClear k).stepFt ((d.bar k).rft * 65536)) →
      (d.has R.SEQ_TICK_CTRL_ARM = false ∨ d.has R.SEQ_TICK_CTRL_RUNNING = true ∨ d.has R.SEQ_TICK_CTRL_SRC = false ∨ d.get R.SEQ_TICK_CTRL_BARRIER ≠ k → d.release k = y) ∧
      (d.has R.SEQ_TICK_CTRL_ARM = true → d.has R.SEQ_TICK_CTRL_RUNNING = false → d.has R.SEQ_TICK_CTRL_SRC = true → d.get R.SEQ_TICK_CTRL_BARRIER = k →
        (y.setW R.SEQ_LAUNCH_FT (d.bar k).rft).fatal = false → d.release k = (y.setW R.SEQ_LAUNCH_FT (d.bar k).rft).tickFall 0)) ∧
    (∀ x : Dev, x = s.dev.setBar b.val Bar.idle →
      Becomes (.cancel b) s ((((((x.set (R.TIM_BAR_STATUS_GEN b.val) (x.get (R.TIM_BAR_STATUS_GEN b.val) + 1)).set (R.TIM_BAR_STATUS_COUNT b.val) 0).set
        (R.TIM_BAR_STATUS_COUNTING b.val) 0).set (R.TIM_BAR_STATUS_WAITING b.val) 0)).reply 0)))

/-- A collective packet at the head of COL's inbox is judged in the order of R429: BAD where its group is not installed or it is malformed, STALE, BAD range, AHEAD, DUPLICATES; one that
passes is taken in, where the input's entries stand under the indices that OFFSET gives them, a CONTRIB and a rank's FAIL as the input's, a RESULT and the parent's FAIL as the
parent's (R361, R429). An instance moves on once every input has ended: a node that is not the root sends its partial, or its failure, up to its parent; the root delivers the result, or its failure,
in ascending SEQ, as any other node does with what its parent sends. An instance whose inputs fail fails with the status of the failing range of lowest RANK_LO (R425, R430, R431). COL watches a LOCAL input's READY_SEQ: a larger number than the one awaited is counted as AHEAD, and the one awaited lets COL read the contribution and take it in whole, or fail the
instance with the status of the reading (R418, R432). -/
def Obligations.CollectivesCombine : Prop :=
  (∀ (s : State) (c : Instr) (k : Nat) (m : RxPkt) (r : List RxPkt) (d : Dev), s.Works → (c, k) ∈ [(Instr.contrib, 1), (.result, 2), (.fail, 3)] →
    s.dev.fab.colRx = m :: r → fld m.payload 0 1 = k → d = ({ s.dev with fab := { s.dev.fab with colRx := r } } : Dev) →
    (d.grp (fld m.payload 2 2) = none → Becomes c s (d.inc R.COL_DISC_BAD)) ∧
    (∀ x, d.grp (fld m.payload 2 2) = some x → 32 ≤ m.payload.length → m.payload.length ≤ 4096 → fld m.payload 1 1 ≤ 1 → fld m.payload 2 2 < 4096 →
      (∀ es i y, k = 1 → fld m.payload 6 2 = 0 → fld m.payload 0x1E 2 = 0 → inputOf x m = some i → x.inputs[i]? = some y → y.kind ≠ 1 →
        contribEntries (d.progOf x) (y.kind == 2) (fld m.payload 0x1C 2) (m.payload.drop 32) = some es →
        (fld m.payload 4 2 < x.gen → Becomes c s (d.inc R.COL_DISC_STALE)) ∧
        (x.gen ≤ fld m.payload 4 2 →
          (x.next + 4 ≤ fld m.payload 8 8 → Becomes c s (d.inc R.COL_DISC_AHEAD)) ∧
          (fld m.payload 8 8 < x.next → Becomes c s (d.inc R.COL_DISC_DUPLICATES)) ∧
          (x.next ≤ fld m.payload 8 8 → fld m.payload 8 8 < x.next + 4 → x.run (fld m.payload 8 8) = none →
            ¬ (fld m.payload 0x1C 2 = 0 ∧ (fld m.payload 1 1).testBit 0 = false) →
            Becomes c s (d.colInput (fld m.payload 2 2) (fld m.payload 8 8) i (fun a => a.take (fld m.payload 0x18 4) es ((fld m.payload 1 1).testBit 0) 0))))) ∧
      (∀ n y z q, k = 2 → fld m.payload 6 2 = 0 → fromParent x m = true → x.gen ≤ fld m.payload 4 2 → n = fld m.payload 8 8 → x.next ≤ n → n < x.next + 4 → x.run n = none →
        cutEntries (fun i _ => some (resultLen (d.progOf x) x.count (fld m.payload 0x18 4 + i))) (fld m.payload 0x1C 2) 0 (m.payload.drop 32) = some q →
        ¬ (fld m.payload 0x1C 2 = 0 ∧ (fld m.payload 1 1).testBit 0 = false) → (d.colBegin (fld m.payload 2 2) x n).grp (fld m.payload 2 2) = some y → y.run n = some z →
        Becomes c s ((((d.colBegin (fld m.payload 2 2) x n).setGrp (fld m.payload 2 2) (y.setRun { z with
          res := z.res.take (fld m.payload 0x18 4) q ((fld m.payload 1 1).testBit 0) (fld m.payload 0x1E 2) })).colProgress (fld m.payload 2 2) n).colMove (fld m.payload 2 2) 12)) ∧
      (∀ i y, k = 3 → fld m.payload 6 2 ≠ 0 → fld m.payload 0x1E 2 = 0 → fld m.payload 0x1C 2 = 0 → m.payload.length = 32 → fromParent x m = false → inputOf x m = some i →
        x.inputs[i]? = some y → y.kind ≠ 1 → x.gen ≤ fld m.payload 4 2 → x.next ≤ fld m.payload 8 8 → fld m.payload 8 8 < x.next + 4 → x.run (fld m.payload 8 8) = none →
        Becomes c s (d.colInput (fld m.payload 2 2) (fld m.payload 8 8) i (fun a => { a with fail := BitVec.ofNat 16 (fld m.payload 6 2) }))))) ∧
  (∀ (d : Dev) (g n : Nat) (x : ColGroup) (r : ColRun), d.grp g = some x →
    (x.parentNode ≠ 0xFFF → x.runs.find? (fun y => !y.up && y.ins.all (·.ended)) = some r → ∀ (st : Status) (l : List Bytes) (e : Dev), d.colOutcome x r = (st, l) →
      e = d.setGrp g (x.setRun { r with up := true }) →
      (st = 0 → d.colMove g (n + 1) = (e.colSendAll g x x.parentNode 1 x.parentGroup r.seq x.lo x.hi 0 l).colMove g n) ∧
      (st ≠ 0 → d.colMove g (n + 1) = (e.colSendFail g x x.parentNode x.parentGroup r.seq x.lo x.hi st).colMove g n)) ∧
    (x.parentNode = 0xFFF → x.run x.next = some r →
      (r.ins.all (·.ended) = false → d.colMove g (n + 1) = d) ∧
      (r.ins.all (·.ended) = true → ∀ (st : Status) (l res : List Bytes) (fl : Nat), d.colOutcome x r = (st, l) → resultOf (d.progOf x) l = (res, fl) →
        (st ≠ 0 → d.colMove g (n + 1) = (d.colComplete g x r.seq st 0 []).colMove g n) ∧
        (st = 0 → x.workBytes < bytesOf res → d.colMove g (n + 1) = (d.colComplete g x r.seq 0x0201 0 []).colMove g n) ∧
        (st = 0 → bytesOf res ≤ x.workBytes → d.colMove g (n + 1) = (d.colComplete g x r.seq 0 fl res).colMove g n))) ∧
    (inputsFail (d.progOf x) x r ≠ 0 → d.colOutcome x r = (inputsFail (d.progOf x) x r, []))) ∧
  (∀ (s : State) (g : Fin 4096) (i : Nat) (x : ColGroup) (y : ColInput), s.Works →
    (s.dev.grp g = none → Becomes (.localContributionReady g i) s s.dev) ∧
    (s.dev.grp g = some x → x.inputs[i]? = some y → y.kind = 1 →
      (awaited x i < s.dev.readLe y.ctrl 8 → Becomes (.localContributionReady g i) s (s.dev.inc R.COL_DISC_AHEAD)) ∧
      (s.dev.readLe y.ctrl 8 < awaited x i ∨ s.dev.readLe y.ctrl 8 = awaited x i ∧ x.next + 4 ≤ awaited x i → Becomes (.localContributionReady g i) s s.dev) ∧
      (s.dev.readLe y.ctrl 8 = awaited x i → awaited x i < x.next + 4 → ∀ (st : Status) (l : List Bytes), s.dev.colRead (s.dev.progOf x) x y = (st, l) →
        (st = 0 → Becomes (.localContributionReady g i) s (s.dev.colInput g (awaited x i) i (fun a => a.take 0 l true 0))) ∧
        (st ≠ 0 → Becomes (.localContributionReady g i) s (s.dev.colInput g (awaited x i) i (fun a => { a with fail := st }))))))

/-- INSTALL and REMOVE are checked in order: pending 0x0511, a passed tick 0x0517, a function that is not loaded 0x0514, a bad record 0x0136, another function's group or a GEN not above
0x0534; a refused one changes nothing but STATUS and DONE, any other is PENDING until its tick. An invalid OP is 0x0116. 1 SEQ's TIMEOUT_US without progress sets STALLED and is
reported (R435, R436, R438, R475). -/
def Obligations.GroupCommandsAreChecked : Prop :=
  ∀ (s : State) (g : Fin 4096) (c : Instr) (op a tick : Nat) (d : Dev), s.Live →
    (c, op) ∈ [(Instr.install g, 1), (.remove g, 2), (.colCmdInvalid g true, 3), (.colCmdInvalid g false, 0)] →
    d = (s.dev.set R.COL_GRP_CMD_OP op).set R.COL_GRP_CMD_GROUP g → a = 64 * d.get R.COL_GRP_ADDR_ADDR → tick = (d.word R.COL_GRP_TICK).toNat →
    (d.fatal = true → Becomes c s (((d.set R.COL_GRP_CMD_STATUS 0x0F04).set R.COL_GRP_CMD_DONE 1).reply 0)) ∧
    (d.fatal = false →
      (op ≠ 1 → op ≠ 2 → Becomes c s (((d.set R.COL_GRP_CMD_STATUS 0x0116).set R.COL_GRP_CMD_DONE 1).reply 0)) ∧
      (op = 1 ∨ op = 2 →
        (d.has R.COL_GRP_CMD_PENDING = true → Becomes c s (((d.set R.COL_GRP_CMD_STATUS 0x0511).set R.COL_GRP_CMD_DONE 1).reply 0)) ∧
        (d.has R.COL_GRP_CMD_PENDING = false →
          (tick ≠ 0 → tick ≤ (d.word R.SEQ_TICK).toNat → Becomes c s (((d.set R.COL_GRP_CMD_STATUS 0x0517).set R.COL_GRP_CMD_DONE 1).reply 0)) ∧
          (tick = 0 ∨ (d.word R.SEQ_TICK).toNat < tick →
            (op = 1 → d.grpCheck g a ≠ 0 → Becomes c s (((d.set R.COL_GRP_CMD_STATUS (d.grpCheck g a).toNat).set R.COL_GRP_CMD_DONE 1).reply 0)) ∧
            (op = 2 ∨ d.grpCheck g a = 0 → Becomes c s ((((d.set R.COL_GRP_CMD_STATUS 0).set R.COL_GRP_CMD_PENDING 1).modCol (fun x => { x with
              cmd := some ⟨op, g, a, tick⟩ })).reply 0)))))) ∧
    ((16 ≤ (d.grpRecord a).fn ∨ d.loaded (d.grpRecord a).fn = false → d.grpCheck g a = 0x0514) ∧
      ((d.grpRecord a).fn < 16 → d.loaded (d.grpRecord a).fn = true →
        ((d.img (d.grpRecord a).fn).colLanes = 0 ∨ d.grpWf g a = false → d.grpCheck g a = 0x0136) ∧
        ((d.img (d.grpRecord a).fn).colLanes ≠ 0 → d.grpWf g a = true →
          (∀ x, d.grp g = some x → x.fn ≠ (d.grpRecord a).fn ∨ (d.grpRecord a).gen ≤ x.gen → d.grpCheck g a = 0x0534) ∧
          (∀ x, d.grp g = some x → x.fn = (d.grpRecord a).fn → x.gen < (d.grpRecord a).gen → d.grpCheck g a = 0) ∧
          (d.grp g = none → d.grpCheck g a = 0)))) ∧
    (s.Works → (s.dev.grp g = none → Becomes (.colInstanceTimeout g) s s.dev) ∧
      (∀ x, s.dev.grp g = some x → (∀ r ∈ x.runs, s.dev.expired (colTimer g r.seq) = false) → Becomes (.colInstanceTimeout g) s s.dev) ∧
      (∀ x r e, s.dev.grp g = some x → x.runs = [r] → s.dev.expired (colTimer g r.seq) = true →
        e = (s.dev.disarm (colTimer g r.seq)).setGrp g { x with runs := [{ r with stalled := true }] } →
        Becomes (.colInstanceTimeout g) s (e.report x.fn 0x0B 0x0801 g)))

/-! ## Faults and recovery -/

/-- An uncorrectable error is recorded with its address, counted and raised, and contained by its location: a Pond read is a miss, a channel buffer or a state area stops its stage and
plan tables or code their whole function, a packet is discarded, a queue pair goes to ERROR, a core fails with 0x0F03, and a location of the device's own is a fatal cause
(R308, R473, R474). In the cycle of a fatal cause FATAL and CAUSE are set, the state that a dump captures is latched, the dump is under way and every fabric port goes to DISABLED; a second cause is
only recorded in the trace. From then on the engines' commands have no effect (R474, R475, R478). The dump that a fatal cause began ends with the whole dump in its area, LENGTH its length and DUMP COMPLETE, or FAILED where its header could not be written; a release clears its
header, its length and its state (R475, R476). -/
def Obligations.FaultsAreContained : Prop :=
  (∀ (s : State) (f : FnId) (p : PortId) (q c a : Nat), s.Live → ∀ e : Nat → Status → Nat → Dev, (∀ a st b, e a st b =
      (({ s.dev with lgr := { s.dev.lgr with errors := (s.dev.lgr.errors ++ [(⟨a, st, b⟩ : ErrRec)]).take 256 } } : Dev).inc R.LGR_ECC_UNCORRECTABLE).raise 835 0) →
    Becomes (.uncorrectableError (.pond a)) s ((e a 0x0F02 3).pondSpoil a).settle ∧
    (s.dev.loaded f = true →
      Becomes (.uncorrectableError (.channelBuf f a)) s ((e a 0x0F02 1).stall f (2 ^ 80 + a) 0x0F02).settle ∧
      Becomes (.uncorrectableError (.stateArea f a)) s ((e a 0x0F02 3).stall f (2 ^ 80 + a) 0x0F02).settle ∧
      Becomes (.uncorrectableError (.planTables f a)) s ((e a 0x0F02 1).stall f (2 ^ 81 + a) 0x0F02).settle ∧
      Becomes (.uncorrectableError (.gtcCode f a)) s ((e a 0x0F02 7).stall f (2 ^ 81 + a) 0x0F02).settle) ∧
    Becomes (.uncorrectableError (.packetBuffer p a)) s ((e a 0x0F02 8).dropStored p).settle ∧
    Becomes (.uncorrectableError (.qpState q a)) s (((e a 0x0F02 9).report 0xFF 9 0x0F02 q).qpError q 0x0F02).settle ∧
    (∀ l b, (l, b) ∈ [(ErrLoc.fixedRegion a, 3), (.mgtSram a, 15), (.ledger a, 13), (.sec a, 16)] →
      Becomes (.uncorrectableError l) s ((e a 0x0F02 b).goFatal 0x0F02).settle) ∧
    Becomes (.uncorrectableError (.core c a)) s (((e a 0x0F03 7).report 0xFF 7 0x0F03 c).coreFail c).settle ∧
    (s.dev.fatal = false →
      (c < s.dev.get R.GLB_UNITS_THR_CORES → Becomes (.coreFailure c a) s (((e a 0x0F03 7).report 0xFF 7 0x0F03 c).coreFail c)) ∧
      (s.dev.get R.GLB_UNITS_THR_CORES ≤ c → Becomes (.coreFailure c a) s s.dev)) ∧
    Becomes (.hbmScrub a .clean) s s.dev ∧
    (0xA000000000 ≤ a → ∀ x, Becomes (.hbmScrub a x) s s.dev) ∧
    (a < 0xA000000000 → Becomes (.hbmScrub a .correctable) s (s.dev.inc R.LGR_ECC_CORRECTED) ∧
      Becomes (.hbmScrub a .uncorrectable) s (e a 0x0F02 3)) ∧
    Becomes .firmwareAssert s (s.dev.goFatal 0x0F05)) ∧
  (∀ (s : State) (cause : Status) (d x : Dev), d = s.dev.report 0xFF 0x0D cause 0 → x = (d.set R.LGR_STATUS_FATAL 1).set R.LGR_STATUS_CAUSE cause.toNat →
    (s.dev.fatal = true → s.dev.goFatal cause = d) ∧
    (s.dev.fatal = false → s.dev.goFatal cause = ((({ x with lgr := { x.lgr with latch := some ⟨x.regs, x.clk, x.timers, x.irq, x.tim, x.fab, x.lgr.ports⟩ } } : Dev).set
      R.LGR_STATUS_DUMP 1).dropUpdate).disableAll) ∧
    (s.dev.goFatal cause).fatal = true ∧
    (∀ c : Instr, domainOf c = .engine → exec c { s with dev := s.dev.goFatal cause } = .next { s with dev := s.dev.goFatal cause })) ∧
  (∀ (s : State) (ok : Bool) (bad : List (Fin 6)), s.Live →
    (s.dev.lgr.latch = none → Becomes (.dumpComplete ok bad) s s.dev) ∧
    (∀ l, s.dev.lgr.latch = some l → s.dev.get R.MGT_FW_STATUS_STATE ≠ 3 →
      (ok = false → Becomes (.dumpComplete ok bad) s (({ s.dev with lgr := { s.dev.lgr with latch := none } } : Dev).set R.LGR_STATUS_DUMP 3)) ∧
      (ok = true → ∀ (f d : Dev) (b dig sig : Bytes), f = s.dev.latched l → b = dumpBody s.dev f (bad.map (·.val)) → dig = sha512 b → sig = edSign s.dev.sec.seed dig →
        d = ({ s.dev with free := s.dev.free + 2 * f.dumpObjects.length, lgr := { s.dev.lgr with latch := none } } : Dev).addWord R.SEC_SIGNED 1 →
        Becomes (.dumpComplete ok bad) s (((d.write dumpBase (b ++ dig ++ sig)).set R.LGR_DUMP_LENGTH (b ++ dig ++ sig).length).set R.LGR_STATUS_DUMP 2))) ∧
    Becomes .dumpRelease s ((((s.dev.write dumpBase [0, 0, 0, 0, 0, 0, 0, 0]).set R.LGR_DUMP_LENGTH 0).set R.LGR_STATUS_DUMP 0).reply 0))

/-- FAB_NODE_ID keeps its node while a function is loaded, and takes any other write. A fence takes a first write and any higher epoch, and at once puts the queue pairs of its node in
ERROR; one that would clear it, or lower or repeat its epoch, has no effect (R362, R375, R385, R392). A lease that runs out makes the node fence itself at its ADMIT_EPOCH: SELF_FENCED and FENCE_EPOCH are set, every queue pair to another node goes to ERROR with 0x0502, and every
function that is not STOPPED is KILLed at the next tick (R480, R481). A port that is UP sends a heartbeat every 1 ms while a node ID is assigned; a received one is recorded with its admission epoch, its node and whether it is self-fenced, and starts
4 ms anew, after which the neighbour shows as SILENT (R482). -/
def Obligations.NodesAreFencedAndHeard : Prop :=
  (∀ (s : State) (n : BitVec 12) (v : Word), s.Live →
    (getBits v 11 0 ≠ s.dev.node → s.dev.loadedFns ≠ [] → s.dev.node ≠ 0xFFF → Becomes (.nodeIdWrite v) s (s.dev.reply 0)) ∧
    (getBits v 11 0 = s.dev.node ∨ s.dev.loadedFns = [] ∨ s.dev.node = 0xFFF →
      Becomes (.nodeIdWrite v) s (((s.dev.set R.FAB_NODE_ID_NODE (getBits v 11 0)).set R.FAB_NODE_ID_ADMIT_EPOCH (getBits v 63 32)).reply 0)) ∧
    (n.toNat < 0xFFF →
      (s.dev.has (R.FAB_FENCE_VALID n.toNat) = true → v.getLsbD 63 = false ∨ getBits v 31 0 ≤ s.dev.get (R.FAB_FENCE_EPOCH n.toNat) →
        Becomes (.fenceWrite n v) s (s.dev.reply 0)) ∧
      (s.dev.has (R.FAB_FENCE_VALID n.toNat) = false ∨ v.getLsbD 63 = true ∧ s.dev.get (R.FAB_FENCE_EPOCH n.toNat) < getBits v 31 0 →
        ∀ d : Dev, d = (s.dev.set (R.FAB_FENCE_VALID n.toNat) (b2n (v.getLsbD 63))).set (R.FAB_FENCE_EPOCH n.toNat) (getBits v 31 0) →
        (v.getLsbD 63 = true → Becomes (.fenceWrite n v) s ((d.xptFence n.toNat).settle.reply 0)) ∧
        (v.getLsbD 63 = false → Becomes (.fenceWrite n v) s (d.reply 0))))) ∧
  (∀ s : State, s.Live →
    (s.dev.expired .lease = false → Becomes .leaseExpiry s s.dev) ∧
    (s.dev.expired .lease = true → ∀ d : Dev, d = (s.dev.disarm .lease).set R.LGR_LEASE_ACTIVE 0 →
      (d.has R.LGR_STATUS_SELF_FENCED = true → Becomes .leaseExpiry s d) ∧
      (d.has R.LGR_STATUS_SELF_FENCED = false → ∀ x y : Dev,
        x = (d.set R.LGR_STATUS_SELF_FENCED 1).set R.LGR_LEASE_FENCE_EPOCH (max (d.get R.FAB_NODE_ID_ADMIT_EPOCH) ((d.set R.LGR_STATUS_SELF_FENCED 1).get R.LGR_LEASE_FENCE_EPOCH)) →
        y = ((((x.xpt.qps.filter (fun e => e.2.st = 1 && e.2.setup.peerNode != x.node)).map (·.1)).foldl (fun d q => d.qpError q 0x0502) x)).settle →
        Becomes .leaseExpiry s ((y.loadedFns.filter (fun e => y.fnState e.1 != 1)).foldl (fun d e => d.killWrite e.1) y)))) ∧
  (∀ (s : State) (p : PortId), s.Works →
    (s.dev.gfUp p.val = false ∨ s.dev.expired (.heartbeatSend p.val) = false → Becomes (.heartbeatSend p) s s.dev) ∧
    (s.dev.gfUp p.val = true → s.dev.expired (.heartbeatSend p.val) = true → ∀ d : Dev, d = s.dev.arm (.heartbeatSend p.val) 8000000 →
      (d.node = 0xFFF → Becomes (.heartbeatSend p) s d) ∧
      (d.node ≠ 0xFFF → Becomes (.heartbeatSend p) s (d.sendTime p.val ([0x20, BitVec.ofNat 8 (d.get R.LGR_STATUS_SELF_FENCED)] ++ List.replicate 6 0 ++
        timeField d.tim.ft.toNat ++ List.replicate 10 0 ++ le 4 (d.get R.FAB_NODE_ID_ADMIT_EPOCH))))) ∧
    (∀ d, s.dev.takeTim 0x20 = (none, d) → Becomes .heartbeat s d) ∧
    (∀ m d x, s.dev.takeTim 0x20 = (some m, d) → x = ((d.set (R.LGR_NBR_ADMIT_EPOCH m.port) (fld m.payload 0x1C 4)).set (R.LGR_NBR_NODE m.port) m.src).set
        (R.LGR_NBR_SELF_FENCED m.port) (fld m.payload 1 1 % 2) →
      Becomes .heartbeat s (((x.set (R.LGR_NBR_SILENT m.port) 0).set (R.LGR_NBR_HEARD m.port) 1).arm (.heartbeat m.port) 32000000)) ∧
    (s.dev.gfUp p.val = false ∨ s.dev.expired (.heartbeat p.val) = false → Becomes (.neighbourSilent p) s s.dev) ∧
    (s.dev.gfUp p.val = true → s.dev.expired (.heartbeat p.val) = true →
      Becomes (.neighbourSilent p) s ((s.dev.disarm (.heartbeat p.val)).set (R.LGR_NBR_SILENT p.val) 1)))

/-- A recovery record with a good signature is accepted where its RSN is above LGR_RSN and fewer than 16 records wait: LGR_RSN becomes its RSN and it joins the queue. A repeated RSN
repeats the statuses of its record, any other RSN is 0x0536, a full queue 0x0601, a malformed record 0x0138; a bad signature is counted and dropped; a live update holds
the datagram (R15, R16, R475, R483, R485, R507, R509). The actions of the record at the head of the queue run in order: FENCE raises a node's fence or fences this node, ADMIT sets the epoch, clears the fenced state and starts the
lease unless its epoch is too low (0x0518), LEASE renews it unless fenced or of another epoch (0x0502), KILL and START wait for their tick and MEMBERSHIP stages. A command whose action
is not the next one does nothing (R480, R481, R484, R485). An action that has ended adds its status to its record and a trace event to the ring; a record with a failing status or none left to run leaves the queue and is answered with its
status and one status per action, 0 for those that did not run (R478, R483, R485). -/
def Obligations.RecoveryRecordsRun : Prop :=
  (∀ (s : State) (b : Bytes) (to_ : Sender) (body : Bytes) (rsn n : Nat) (acts : List Action), s.Live → body = b.take (b.length - 64) → rsn = fld body 8 8 → n = fld body 6 2 →
    acts = (List.range n).map (actionOf body) →
    (s.dev.get R.MGT_FW_STATUS_STATE = 3 → Becomes (.recoveryRecord b to_) s { s.dev with mgt := { s.dev.mgt with heldNet := s.dev.mgt.heldNet ++ [(b, to_)] } }) ∧
    (s.dev.get R.MGT_FW_STATUS_STATE ≠ 3 →
      (s.dev.recSigned b = false → Becomes (.recoveryRecord b to_) s (s.dev.inc R.MGT_STATUS_NET_BAD)) ∧
      (s.dev.recSigned b = true →
        (s.dev.recCheck body ≠ 0 → 8 ≤ body.length → n ≤ 64 → Becomes (.recoveryRecord b to_) s (s.dev.sendReply (.net to_) (s.dev.recCheck body) rsn n [])) ∧
        (s.dev.recCheck body = 0 →
          (∀ r, rsn ∈ s.dev.lgr.accepted → s.dev.lgr.replies.find? (fun r => r.rsn = rsn) = some r →
            Becomes (.recoveryRecord b to_) s (s.dev.sendReply (.net to_) r.status rsn r.count r.stats)) ∧
          (rsn ∉ s.dev.lgr.accepted → rsn ≤ (s.dev.word R.LGR_RSN).toNat → Becomes (.recoveryRecord b to_) s (s.dev.sendReply (.net to_) 0x0536 rsn n [])) ∧
          (rsn ∉ s.dev.lgr.accepted → (s.dev.word R.LGR_RSN).toNat < rsn → 16 ≤ s.dev.lgr.queue.length →
            Becomes (.recoveryRecord b to_) s (s.dev.sendReply (.net to_) 0x0601 rsn n [])) ∧
          (rsn ∉ s.dev.lgr.accepted → (s.dev.word R.LGR_RSN).toNat < rsn → s.dev.lgr.queue.length < 16 → Becomes (.recoveryRecord b to_) s
            (((({ s.dev with lgr := { s.dev.lgr with queue := s.dev.lgr.queue ++ [⟨rsn, acts, [], false, [.net to_]⟩], accepted := (rsn :: s.dev.lgr.accepted).take 64 } } : Dev).setW
              R.LGR_RSN rsn).recSettle 17)))))) ∧
    ((s.dev.fatal = true → s.dev.recCheck body = 0x0F04) ∧
      (s.dev.fatal = false →
        (body.length < 32 ∨ body.take 4 ≠ [0x47, 0x4C, 0x52, 0x52] ∨ fld body 4 2 ≠ 1 → s.dev.recCheck body = 0x0138) ∧
        (32 ≤ body.length → body.take 4 = [0x47, 0x4C, 0x52, 0x52] → fld body 4 2 = 1 →
          (n = 0xFFFF → s.dev.recCheck body = 0x0202) ∧ (64 < n → n < 0xFFFF → s.dev.recCheck body = 0x0201) ∧
          (n ≤ 64 → body.length ≠ 32 + 32 * n ∨ allZero (slice body 0x10 16) = false ∨ (∃ a ∈ acts, a.wf = false) → s.dev.recCheck body = 0x0138) ∧
          (n ≤ 64 → body.length = 32 + 32 * n → allZero (slice body 0x10 16) = true → (∀ a ∈ acts, a.wf = true) → s.dev.recCheck body = 0))))) ∧
  (∀ (s : State) (r : RecoveryRec) (rest : List RecoveryRec) (a : Action) (d : Dev) (wait : Dev → Dev), s.Works → s.dev.get R.MGT_FW_STATUS_STATE ≠ 3 → d = s.dev →
    d.lgr.queue = r :: rest → r.waiting = false → r.actions[r.stats.length]? = some a →
    (∀ x, wait x = { x with lgr := { x.lgr with queue := { r with waiting := true } :: rest } }) →
    (∀ c k, (c, k) ∈ [(Instr.recoveryFence, 1), (.admitNode, 2), (.lease, 3), (.recoveryKill, 4), (.recoveryStart, 5), (.membership, 6)] → a.code ≠ k → Becomes c s d) ∧
    (a.code = 1 →
      (a.node ≠ d.node → Becomes .recoveryFence s ((d.fence a.node true a.epoch).actionEnd 0)) ∧
      (a.node = d.node → a.epoch < d.get R.FAB_NODE_ID_ADMIT_EPOCH → Becomes .recoveryFence s (d.actionEnd 0)) ∧
      (a.node = d.node → d.get R.FAB_NODE_ID_ADMIT_EPOCH ≤ a.epoch → Becomes .recoveryFence s ((d.selfFence a.epoch).actionEnd 0))) ∧
    (a.code = 2 →
      (a.epoch ≤ d.get R.LGR_LEASE_FENCE_EPOCH ∨ a.epoch < d.get R.FAB_NODE_ID_ADMIT_EPOCH → Becomes .admitNode s (d.actionEnd 0x0518)) ∧
      (d.get R.LGR_LEASE_FENCE_EPOCH < a.epoch → d.get R.FAB_NODE_ID_ADMIT_EPOCH ≤ a.epoch → Becomes .admitNode s
        ((((((d.set R.FAB_NODE_ID_ADMIT_EPOCH a.epoch).set R.LGR_LEASE_FENCE_EPOCH 0).set R.LGR_STATUS_SELF_FENCED 0).set R.LGR_STATUS_ADMITTED 1).set R.LGR_LEASE_ACTIVE 1).arm .lease
          16000000000 |>.actionEnd 0))) ∧
    (a.code = 3 →
      (a.epoch ≠ d.get R.FAB_NODE_ID_ADMIT_EPOCH ∨ d.has R.LGR_STATUS_SELF_FENCED = true → Becomes .lease s (d.actionEnd 0x0502)) ∧
      (a.epoch = d.get R.FAB_NODE_ID_ADMIT_EPOCH → d.has R.LGR_STATUS_SELF_FENCED = false → d.has R.LGR_LEASE_ACTIVE = true →
        Becomes .lease s ((d.arm .lease 16000000000).actionEnd 0))) ∧
    (a.code = 4 →
      (d.loaded a.fn = false → Becomes .recoveryKill s (d.actionEnd 0x0514)) ∧
      (d.loaded a.fn = true → d.fnState a.fn = 1 → Becomes .recoveryKill s (d.actionEnd 0)) ∧
      (d.loaded a.fn = true → d.fnState a.fn ≠ 1 → Becomes .recoveryKill s (wait (d.modFn a.fn (fun r => { r with
        pendKill := true
        pendStop := false }))))) ∧
    (a.code = 5 → ∀ x : Dev, x = (((d.set (R.SEQ_FN_FROM_USE a.fn) (a.arg0 / 2 ^ 63)).set (R.SEQ_FN_FROM_RECORD a.fn) (a.arg0 % 2 ^ 48)).setW (R.SEQ_FN_START_AT a.fn) a.arg1).set
        (R.SEQ_FN_CTRL_CMD a.fn) 1 →
      (∀ st, x.startCheck a.fn a.arg1 (a.arg0.testBit 63) (a.arg0 % 2 ^ 48) = st → st ≠ 0 → Becomes .recoveryStart s ((x.fnDone a.fn st).actionEnd st)) ∧
      (x.startCheck a.fn a.arg1 (a.arg0.testBit 63) (a.arg0 % 2 ^ 48) = 0 → Becomes .recoveryStart s (wait ((x.modFn a.fn (fun r => { r with
        pendStart := some (a.arg1, (x.resumePoint a.fn (a.arg0.testBit 63) (a.arg0 % 2 ^ 48)).1)
        pendUse := a.arg0.testBit 63 })).setFnState a.fn 2)))) ∧
    (a.code = 6 → ∀ same : Memb → Bool, same = (fun m => m.epoch == a.epoch && m.steep == a.arg0 && m.consumers == a.arg2) →
      ((d.fn a.fn).staged.any same = true ∨ (d.fn a.fn).memb.any same = true → Becomes .membership s (d.actionEnd 0)) ∧
      (∀ st x, (d.fn a.fn).staged.any same = false → (d.fn a.fn).memb.any same = false → a.arg2 < 0xFFFF → d.stageMemb a.fn a.epoch a.arg0 a.arg1 a.arg2 = (st, x) →
        Becomes .membership s (x.actionEnd st)))) ∧
  (∀ (d : Dev) (r : RecoveryRec) (rest : List RecoveryRec) (a : Action) (st : Status), d.lgr.queue = r :: rest → r.actions[r.stats.length]? = some a →
    d.actionEnd st = ((({ d with lgr := { d.lgr with queue := { r with
      stats := r.stats ++ [st]
      waiting := false } :: rest } } : Dev).trace 3 (if a.code < 4 then 0xFF else a.fn) 13 st r.rsn a.code).recSettle 17) ∧
    (∀ n, r.stats.length ≠ r.actions.length → (∀ x ∈ r.stats, x = 0) → d.recSettle n = d) ∧
    (∀ n, r.stats.length = r.actions.length ∨ (∃ x ∈ r.stats, x ≠ 0) → ∀ l, l = (List.range r.actions.length).map (fun i => r.stats.getD i 0) →
      d.recSettle (n + 1) = ((r.replyTo.foldl (fun d x => d.sendReply x (firstBad r.stats) r.rsn r.actions.length l)
        ({ d with lgr := { d.lgr with
          queue := rest
          replies := ((⟨r.rsn, firstBad r.stats, l, r.actions.length⟩ : RecoveryReply) :: d.lgr.replies).take 64 } } : Dev)).recSettle n)))

/-! ## Management, the host, firmware and security -/

/-- The target of a pending source is one that its TARGETS name, that is enabled, whose CURRENT is below its priority and that has received nothing in this cycle; among those it has the
lowest CURRENT, and is the first at or after the rotation pointer. A delivery clears PENDING and COUNT, puts the source in service and moves the pointer behind the target; a source
without a target stays pending. Host-pending sources are then sent, each once while it is in service at the host (R494 to R497). A write to EOI ends the service of that source at that target and of no other; a write of 1 to PEND makes the source pending, and host-pending where HOST is 1; a write to
MGT_HOST_EOI ends host service and samples the signals again (R493, R495, R496). A watchdog expiry is counted and raised; a second one of a core within 1 s is a fatal cause; a live update suspends watchdogs. A management port's change of link state is raised,
and a report of the state it has does nothing (R490, R509). -/
def Obligations.InterruptsAndWatchdogs : Prop :=
  (∀ (s : State) (d : Dev), s.Live → d = s.dev →
    (∀ (x : Nat) (used : List Nat) (el : Nat → Prop), d.irq.rot < 16 →
      (∀ t, el t ↔ t < 16 ∧ (d.get (R.INT_SRC_CTRL_TARGETS x)).testBit t = true ∧ d.has (R.INT_TGT_CTRL_ENABLE t) = true ∧ d.current t < d.srcPrio x ∧ t ∉ used) →
      (d.pickTarget x used = none ↔ ∀ t, ¬ el t) ∧
      (∀ t, d.pickTarget x used = some t → el t ∧ ∀ u, el u → d.current t ≤ d.current u ∧ (d.current u = d.current t → (t + 16 - d.irq.rot) % 16 ≤ (u + 16 - d.irq.rot) % 16))) ∧
    (∀ x, d.irq.pend = [x] → 0 < d.srcPrio x → d.irq.inService x = false → d.irq.hostPend = [] →
      (d.pickTarget x [] = none → Becomes .interruptDelivery s d) ∧
      (∀ t, d.pickTarget x [] = some t → Becomes .interruptDelivery s { d with irq := { d.irq with
        pend := []
        count := Map.erase d.irq.count x
        service := d.irq.service ++ [(x, t)]
        rot := (t + 1) % 16 } })) ∧
    (d.irq.pend = [] → d.mgt.hostUp = false → d.mgt.relayPort = none → Becomes .interruptDelivery s d) ∧
    (∀ x, d.irq.pend = [] → d.mgt.hostUp = true → d.irq.hostPend = [x] → x ∉ d.irq.hostService → ∀ e : Dev,
      e = { d with irq := { d.irq with hostPend := [], hostService := insNat x d.irq.hostService } } → Becomes .interruptDelivery s (e.emit (.host (e.hostIntTxn x))))) ∧
  (∀ (s : State) (t : Fin 16) (x : BitVec 10), s.Live →
    Becomes (.intEoi t x) s (({ s.dev with irq := { s.dev.irq with service := s.dev.irq.service.filter (fun e => e ≠ (x.toNat, t.val)) } } : Dev).reply 0) ∧
    (x.toNat ∉ s.dev.irq.pend → s.dev.has (R.INT_SRC_CTRL_HOST x.toNat) = false →
      Becomes (.intPendWrite x) s (((({ s.dev with irq := { s.dev.irq with pend := insNat x.toNat s.dev.irq.pend } } : Dev).trace 1 0xFF (sourceBlock x.toNat) 0 x.toNat 0)).reply 0)) ∧
    (x.toNat ∉ s.dev.irq.pend → s.dev.has (R.INT_SRC_CTRL_HOST x.toNat) = true → x.toNat ∉ s.dev.irq.hostPend →
      Becomes (.intPendWrite x) s (((({ s.dev with irq := { s.dev.irq with
        pend := insNat x.toNat s.dev.irq.pend
        hostPend := s.dev.irq.hostPend ++ [x.toNat] } } : Dev).trace 1 0xFF (sourceBlock x.toNat) 0 x.toNat 0)).reply 0)) ∧
    (x.toNat ∈ s.dev.irq.pend → s.dev.has (R.INT_SRC_CTRL_HOST x.toNat) = false → Becomes (.intPendWrite x) s (s.dev.reply 0)) ∧
    Becomes (.hostEoi x) s ((((({ s.dev with irq := { s.dev.irq with hostService := s.dev.irq.hostService.filter (· != x.toNat) } } : Dev).sample).sendHostInts)).reply 0)) ∧
  (∀ (s : State) (c : Fin 16) (p : Fin 2), s.Live →
    (s.dev.get R.MGT_FW_STATUS_STATE = 3 → Becomes (.watchdogExpiry c) s s.dev) ∧
    (s.dev.get R.MGT_FW_STATUS_STATE ≠ 3 → ∀ d : Dev, d = ((s.dev.inc R.MGT_STATUS_WDT_EXPIRED).raise 16 c.val).arm (.watchdogAgain c.val) 8000000000 →
      (s.dev.armed (.watchdogAgain c.val) = false ∨ s.dev.expired (.watchdogAgain c.val) = true → Becomes (.watchdogExpiry c) s d) ∧
      (s.dev.armed (.watchdogAgain c.val) = true → s.dev.expired (.watchdogAgain c.val) = false → Becomes (.watchdogExpiry c) s (d.goFatal 0x0F05))) ∧
    (p.val ∈ s.dev.mgt.netUp → Becomes (.mgtNetLink p true) s s.dev ∧
      Becomes (.mgtNetLink p false) s (({ s.dev with mgt := { s.dev.mgt with netUp := s.dev.mgt.netUp.filter (· != p.val) } } : Dev).raise 19 p.val)) ∧
    (p.val ∉ s.dev.mgt.netUp → Becomes (.mgtNetLink p false) s s.dev ∧
      Becomes (.mgtNetLink p true) s (({ s.dev with mgt := { s.dev.mgt with netUp := insNat p.val s.dev.mgt.netUp } } : Dev).raise 19 p.val)))

/-- The host link enters UP on adapter port p: the device takes index 8p, opens the relay slots whose ports are UP at its first index, and sends what is held. It enters DOWN: the
completions not yet sent and the requests held in a handover are lost. A relayed device takes its index from the first RELAY_OPEN and counts any other; MGT_RELAY_TABLE refuses
a VALID slot that names no GF port with RELAY (R46, R47, R499, R501, R502). A request of the host link for this device is carried out and completed in arrival order: window reads and writes, memory reads and writes outside the loaded functions' regions, reads
of the dump below its LENGTH, and recovery records. The first check of R500 that fails gives its status: the kind 0x0116, the length 0x0202, 0x0201 or 0x0103, the address 0x0104,
0x0103, 0x0404, 0x0402 or 0x0201 (R500, R501, R503, R510). A request with an index of another device goes on unchanged through the usable slot that its index names, and completes with 0x0104 where there is none; one while the link is down is
not taken. A request at the head of the relay inbox is taken as one of the link where it came in on the relay port of a device whose own link is down. A handover holds window
accesses and records, and all that follow them (R502, R507). -/
def Obligations.HostRequestsRun : Prop :=
  (∀ (s : State) (p : Fin 8) (v : Word), s.Live →
    (s.dev.mgt.hostUp = true → Becomes (.hostLinkUp p) s s.dev) ∧
    (s.dev.mgt.hostUp = false → ∀ d : Dev, d = ((((({ s.dev with mgt := { s.dev.mgt with hostUp := true, relayPort := none } } : Dev).set R.MGT_HOST_INDEX (8 * p.val)).set
        R.MGT_HOST_VALID 1).set R.MGT_HOST_RELAYED 0).set R.MGT_HOST_LINK 1).raise 17 0 →
      (s.dev.has R.MGT_HOST_VALID = true → s.dev.has R.MGT_HOST_RELAYED = false → Becomes (.hostLinkUp p) s d.hostReturns) ∧
      (s.dev.has R.MGT_HOST_VALID = false ∨ s.dev.has R.MGT_HOST_RELAYED = true → Becomes (.hostLinkUp p) s d.openRelays.hostReturns)) ∧
    (s.dev.mgt.hostUp = false → Becomes .hostLinkDown s s.dev) ∧
    (s.dev.mgt.hostUp = true → Becomes .hostLinkDown s
      ((({ s.dev with mgt := { s.dev.mgt with hostUp := false, heldReqs := [], completions := [] } } : Dev).set R.MGT_HOST_LINK 0).raise 17 0)) ∧
    (s.dev.fab.relayRx = [] → Becomes .relayOpen s s.dev) ∧
    (∀ q t r, s.dev.fab.relayRx = (q, t) :: r →
      (t.kind ≠ 9 → Becomes .relayOpen s s.dev) ∧
      (t.kind = 9 → ∀ d : Dev, d = { s.dev with fab := { s.dev.fab with relayRx := r } } →
        (d.mgt.hostUp = true ∨ d.mgt.relayPort ≠ none → Becomes .relayOpen s (d.inc R.MGT_STATUS_RELAY_IGNORED)) ∧
        (d.mgt.hostUp = false → d.mgt.relayPort = none → Becomes .relayOpen s ((((((({ d with mgt := { d.mgt with relayPort := some q } } : Dev).set R.MGT_HOST_INDEX
          (t.arg.toNat % 64)).set R.MGT_HOST_VALID 1).set R.MGT_HOST_RELAYED 1).set R.MGT_HOST_LINK 1)).hostReturns))) ∧
    (∀ w, w = v.toNat % 2 ^ 63 →
      ((∃ i, i < 7 ∧ w.testBit (56 + i) = true ∧ (s.dev.isGf (bits w (8 * i + 7) (8 * i)) = false ∨ (s.dev.link (bits w (8 * i + 7) (8 * i))).relay = false)) →
        Becomes (.relayTableWrite v) s ((s.dev.set R.MGT_HOST_STATUS 0x0104).reply 0)) ∧
      ((∀ i, i < 7 → w.testBit (56 + i) = true → s.dev.isGf (bits w (8 * i + 7) (8 * i)) = true ∧ (s.dev.link (bits w (8 * i + 7) (8 * i))).relay = true) → ∀ d : Dev,
        d = (s.dev.setW R.MGT_RELAY_TABLE w).set R.MGT_HOST_STATUS 0 →
        (d.has R.MGT_HOST_VALID = false ∨ d.has R.MGT_HOST_RELAYED = true → Becomes (.relayTableWrite v) s (d.reply 0)) ∧
        (d.has R.MGT_HOST_VALID = true → d.has R.MGT_HOST_RELAYED = false → (∀ i, i < 7 → w.testBit (56 + i) = true → (s.dev.word R.MGT_RELAY_TABLE).toNat.testBit (56 + i) = true) →
          Becomes (.relayTableWrite v) s (d.reply 0)))))) ∧
  (∀ (s : State) (t : Txn) (a n : Nat) (fin : Dev → Status → Bytes → Dev), s.Live → s.dev.mgt.hostUp = true → t.index.toNat = s.dev.get R.MGT_HOST_INDEX → t.index.toNat < 64 →
    s.dev.get R.MGT_FW_STATUS_STATE ≠ 3 → a = t.addr.toNat → n = t.len.toNat → (∀ d st b, fin d st b = (d.complete t st b).settle) →
    (t.rsv = true ∨ t.kind = 0 ∨ 6 < t.kind.toNat → Becomes (.hostOpInvalid (.link t)) s (fin s.dev 0x0116 [])) ∧
    (t.rsv = false → ∀ c k, (c, k) ∈ [(Instr.regRead (.link t), 1), (.regWrite (.link t), 2), (.memRead (.link t), 3), (.memWrite (.link t), 4), (.dumpRead (.link t), 5),
        (.record (.link t), 6)] → t.kind.toNat = k →
      (n = 2 ^ 32 - 1 → Becomes c s (fin s.dev 0x0202 [])) ∧ (4096 < n → n < 2 ^ 32 - 1 → Becomes c s (fin s.dev 0x0201 [])) ∧
      (n = 0 → Becomes c s (fin s.dev 0 [])) ∧
      (k ≤ 2 → 0 < n → n ≤ 4096 → n ≠ 8 → Becomes c s (fin s.dev 0x0103 [])) ∧
      (k ≤ 2 → n = 8 → 0x10000 ≤ a → Becomes c s (fin s.dev 0x0104 [])) ∧
      (k ≤ 2 → n = 8 → a < 0x10000 → a % 8 ≠ 0 → Becomes c s (fin s.dev 0x0103 [])) ∧
      (k ≤ 2 → n = 8 → a < 0x10000 → a % 8 = 0 →
        (s.dev.hrwTarget a = none → k = 1 → Becomes c s (fin s.dev 0 [0, 0, 0, 0, 0, 0, 0, 0])) ∧
        (s.dev.hrwTarget a = none → k = 2 → Becomes c s (fin s.dev 0 [])) ∧
        (∀ o, s.dev.hrwTarget a = some o → k = 1 → Becomes c s (fin (s.dev.ctlRead o).2 0 (le 8 (s.dev.ctlRead o).1.toNat))) ∧
        (∀ o, s.dev.hrwTarget a = some o → k = 2 → Becomes c s (fin (s.dev.ctlWrite o (BitVec.ofNat 64 (fld t.payload 0 8))) 0 []))) ∧
      (k = 3 ∨ k = 4 → 0 < n → n ≤ 4096 → n % 8 = 0 →
        (s.dev.memStatus a n ≠ 0 → Becomes c s (fin s.dev (s.dev.memStatus a n) [])) ∧
        (s.dev.memStatus a n = 0 → k = 3 → Becomes c s (fin s.dev 0 (s.dev.read a n))) ∧
        (s.dev.memStatus a n = 0 → k = 4 → Becomes c s (fin (s.dev.write a (slice t.payload 0 n)) 0 []))) ∧
      (k = 5 → 0 < n → n ≤ 4096 → n % 8 = 0 →
        (s.dev.get R.LGR_DUMP_LENGTH < a + n → Becomes c s (fin s.dev 0x0201 [])) ∧
        (a + n ≤ s.dev.get R.LGR_DUMP_LENGTH → Becomes c s (fin s.dev 0 (s.dev.read (0x9FC0000000 + a) n)))) ∧
      (k = 6 → 0 < n → n ≤ 4096 → ∀ b, b = slice t.payload 0 n →
        (s.dev.recSigned b = false → Becomes c s (fin s.dev 0x0710 [])) ∧
        (s.dev.recSigned b = true → Becomes c s ((({ s.dev with mgt := { s.dev.mgt with completions := s.dev.mgt.completions ++ [t] } } : Dev).recTake (b.take (b.length - 64))
          (.host t (.link t))).settle)))) ∧
    (∀ st b, s.dev.mgt.completions = [] → s.dev.complete t st b = s.dev.emit (.host ⟨7, t.index, t.tag, st, false, 0, BitVec.ofNat 32 b.length, 0, b⟩)) ∧
    (0x9DC0000000 < a + n →
      (a + n ≤ 0xA000000000 → a < 0xA000000000 → s.dev.memStatus a n = 0x0404) ∧ (0xA000000000 ≤ a → s.dev.memStatus a n = 0x0104)) ∧
    (a + n ≤ 0x9DC0000000 → (s.dev.inRegion a n = true → s.dev.memStatus a n = 0x0402) ∧ (s.dev.inRegion a n = false → s.dev.memStatus a n = 0))) ∧
  (∀ (s : State) (t : Txn) (k : Nat) (c : HostSrc → Instr), s.Live → t.rsv = false → t.index.toNat < 64 → t.kind.toNat = k →
    (c, k) ∈ [((Instr.regRead : HostSrc → Instr), 1), (.regWrite, 2), (.memRead, 3), (.memWrite, 4), (.dumpRead, 5), (.record, 6)] →
    (s.dev.mgt.hostUp = false → Becomes (c (.link t)) s s.dev.settle) ∧
    (s.dev.mgt.hostUp = true → t.index.toNat ≠ s.dev.get R.MGT_HOST_INDEX →
      (s.dev.relayTo t.index.toNat = none → Becomes (c (.link t)) s (s.dev.complete t 0x0104 []).settle) ∧
      (∀ p, s.dev.relayTo t.index.toNat = some p → Becomes (c (.link t)) s (s.dev.sendRelay p t).settle)) ∧
    (s.dev.mgt.hostUp = true → t.index.toNat = s.dev.get R.MGT_HOST_INDEX → s.dev.get R.MGT_FW_STATUS_STATE = 3 → s.dev.heldKind t = true ∨ s.dev.mgt.heldReqs ≠ [] →
      Becomes (c (.link t)) s ({ s.dev with mgt := { s.dev.mgt with heldReqs := s.dev.mgt.heldReqs ++ [(.link t, t)] } } : Dev).settle) ∧
    (∀ p r, s.dev.fab.relayRx = (p, t) :: r → ∀ d : Dev, d = { s.dev with fab := { s.dev.fab with relayRx := r } } →
      (d.mgt.hostUp = true ∨ d.mgt.relayPort ≠ some p → Becomes (c .relay) s d.settle) ∧
      (d.mgt.hostUp = false → d.mgt.relayPort = some p → Becomes (c .relay) s (d.hostTake t .relay).settle)))

/-- A firmware operation is checked for a fatal cause (0x0F04), for one under way (0x0510) and then for its own conditions; one that passes empties the inactive slot and writes it, prepares
a live update or names the next slot. An operation given while a record is being written waits for it (R506, R520). WRITE_SLOT ends with its image in the inactive slot and MGT_FW_VERSION_1 its version, or with 0x0710 and the slot empty. PREPARING ends in a handover, at once where ticks do not run.
A handover ends with the slots and versions swapped and what it held carried out in order; a bad handover record is a fatal cause (R505 to R508). -/
def Obligations.FirmwareIsUpdated : Prop :=
  (∀ (s : State) (c : Instr) (op len : Nat) (lw : BitVec 32) (o : FwOp) (d : Dev), s.Live →
    (c, op, len) ∈ [(Instr.writeSlot lw, 1, lw.toNat), (.update, 2, s.dev.get R.MGT_FW_CTRL_LEN), (.select, 3, s.dev.get R.MGT_FW_CTRL_LEN),
      (.fwOpInvalid, 0, s.dev.get R.MGT_FW_CTRL_LEN)] →
    d = (s.dev.set R.MGT_FW_CTRL_OP op).set R.MGT_FW_CTRL_LEN len → o = ⟨op, len, 4096 * d.get R.MGT_FW_SRC_SRC, false⟩ → d.mgt.fwWait = false →
    (d.has R.SEC_REC_STATUS_BUSY = true → Becomes c s (({ d with mgt := { d.mgt with fw := some o, fwWait := true } } : Dev).reply 0)) ∧
    (d.has R.SEC_REC_STATUS_BUSY = false →
      (d.fatal = true → Becomes c s (((d.set R.MGT_FW_STATUS_STATUS 0x0F04).set R.MGT_FW_STATUS_DONE 1).reply 0)) ∧
      (d.fatal = false → d.get R.MGT_FW_STATUS_STATE ≠ 0 → Becomes c s (((d.set R.MGT_FW_STATUS_STATUS 0x0510).set R.MGT_FW_STATUS_DONE 1).reply 0)) ∧
      (d.fatal = false → d.get R.MGT_FW_STATUS_STATE = 0 →
        (op = 0 → Becomes c s ((d.fwEnd 0x0116).reply 0)) ∧
        (∀ st, op = 1 → d.writeSlotCheck len o.src = st → st ≠ 0 ∨ len = 0 → Becomes c s ((d.fwEnd st).reply 0)) ∧
        (op = 1 → len ≠ 0 → d.writeSlotCheck len o.src = 0 → ∀ x : Dev, x = d.setSlot (1 - d.runSlot) ⟨[], false⟩ →
          Becomes c s (((({ x with mgt := { x.mgt with fw := some o } } : Dev).setW (R.MGT_FW_VERSION 1) 0).set R.MGT_FW_STATUS_STATE 1).reply 0)) ∧
        (∀ st, op = 2 → d.updateCheck = st → st ≠ 0 → Becomes c s ((d.fwEnd st).reply 0)) ∧
        (op = 2 → d.updateCheck = 0 → Becomes c s ((({ d with mgt := { d.mgt with fw := some o } } : Dev).set R.MGT_FW_STATUS_STATE 2).reply 0)) ∧
        (op = 3 → (d.slotOf (1 - d.runSlot)).verified = false → Becomes c s ((d.fwEnd 0x0710).reply 0)) ∧
        (op = 3 → (d.slotOf (1 - d.runSlot)).verified = true →
          Becomes c s ((((({ d with mgt := { d.mgt with slotSelect := 1 - d.runSlot } } : Dev).set R.MGT_FW_STATUS_NEXT_SLOT (1 - d.runSlot))).fwEnd 0).reply 0)))) ∧
    (∀ (e : Dev) (l a : Nat),
      (l = 2 ^ 32 - 1 → e.writeSlotCheck l a = 0x0202) ∧ (0x1C000000 < l → l ≠ 2 ^ 32 - 1 → e.writeSlotCheck l a = 0x0201) ∧
      (0 < l → l ≤ 0x1C000000 → 0xA000000000 ≤ a → a < 0x800000000000 → e.writeSlotCheck l a = 0x0104) ∧
      (0 < l → l ≤ 0x1C000000 → a + l ≤ 0x9DC0000000 →
        (fwSigned e.sec.rootKey (e.read a l) = false → e.writeSlotCheck l a = 0x0710) ∧
        (fwSigned e.sec.rootKey (e.read a l) = true → fwVersion (e.read a l) < e.minVersion → e.writeSlotCheck l a = 0x0117) ∧
        (fwSigned e.sec.rootKey (e.read a l) = true → e.minVersion ≤ fwVersion (e.read a l) → e.writeSlotCheck l a = 0)))) ∧
  (∀ (s : State) (ok : Bool) (o : FwOp), s.Live →
    (s.dev.get R.MGT_FW_STATUS_STATE = 1 → s.dev.mgt.fw = some o → ∀ b, b = s.dev.read o.src o.len →
      (ok = true → fwVerified s.dev.sec.rootKey b = true →
        Becomes (.writeSlotComplete ok) s (((s.dev.setSlot (1 - s.dev.runSlot) ⟨b, true⟩).setW (R.MGT_FW_VERSION 1) (fwVersion b)).fwEnd 0)) ∧
      (ok = false ∨ fwVerified s.dev.sec.rootKey b = false → Becomes (.writeSlotComplete ok) s (s.dev.fwEnd 0x0710))) ∧
    (s.dev.get R.MGT_FW_STATUS_STATE ≠ 1 → Becomes (.writeSlotComplete ok) s s.dev) ∧
    (s.dev.get R.MGT_FW_STATUS_STATE = 2 → s.dev.mgt.fw = some o → ∀ d : Dev, d = { s.dev with mgt := { s.dev.mgt with fw := some { o with prepared := true } } } →
      (d.has R.SEQ_TICK_CTRL_RUNNING = true → Becomes .updatePreparingEnd s d) ∧
      (d.has R.SEQ_TICK_CTRL_RUNNING = false → Becomes .updatePreparingEnd s (d.set R.MGT_FW_STATUS_STATE 3))) ∧
    (s.dev.get R.MGT_FW_STATUS_STATE ≠ 2 → Becomes .updatePreparingEnd s s.dev) ∧
    (s.dev.get R.MGT_FW_STATUS_STATE ≠ 3 → Becomes (.handoverComplete ok) s s.dev.settle) ∧
    (s.dev.get R.MGT_FW_STATUS_STATE = 3 → ∀ (d : Dev) (n : Nat), d = { s.dev with mgt := { s.dev.mgt with heldNet := [], heldReqs := [] } } → n = 1 - d.runSlot →
      (ok = false → Becomes (.handoverComplete ok) s ((({ d with mgt := { d.mgt with fw := none } } : Dev).set R.MGT_FW_STATUS_STATE 0).goFatal 0x0F05).settle) ∧
      (ok = true → s.dev.mgt.heldNet = [] → ∀ x : Dev, x = d.set R.MGT_FW_STATUS_RUNNING_SLOT n →
        Becomes (.handoverComplete ok) s (s.dev.mgt.heldReqs.foldl (fun d e => d.hostTake e.2 e.1)
          ((((({ x with mgt := { x.mgt with slotSelect := n } } : Dev).set R.MGT_FW_STATUS_NEXT_SLOT n).setWord (R.MGT_FW_VERSION 0) (d.word (R.MGT_FW_VERSION 1))).setWord
            (R.MGT_FW_VERSION 1) (d.word (R.MGT_FW_VERSION 0))).fwEnd 0)).settle)) ∧
    (∀ (d x : Dev) (st : Status), x = { d with mgt := { d.mgt with fw := none } } →
      d.fwEnd st = ((x.set R.MGT_FW_STATUS_STATE 0).set R.MGT_FW_STATUS_STATUS st.toNat).set R.MGT_FW_STATUS_DONE 1))

/-- A record write that is BUSY rejects a GO. A record is checked in order and refused with the status of the first check that fails; one that passes erases the copy that does not hold the
record in force and is BUSY. Written and read back it is in force: an OWNER record's key at once, a MIN_VERSION's value at once; where reading back fails, the copy stays empty and
the status is one that the spec does not give (log entry 45) (R515 to R517, R520, R521). A quote samples the device's state with the nonce and is written and signed when it completes; a GO while one is in progress is rejected, and ranges that are not free HBM are refused with
0x0404, 0x0104 or 0x0402 (R523, R524, R526). -/
def Obligations.RecordsAndQuotesAreSigned : Prop :=
  (∀ (s : State) (lw : BitVec 32) (d : Dev) (a n : Nat) (b : Bytes), s.Live → d = s.dev.set R.SEC_REC_CTRL_LEN lw.toNat → n = lw.toNat → a = 4096 * d.get R.SEC_REC_SRC_SRC →
    b = d.read a n →
    (d.has R.SEC_REC_STATUS_BUSY = true → Becomes (.recordWrite lw) s ((d.set R.SEC_REC_STATUS_GO_REJECTED 1).reply 0)) ∧
    (d.has R.SEC_REC_STATUS_BUSY = false →
      (∀ st, d.recWriteCheck n = st → st ≠ 0 ∨ n = 0 → Becomes (.recordWrite lw) s (((d.set R.SEC_REC_STATUS_STATUS st.toNat).set R.SEC_REC_STATUS_DONE 1).reply 0)) ∧
      (d.recWriteCheck n = 0 → n ≠ 0 → Becomes (.recordWrite lw) s (((({ d with sec := { d.sec with recOp := some b, records := Map.erase d.sec.records (d.otherCopy (recType b)) } } : Dev).set
        R.SEC_REC_STATUS_BUSY 1).set R.SEC_REC_STATUS_TYPE (recType b)).reply 0))) ∧
    ((d.fatal = true → d.recWriteCheck n = 0x0F04) ∧
      (d.fatal = false → d.get R.MGT_FW_STATUS_STATE ≠ 0 → d.recWriteCheck n = 0x0510) ∧
      (d.fatal = false → d.get R.MGT_FW_STATUS_STATE = 0 →
        (n = 2 ^ 32 - 1 → d.recWriteCheck n = 0x0202) ∧ (0x100000 < n → n ≠ 2 ^ 32 - 1 → d.recWriteCheck n = 0x0201) ∧
        (0 < n → n ≤ 0x100000 → a + n ≤ 0x9DC0000000 →
          (recFormed b = false → d.recWriteCheck n = 0x0110) ∧
          (recFormed b = true → recType b < 3 → d.recWriteCheck n = 0x0404) ∧
          (recFormed b = true → 3 ≤ recType b → recDevice b ≠ d.keyId → recDevice b ≠ 0 ∨ recAnyDevice (recType b) = false → d.recWriteCheck n = 0x0117) ∧
          (recFormed b = true → 3 ≤ recType b → recDevice b = d.keyId →
            (recSignerOk (recType b) (recSigner b) = false ∨ recSigner b = 2 ∧ recType b ≠ 4 ∧ d.ownerKey = [] → d.recWriteCheck n = 0x0410) ∧
            (recSignerOk (recType b) (recSigner b) = true → recSigner b = 1 →
              (recSignedBy d.sec.rootKey b = false → d.recWriteCheck n = 0x0710) ∧
              (recSignedBy d.sec.rootKey b = true → d.recOf (recType b) ≠ [] → recSeq b ≤ recSeq (d.recOf (recType b)) → d.recWriteCheck n = 0x0117) ∧
              (recSignedBy d.sec.rootKey b = true → recType b ≠ 5 → recSeq (d.recOf (recType b)) < recSeq b → d.recWriteCheck n = 0)))))) ∧
    (s.dev.sec.recOp = none → ∀ ok, Becomes (.recordWriteComplete ok) s s.dev) ∧
    (∀ r x, s.dev.sec.recOp = some r → x = (({ s.dev with sec := { s.dev.sec with recOp := none } } : Dev).set R.SEC_REC_STATUS_BUSY 0) →
      Becomes (.recordWriteComplete true) s ((((x.recordInForce r).set R.SEC_REC_STATUS_STATUS 0).set R.SEC_REC_STATUS_DONE 1).fwResume) ∧
      Becomes (.recordWriteComplete false) s (((({ x with free := x.free + 1 } : Dev).set R.SEC_REC_STATUS_STATUS
        (BitVec.ofNat 16 (1 + (Config.freeWord x.free).toNat % 65535)).toNat).set R.SEC_REC_STATUS_DONE 1).fwResume) ∧
      (∀ y : Dev, y = { x with sec := { x.sec with records := Map.insert x.sec.records (x.otherCopy (recType r)) r, inForce := Map.insert x.sec.inForce (recType r) (x.otherCopy (recType r) % 2) } } →
        (recType r = 4 → x.recordInForce r = (y.setW R.SEC_OWNER_KEY_ID (Sys2Proof.Machine.keyId (slice (recBody r) 0 32))).set R.SEC_STATUS_OWNED 1) ∧
        (recType r = 5 → x.recordInForce r = y.setW R.SEC_MIN_VERSION (fld (recBody r) 0 8)) ∧
        (recType r ≠ 4 → recType r ≠ 5 → x.recordInForce r = y)))) ∧
  (∀ (s : State) (n o : Nat), s.Live → n = 32 * s.dev.get R.SEC_QUOTE_NONCE_ADDR → o = 64 * s.dev.get R.SEC_QUOTE_OUT_ADDR →
    (s.dev.has R.SEC_QUOTE_CTRL_BUSY = true → Becomes .quoteRequest s ((s.dev.set R.SEC_QUOTE_CTRL_GO_REJECTED 1).reply 0)) ∧
    (s.dev.has R.SEC_QUOTE_CTRL_BUSY = false →
      (∀ st, hbmRange n 32 = some st ∨ hbmRange n 32 = none ∧ hbmRange o 1920 = some st →
        Becomes .quoteRequest s (((s.dev.set R.SEC_QUOTE_CTRL_STATUS st.toNat).set R.SEC_QUOTE_CTRL_DONE 1).reply 0)) ∧
      (n + 32 ≤ 0x9DC0000000 → o + 1920 ≤ 0x9DC0000000 →
        (s.dev.inRegion n 32 = true ∨ s.dev.inRegion o 1920 = true →
          Becomes .quoteRequest s (((s.dev.set R.SEC_QUOTE_CTRL_STATUS 0x0402).set R.SEC_QUOTE_CTRL_DONE 1).reply 0)) ∧
        (s.dev.inRegion n 32 = false → s.dev.inRegion o 1920 = false →
          Becomes .quoteRequest s ((({ s.dev with sec := { s.dev.sec with quote := some (o, s.dev.quoteBytes (s.dev.read n 32)) } } : Dev).set R.SEC_QUOTE_CTRL_BUSY 1).reply 0)))) ∧
    (s.dev.sec.quote = none → Becomes .quoteComplete s s.dev) ∧
    (∀ p q x, s.dev.sec.quote = some (p, q) → x = s.dev.addWord R.SEC_SIGNED 1 → Becomes .quoteComplete s
      ((((({ x with sec := { x.sec with quote := none } } : Dev).write p (q ++ edSign s.dev.sec.seed q)).set R.SEC_QUOTE_CTRL_BUSY 0).set R.SEC_QUOTE_CTRL_STATUS 0).set
        R.SEC_QUOTE_CTRL_DONE 1)) ∧
    (∀ a b, (a + b ≤ 0x9DC0000000 → hbmRange a b = none) ∧ (0x9DC0000000 < a + b → a + b ≤ 0xA000000000 → a < 0xA000000000 → hbmRange a b = some 0x0404) ∧
      (0x9DC0000000 < a + b → 0xA000000000 ≤ a → hbmRange a b = some 0x0104)))

/-! ## Power, clocks, reset and boot -/

/-- A reset puts every register field at its reset value but PREV, every block in its reset state, and keeps package flash and the NAND, and a warm one HBM. A power-on reset acts in every state,
the warm pin not while POR or a clock fault holds the part, GLB_RESET only with its key, and a clock fault holds the part in warm reset with FAULT_N low until the clock is good
(R532, R537, R538, R552; that the warm pin is ignored while POR holds the part and that HBM reads 0 after power-on: log entries 5 and 66). The boot ROM latches the straps and the cause and acts in its order: the identity, which fails with CODE 2 without its records and with CODE 1 where the keys do not agree; the records,
without whose UNITS (CODE 3) or MIN_VERSION (CODE 4) it stops; and the slot that the slot-select word names, or the other one with FALLBACK, where its image is verified and not
below the minimum version, or none (CODE 5 or 6). Firmware then shows what it found and sets READY (R513, R518, R519, R539, R540). -/
def Obligations.ResetsAndBoot : Prop :=
  (∀ s : State,
    Becomes .powerOnReset s (s.dev.wipe false (.inReset 1)) ∧
    (s.dev.pwr.phase = .tripped ∨ s.dev.pwr.phase = .inReset 1 ∨ s.dev.pwr.phase = .clockFault → Becomes .warmResetPin s s.dev) ∧
    (s.dev.pwr.phase ≠ .tripped → s.dev.pwr.phase ≠ .inReset 1 →
      Becomes .clockFault s (s.dev.wipe true .clockFault) ∧ (s.dev.pwr.phase ≠ .clockFault → Becomes .warmResetPin s (s.dev.wipe true (.inReset 2)))) ∧
    (s.dev.pwr.phase = .tripped ∨ s.dev.pwr.phase = .inReset 1 → Becomes .clockFault s s.dev) ∧
    (s.Live → ∀ k : BitVec 16, Becomes (.glbResetWrite k) s ((if k = 0x5752 then s.dev.wipe true (.inReset 3) else s.dev).reply 0)) ∧
    (s.dev.pwr.phase = .clockFault → Becomes .clockFaultEnd s { s.dev with pwr := { s.dev.pwr with
      phase := .inReset 4
      faultN := true } }) ∧
    (s.dev.pwr.phase ≠ .clockFault → Becomes .clockFaultEnd s s.dev) ∧
    (∀ (warm : Bool) (p : Phase) (d : Dev), d = s.dev.wipe warm p →
      (∀ o, o ≠ R.GLB_RESET_CAUSE → d.word o = regReset o) ∧ d.get R.GLB_RESET_CAUSE_PREV = s.dev.get R.GLB_RESET_CAUSE_PREV ∧ d.get R.GLB_RESET_CAUSE_CAUSE = 0 ∧
      d.pwr.phase = p ∧ (d.pwr.faultN = false ↔ p = .clockFault) ∧ d.timers = [] ∧ d.irq = Irq.reset ∧ d.lgr = Lgr.reset ∧ d.tim = Tim.reset ∧ d.fab = Fab.bootMode ∧
      d.xpt = Xpt.reset ∧ d.thr = Thr.reset ∧ d.col = Col.reset ∧ d.seq = Seq.reset ∧ d.mgt.slotA = s.dev.mgt.slotA ∧ d.mgt.slotB = s.dev.mgt.slotB ∧
      d.mgt.slotSelect = s.dev.mgt.slotSelect ∧ d.sec.records = s.dev.sec.records ∧ d.sec.seed = [] ∧ d.med.nand = s.dev.med.nand ∧ d.med.live = s.dev.med.saved ∧
      (d.med.lost = true ↔ s.dev.med.lost = true ∨ warm = false ∧ s.dev.med.dirty = true) ∧
      (warm = true → Mem.wf s.dev.mem = true → ∀ a n, a + n ≤ 0xA000000000 → d.read a n = s.dev.read a n) ∧ (warm = false → ∀ a n, d.read a n = List.replicate n 0))) ∧
  (∀ (s : State) (straps : BitVec 7) (seed e : Option Bytes),
    ((∀ c, s.dev.pwr.phase ≠ .inReset c) → Becomes (.resetRelease straps seed e) s s.dev) ∧
    (∀ c d, s.dev.pwr.phase = .inReset c → d = ((({ s.dev with pwr := { s.dev.pwr with straps := straps.toNat } } : Dev).set R.GLB_RESET_CAUSE_CAUSE c).set R.GLB_BOOT_STAGE 1).set
        R.GLB_BOOT_STAGE 2 →
      ((∀ x ∈ d.copies 1, recSignedBy d.sec.rootKey x.2 = false) ∨ (∀ x ∈ d.copies 2, recSignedBy d.sec.rootKey x.2 = false) →
        Becomes (.resetRelease straps seed e) s ((d.set R.SEC_STATUS_IDENTITY 2).bootStop 2)) ∧
      ((∃ x ∈ d.copies 1, recSignedBy d.sec.rootKey x.2 = true) → (∃ x ∈ d.copies 2, recSignedBy d.sec.rootKey x.2 = true) →
        (seed = none → Becomes (.resetRelease straps seed e) s ((d.set R.SEC_STATUS_IDENTITY 2).bootStop 1)) ∧
        (∀ x k z, seed = some x → k = ({ d with sec := { d.sec with seed := x, pub := edPublic x } } : Dev) →
          z = (((List.range 4).foldl (fun d i => d.setW (R.SEC_DEVICE_KEY i) (fld d.sec.pub (8 * i) 8)) k).selectRec 1 (fun _ => true)).selectRec 2 (fun _ => true) →
          (z.recOf 1 = [] ∨ z.recOf 2 = [] ∨ slice (recBody (z.recOf 2)) 0 32 ≠ z.sec.pub →
            Becomes (.resetRelease straps seed e) s ((z.set R.SEC_STATUS_IDENTITY 2).bootStop 1)) ∧
          (z.recOf 1 ≠ [] → z.recOf 2 ≠ [] → slice (recBody (z.recOf 2)) 0 32 = z.sec.pub →
            Becomes (.resetRelease straps seed e) s ((z.set R.SEC_STATUS_IDENTITY 1).bootSelect e))))) ∧
    (∀ d x y : Dev, x = ((((d.set R.GLB_BOOT_STAGE 3).selectRec 4 (fun _ => true)).selectRec 3 unitsOk).selectRec 5 (fun _ => true)).selectRec 6 (fun _ => true) →
      y = (x.setW R.SEC_MIN_VERSION (fld (recBody (x.recOf 5)) 0 8)).set R.GLB_BOOT_STAGE 5 →
      (x.recOf 3 = [] → d.bootSelect e = x.bootStop 3) ∧ (x.recOf 3 ≠ [] → x.recOf 5 = [] → d.bootSelect e = x.bootStop 4) ∧
      (x.recOf 3 ≠ [] → x.recOf 5 ≠ [] → ∀ n, n = y.mgt.slotSelect % 2 →
        (y.slotStarts n = true → d.bootSelect e = y.firmwareBoot n false e) ∧
        (y.slotStarts n = false → y.slotStarts (1 - n) = true →
          d.bootSelect e = ({ y with mgt := { y.mgt with slotSelect := 1 - n } } : Dev).firmwareBoot (1 - n) true e) ∧
        (y.slotStarts n = false → y.slotStarts (1 - n) = false →
          d.bootSelect e = y.bootStop (if y.mgt.slotA.verified || y.mgt.slotB.verified then 6 else 5)))) ∧
    (∀ (d : Dev) (c n : Nat) (fb : Bool), (d.bootStop c).pwr.phase = .dead ∧ (d.bootStop c).pwr.faultN = false ∧ (d.bootStop c).get R.GLB_BOOT_CODE = c % 256 ∧
      (d.firmwareBoot n fb e).pwr.phase = .running ∧ (d.firmwareBoot n fb e).has R.GLB_BOOT_READY = true ∧ (d.firmwareBoot n fb e).mem = d.mem))

/-- No firmware slot below the minimum version is started, and where neither slot qualifies none is; WRITE_SLOT and UPDATE refuse an image below it with 0x0117 (R519). -/
def Obligations.OldFirmwareIsNotStarted : Prop :=
  ∀ (d : Dev) (n l a : Nat) (e : Option Bytes),
    (fwVersion (d.slotOf n).bytes < d.minVersion → d.slotStarts n = false) ∧
    (d.pwr.phase ≠ .running → (d.bootSelect e).pwr.phase = .dead ∨ (d.bootSelect e).pwr.phase = .running ∧ ∃ (y : Dev) (k : Nat) (fb : Bool),
      d.bootSelect e = y.firmwareBoot k fb e ∧ y.mgt.slotA = d.mgt.slotA ∧ y.mgt.slotB = d.mgt.slotB ∧ (y.slotOf k).verified = true ∧
      y.minVersion ≤ fwVersion (y.slotOf k).bytes) ∧
    (0 < l → l ≤ 0x1C000000 → a + l ≤ 0x9DC0000000 → fwSigned d.sec.rootKey (d.read a l) = true → fwVersion (d.read a l) < d.minVersion → d.writeSlotCheck l a = 0x0117) ∧
    (d.has R.SEQ_IMG_STATUS_BUSY = false → d.has R.SEQ_IMG_STATUS_PENDING = false → (d.slotOf (1 - d.runSlot)).verified = true →
      fwVersion (d.slotOf (1 - d.runSlot)).bytes < d.minVersion → d.updateCheck = 0x0117)

/-- A sample of the junction sensors shows their highest value and keeps the peak; 115 °C is a trip, as a rail fault is: every clock stops, THERMTRIP_N or FAULT_N goes low and PREV names
the trip. After a trip nothing is sampled (R535, R536, R541). The throttle level falls by 1, to no less than 4, at 105 °C, at the current limit or above LEVEL_CAP, rises by 1 after 1 ms below both bounds, and else holds; a droop of 50 mV below target
suppresses pulses until it recovers; an SMBus Block Read returns the register of its command code, or is not acknowledged (R530, R534, R550). The loss of a SerDes reference clock takes every enabled port of its octets to DOWN, and with group 0 the host link (R532). -/
def Obligations.ThePartProtectsItself : Prop :=
  (∀ (s : State) (x : BitVec 16) (r : List (BitVec 16)),
    (s.dev.pwr.phase = .tripped → Becomes (.thermalSample (x :: r)) s s.dev ∧ Becomes .railFault s s.dev) ∧
    (s.dev.pwr.phase ≠ .tripped →
      Becomes .railFault s { s.dev.set R.GLB_RESET_CAUSE_PREV 0x11 with pwr := { s.dev.pwr with
        phase := .tripped
        faultN := false } } ∧
      Becomes (.thermalSample []) s s.dev ∧
      (∀ (tj : Int) (d e : Dev), tj = r.foldl (fun m s => max m s.toInt) x.toInt →
        d = (s.dev.set R.GLB_THERMAL_TJ (wrap 16 tj)).set R.GLB_THERMAL_TJ_PEAK (wrap 16 (max tj (sext 16 (s.dev.get R.GLB_THERMAL_TJ_PEAK)))) →
        e = { d with
          pwr := { d.pwr with cool := if tj < 1648 then d.pwr.cool + 1 else 0 }
          med := { d.med with tj := some (match d.med.tj with
            | some h => (max h.1 (tj / 16), min h.2 (tj / 16))
            | none => (tj / 16, tj / 16)) } } →
        (tj < 1840 → Becomes (.thermalSample (x :: r)) s e) ∧
        (1840 ≤ tj → Becomes (.thermalSample (x :: r)) s { e.set R.GLB_RESET_CAUSE_PREV 0x10 with pwr := { e.pwr with
          phase := .tripped
          thermtripN := false } })))) ∧
  (∀ (s : State) (amps : Nat) (mv : BitVec 16) (c : Byte) (tj : Int) (level cap lim : Nat) (d : Dev), tj = sext 16 (s.dev.get R.GLB_THERMAL_TJ) →
    level = s.dev.get R.GLB_THERMAL_LEVEL → cap = min 16 (max 4 (s.dev.get R.GLB_LIMITS_LEVEL_CAP)) → lim = min 1150 (s.dev.get R.GLB_LIMITS_CORE_ILIMIT) →
    d = { s.dev with pwr := { s.dev.pwr with calm := if 100 * amps < 95 * lim then s.dev.pwr.calm + 1 else 0 } } →
    (s.Live →
      (1680 ≤ tj ∨ lim ≤ amps ∨ cap < level → Becomes (.throttleUpdate amps) s (d.set R.GLB_THERMAL_LEVEL (max 4 (level - 1)))) ∧
      (tj < 1680 → amps < lim → level ≤ cap →
        (100 ≤ d.pwr.cool → 10 ≤ d.pwr.calm → Becomes (.throttleUpdate amps) s (d.set R.GLB_THERMAL_LEVEL (min cap (level + 1)))) ∧
        (d.pwr.cool < 100 ∨ d.pwr.calm < 10 → Becomes (.throttleUpdate amps) s d)) ∧
      (∀ v : Dev, v = s.dev.set R.GLB_AVS_SENSED_MV mv.toNat →
        (mv.toNat + 50 ≤ v.get R.GLB_AVS_TARGET_MV → Becomes (.voltageDroop mv) s { v with pwr := { v.pwr with droop := true } }) ∧
        (v.get R.GLB_AVS_TARGET_MV < mv.toNat + 50 → Becomes (.voltageDroop mv) s v) ∧
        Becomes (.voltageDroopEnd mv) s { v with pwr := { v.pwr with droop := false } })) ∧
    (s.dev.pwr.phase = .running ∨ s.dev.pwr.phase = .dead →
      (∀ r, (c, r) ∈ [((0 : Byte), R.GLB_ID), (1, R.GLB_BOOT), (2, R.GLB_THERMAL), (3, R.GLB_RESET_CAUSE), (4, R.SEC_STATUS), (5, R.LGR_STATUS)] →
        Becomes (.smbusBlockRead c) s (s.dev.emit (.smbus (le 8 (s.dev.word r).toNat)))) ∧
      (6 ≤ c.toNat → Becomes (.smbusBlockRead c) s (s.dev.emit .smbusNack))) ∧
    (s.dev.pwr.phase ≠ .running → s.dev.pwr.phase ≠ .dead → Becomes (.smbusBlockRead c) s s.dev) ∧
    (s.dev.alertN = false ↔ s.dev.fatal = true ∨ level < 16)) ∧
  (∀ (s : State) (g : Fin 8), s.Live →
    ∀ d : Dev, d = (List.range 32).foldl (fun d i =>
      if d.isPort (32 * g + i) = true ∧ d.pstate (32 * g + i) ≠ 0 ∧ d.pstate (32 * g + i) ≠ 5 then d.enterDown (32 * g + i) else d) s.dev →
    (∀ i, i < 32 → s.dev.isPort (32 * g + i) = true → d.pstate (32 * g + i) = 0 ∨ d.pstate (32 * g + i) = 5) ∧
    (g ≠ 0 → Becomes (.serdesRefclkLoss g) s d.settle) ∧ (g = 0 → Becomes (.serdesRefclkLoss g) s (d.linkDown).settle))
end

