-- ==== Sys2Proof/Laws/Bits.lean ====
section
/-! SUPPORT. The laws of bit fields: a field reads what was written to it, and the bits outside it stay. -/

namespace Sys2Proof.Machine

/-- A number cut at a field: what stands above, in and below it. -/
theorem split_at_field (x lo n : Nat) : x = (x / 2 ^ lo / 2 ^ n) * 2 ^ (lo + n) + bits x (lo + n - 1) lo * 2 ^ lo + x % 2 ^ lo ∨ n = 0 := by
  rcases Nat.eq_zero_or_pos n with h | h
  · exact .inr h
  · left
    have e : lo + n - 1 + 1 - lo = n := by omega
    rw [bits, e, Nat.shiftRight_eq_div_pow, Nat.pow_add]
    have h1 := Nat.div_add_mod x (2 ^ lo)
    have h2 := Nat.div_add_mod (x / 2 ^ lo) (2 ^ n)
    calc x = 2 ^ lo * (x / 2 ^ lo) + x % 2 ^ lo := h1.symm
      _ = 2 ^ lo * (2 ^ n * (x / 2 ^ lo / 2 ^ n) + x / 2 ^ lo % 2 ^ n) + x % 2 ^ lo := by rw [h2]
      _ = _ := by ring

/-- The number that setBits stores. -/
theorem setBits_toNat {w : Word} {hi lo v : Nat} (h : lo ≤ hi) (h64 : hi < 64) :
    (setBits w hi lo v).toNat =
      (w.toNat / 2 ^ (hi + 1)) * 2 ^ (hi + 1) + (v % 2 ^ (hi + 1 - lo)) * 2 ^ lo + w.toNat % 2 ^ lo := by
  obtain ⟨n, rfl⟩ : ∃ n, hi = lo + n := ⟨hi - lo, by omega⟩
  have e : lo + n + 1 - lo = n + 1 := by omega
  rcases split_at_field w.toNat lo (n + 1) with hx | hx
  · have e2 : lo + (n + 1) - 1 = lo + n := by omega
    rw [e2] at hx
    rw [Nat.div_div_eq_div_mul, ← Nat.pow_add] at hx
    have e3 : lo + (n + 1) = lo + n + 1 := by omega
    rw [e3] at hx
    set q := w.toNat / 2 ^ (lo + n + 1) with hq
    set b := bits w.toNat (lo + n) lo with hb
    have hval : w.toNat - b * 2 ^ lo + v % 2 ^ (n + 1) * 2 ^ lo = q * 2 ^ (lo + n + 1) + v % 2 ^ (n + 1) * 2 ^ lo + w.toNat % 2 ^ lo := by
      omega
    have hlt : q * 2 ^ (lo + n + 1) + v % 2 ^ (n + 1) * 2 ^ lo + w.toNat % 2 ^ lo < 2 ^ 64 := by
      have h1 : v % 2 ^ (n + 1) * 2 ^ lo + w.toNat % 2 ^ lo < 2 ^ (lo + n + 1) := by
        have a : v % 2 ^ (n + 1) + 1 ≤ 2 ^ (n + 1) := Nat.mod_lt _ (by positivity)
        have c : w.toNat % 2 ^ lo < 2 ^ lo := Nat.mod_lt _ (by positivity)
        calc v % 2 ^ (n + 1) * 2 ^ lo + w.toNat % 2 ^ lo < v % 2 ^ (n + 1) * 2 ^ lo + 2 ^ lo := by omega
          _ = (v % 2 ^ (n + 1) + 1) * 2 ^ lo := by ring
          _ ≤ 2 ^ (n + 1) * 2 ^ lo := Nat.mul_le_mul_right _ a
          _ = 2 ^ (lo + n + 1) := by rw [← Nat.pow_add]; congr 1; omega
      have h2 : q + 1 ≤ 2 ^ (64 - (lo + n + 1)) := by
        have : w.toNat < 2 ^ (lo + n + 1) * 2 ^ (64 - (lo + n + 1)) := by
          rw [← Nat.pow_add, show lo + n + 1 + (64 - (lo + n + 1)) = 64 by omega]; exact w.isLt
        exact Nat.div_lt_of_lt_mul this
      calc q * 2 ^ (lo + n + 1) + v % 2 ^ (n + 1) * 2 ^ lo + w.toNat % 2 ^ lo
          < q * 2 ^ (lo + n + 1) + 2 ^ (lo + n + 1) := by omega
        _ = (q + 1) * 2 ^ (lo + n + 1) := by ring
        _ ≤ 2 ^ (64 - (lo + n + 1)) * 2 ^ (lo + n + 1) := Nat.mul_le_mul_right _ h2
        _ = 2 ^ 64 := by rw [← Nat.pow_add]; congr 1; omega
    rw [setBits, e, ← hb, hval, BitVec.toNat_ofNat, Nat.mod_eq_of_lt hlt]
  · omega

/-- A field reads what was written to it. -/
theorem getBits_setBits_same {w : Word} {hi lo v : Nat} (h : lo ≤ hi) (h64 : hi < 64) :
    getBits (setBits w hi lo v) hi lo = v % 2 ^ (hi + 1 - lo) := by
  rw [getBits, bits, setBits_toNat h h64, Nat.shiftRight_eq_div_pow]
  have c : w.toNat % 2 ^ lo < 2 ^ lo := Nat.mod_lt _ (by positivity)
  have e : hi + 1 = lo + (hi + 1 - lo) := by omega
  have : w.toNat / 2 ^ (hi + 1) * 2 ^ (hi + 1) + v % 2 ^ (hi + 1 - lo) * 2 ^ lo + w.toNat % 2 ^ lo
      = (w.toNat / 2 ^ (hi + 1) * 2 ^ (hi + 1 - lo) + v % 2 ^ (hi + 1 - lo)) * 2 ^ lo + w.toNat % 2 ^ lo := by
    conv_lhs => rw [show (2 : Nat) ^ (hi + 1) = 2 ^ lo * 2 ^ (hi + 1 - lo) by rw [← Nat.pow_add, ← e]]
    rw [show w.toNat / (2 ^ lo * 2 ^ (hi + 1 - lo)) = w.toNat / 2 ^ (hi + 1) by rw [← Nat.pow_add, ← e]]
    ring
  rw [this, Nat.add_comm, Nat.add_mul_div_right _ _ (by positivity), Nat.div_eq_of_lt c, Nat.zero_add, Nat.mul_add_mod_of_lt]
  exact Nat.mod_lt _ (by positivity)

/-- A field above the one written stays. -/
theorem getBits_setBits_above {w : Word} {hi lo v hi' lo' : Nat} (h : lo ≤ hi) (h64 : hi < 64) (ha : hi < lo') :
    getBits (setBits w hi lo v) hi' lo' = getBits w hi' lo' := by
  rw [getBits, bits, setBits_toNat h h64, getBits, bits, Nat.shiftRight_eq_div_pow, Nat.shiftRight_eq_div_pow]
  congr 1
  have e : (2 : Nat) ^ lo' = 2 ^ (hi + 1) * 2 ^ (lo' - (hi + 1)) := by rw [← Nat.pow_add]; congr 1; omega
  have small : v % 2 ^ (hi + 1 - lo) * 2 ^ lo + w.toNat % 2 ^ lo < 2 ^ (hi + 1) := by
    have a : v % 2 ^ (hi + 1 - lo) + 1 ≤ 2 ^ (hi + 1 - lo) := Nat.mod_lt _ (by positivity)
    have c : w.toNat % 2 ^ lo < 2 ^ lo := Nat.mod_lt _ (by positivity)
    calc v % 2 ^ (hi + 1 - lo) * 2 ^ lo + w.toNat % 2 ^ lo < (v % 2 ^ (hi + 1 - lo) + 1) * 2 ^ lo := by rw [Nat.add_mul]; omega
      _ ≤ 2 ^ (hi + 1 - lo) * 2 ^ lo := Nat.mul_le_mul_right _ a
      _ = 2 ^ (hi + 1) := by rw [← Nat.pow_add]; congr 1; omega
  rw [e, ← Nat.div_div_eq_div_mul, ← Nat.div_div_eq_div_mul, Nat.add_assoc, Nat.add_comm (w.toNat / 2 ^ (hi + 1) * 2 ^ (hi + 1)),
    Nat.add_mul_div_right _ _ (by positivity), Nat.div_eq_of_lt small, Nat.zero_add]

/-- A field below the one written stays. -/
theorem getBits_setBits_below {w : Word} {hi lo v hi' lo' : Nat} (h : lo ≤ hi) (h64 : hi < 64) (hl : lo' ≤ hi') (ha : hi' < lo) :
    getBits (setBits w hi lo v) hi' lo' = getBits w hi' lo' := by
  rw [getBits, bits, setBits_toNat h h64, getBits, bits, Nat.shiftRight_eq_div_pow, Nat.shiftRight_eq_div_pow]
  have key : ∀ x : Nat, x / 2 ^ lo' % 2 ^ (hi' + 1 - lo') = x % 2 ^ (hi' + 1) / 2 ^ lo' := by
    intro x
    rw [show hi' + 1 = lo' + (hi' + 1 - lo') by omega, Nat.pow_add, Nat.mod_mul_right_div_self]
    congr 2; omega
  rw [key, key]
  congr 1
  have d1 : (2 : Nat) ^ (hi' + 1) ∣ 2 ^ (hi + 1) := pow_dvd_pow 2 (by omega)
  have d2 : (2 : Nat) ^ (hi' + 1) ∣ 2 ^ lo := pow_dvd_pow 2 (by omega)
  obtain ⟨a, ha'⟩ := d1
  obtain ⟨b, hb⟩ := d2
  rw [ha', hb, show w.toNat / (2 ^ (hi' + 1) * a) * (2 ^ (hi' + 1) * a) + v % 2 ^ (hi + 1 - lo) * (2 ^ (hi' + 1) * b) + w.toNat % (2 ^ (hi' + 1) * b)
    = w.toNat % (2 ^ (hi' + 1) * b) + 2 ^ (hi' + 1) * (w.toNat / (2 ^ (hi' + 1) * a) * a + v % 2 ^ (hi + 1 - lo) * b) by ring,
    Nat.add_mul_mod_self_left, Nat.mod_mul_right_mod]

/-- A whole register field reads the whole register. -/
theorem getBits_whole (w : Word) : getBits w 63 0 = w.toNat := by
  simp only [getBits, bits, Nat.shiftRight_zero]
  exact Nat.mod_eq_of_lt w.isLt

end Sys2Proof.Machine
end

