-- ==== Sys2Proof/Laws/Map.lean ====
section
/-! SUPPORT. The laws of sparse maps: what a write leaves to be read, and the canonical form it keeps. -/

namespace Sys2Proof.Machine

variable {α : Type}

/-- Every key of a list lies above `j`. -/
def Map.above (j : Nat) (m : List (Nat × α)) : Prop := ∀ e ∈ m, j < e.1

theorem Map.wf_cons [DecidableEq α] {d : α} {j : Nat} {v : α} {r : List (Nat × α)} :
    Map.wf d ((j, v) :: r) = true ↔ v ≠ d ∧ Map.above j r ∧ Map.wf d r = true := by
  induction r generalizing j v with
  | nil => simp [Map.wf, Map.above]
  | cons e r ih =>
    obtain ⟨k, w⟩ := e
    constructor
    · intro h
      simp only [Map.wf, Bool.and_eq_true, decide_eq_true_eq] at h
      obtain ⟨⟨hjk, hv⟩, hr⟩ := h
      refine ⟨hv, ?_, hr⟩
      intro x hx
      rcases List.mem_cons.1 hx with rfl | hx
      · exact hjk
      · exact Nat.lt_trans hjk ((ih.1 hr).2.1 x hx)
    · rintro ⟨hv, ha, hr⟩
      simp only [Map.wf, Bool.and_eq_true, decide_eq_true_eq]
      exact ⟨⟨ha (k, w) List.mem_cons_self, hv⟩, hr⟩

theorem Map.find_above {j k : Nat} {m : List (Nat × α)} (h : Map.above j m) (hk : k ≤ j) : Map.find m k = none := by
  induction m with
  | nil => rfl
  | cons e r ih =>
    obtain ⟨i, v⟩ := e
    have hi : j < i := h (i, v) List.mem_cons_self
    have : i ≠ k := by omega
    simp only [Map.find, this, if_false]
    exact ih (fun x hx => h x (List.mem_cons_of_mem _ hx))

@[simp] theorem Map.find_insert_same (m : List (Nat × α)) (k : Nat) (v : α) : Map.find (Map.insert m k v) k = some v := by
  induction m with
  | nil => simp [Map.insert, Map.find]
  | cons e r ih =>
    obtain ⟨j, w⟩ := e
    simp only [Map.insert]
    split
    · simp [Map.find]
    · split
      · simp [Map.find]
      · next h => simp only [Map.find, Ne.symm h, if_false]; exact ih

@[simp] theorem Map.find_insert_other {m : List (Nat × α)} {k k' : Nat} {v : α} (h : k' ≠ k) :
    Map.find (Map.insert m k v) k' = Map.find m k' := by
  induction m with
  | nil => simp [Map.insert, Map.find, Ne.symm h]
  | cons e r ih =>
    obtain ⟨j, w⟩ := e
    simp only [Map.insert]
    split
    · simp [Map.find, Ne.symm h]
    · split
      · next hk => subst hk; simp [Map.find, Ne.symm h]
      · simp only [Map.find, ih]

theorem Map.find_erase_other {m : List (Nat × α)} {k k' : Nat} (h : k' ≠ k) : Map.find (Map.erase m k) k' = Map.find m k' := by
  induction m with
  | nil => rfl
  | cons e r ih =>
    obtain ⟨j, w⟩ := e
    simp only [Map.erase]
    split
    · next hj => subst hj; simp only [Map.find, Ne.symm h, if_false]; exact ih
    · simp only [Map.find, ih]

@[simp] theorem Map.find_erase_same (m : List (Nat × α)) (k : Nat) : Map.find (Map.erase m k) k = none := by
  induction m with
  | nil => rfl
  | cons e r ih =>
    obtain ⟨j, w⟩ := e
    simp only [Map.erase]
    split
    · exact ih
    · next hj => simp only [Map.find, hj, if_false]; exact ih

theorem Map.above_insert {m : List (Nat × α)} {j k : Nat} {v : α} (h : Map.above j m) (hk : j < k) :
    Map.above j (Map.insert m k v) := by
  induction m with
  | nil => intro x hx; simp [Map.insert] at hx; subst hx; exact hk
  | cons e r ih =>
    obtain ⟨i, w⟩ := e
    have hr : Map.above j r := fun x hx => h x (List.mem_cons_of_mem _ hx)
    have hi : j < i := h (i, w) List.mem_cons_self
    simp only [Map.insert]
    split
    · intro x hx
      rcases List.mem_cons.1 hx with rfl | hx
      · exact hk
      · exact h x hx
    · split
      · intro x hx
        rcases List.mem_cons.1 hx with rfl | hx
        · exact hk
        · exact hr x hx
      · intro x hx
        rcases List.mem_cons.1 hx with rfl | hx
        · exact hi
        · exact ih hr x hx

theorem Map.above_erase {m : List (Nat × α)} {j k : Nat} (h : Map.above j m) : Map.above j (Map.erase m k) := by
  induction m with
  | nil => exact h
  | cons e r ih =>
    obtain ⟨i, w⟩ := e
    have hr : Map.above j r := fun x hx => h x (List.mem_cons_of_mem _ hx)
    simp only [Map.erase]
    split
    · exact ih hr
    · intro x hx
      rcases List.mem_cons.1 hx with rfl | hx
      · exact h (i, w) List.mem_cons_self
      · exact ih hr x hx

theorem Map.wf_erase [DecidableEq α] {d : α} {m : List (Nat × α)} (k : Nat) (h : Map.wf d m = true) :
    Map.wf d (Map.erase m k) = true := by
  induction m with
  | nil => rfl
  | cons e r ih =>
    obtain ⟨j, w⟩ := e
    obtain ⟨hw, ha, hr⟩ := Map.wf_cons.1 h
    simp only [Map.erase]
    split
    · exact ih hr
    · exact Map.wf_cons.2 ⟨hw, Map.above_erase ha, ih hr⟩

theorem Map.wf_insert [DecidableEq α] {d : α} {m : List (Nat × α)} (k : Nat) {v : α} (hv : v ≠ d) (h : Map.wf d m = true) :
    Map.wf d (Map.insert m k v) = true := by
  induction m with
  | nil => simp [Map.insert, Map.wf, hv]
  | cons e r ih =>
    obtain ⟨j, w⟩ := e
    obtain ⟨hw, ha, hr⟩ := Map.wf_cons.1 h
    simp only [Map.insert]
    split
    · next hk =>
      refine Map.wf_cons.2 ⟨hv, ?_, h⟩
      intro x hx
      rcases List.mem_cons.1 hx with rfl | hx
      · exact hk
      · exact Nat.lt_trans hk (ha x hx)
    · split
      · next hk => subst hk; exact Map.wf_cons.2 ⟨hv, ha, hr⟩
      · next h1 h2 => exact Map.wf_cons.2 ⟨hw, Map.above_insert ha (by omega), ih hr⟩

/-- A write keeps the canonical form. -/
theorem Map.wf_put [DecidableEq α] {d : α} {m : List (Nat × α)} (k : Nat) (v : α) (h : Map.wf d m = true) :
    Map.wf d (Map.put d m k v) = true := by
  unfold Map.put
  split
  · exact Map.wf_erase k h
  · next hv => exact Map.wf_insert k hv h

/-- A key reads what was written to it. -/
@[simp] theorem Map.get_put_same [DecidableEq α] {d : α} (m : List (Nat × α)) (k : Nat) (v : α) :
    Map.get d (Map.put d m k v) k = v := by
  unfold Map.get Map.put
  split
  · next hv => rw [Map.find_erase_same]; exact hv.symm
  · simp

/-- A write leaves every other key alone. -/
@[simp] theorem Map.get_put_other [DecidableEq α] {d : α} {m : List (Nat × α)} {k k' : Nat} (v : α) (h : k' ≠ k) :
    Map.get d (Map.put d m k v) k' = Map.get d m k' := by
  unfold Map.get Map.put
  split
  · rw [Map.find_erase_other h]
  · rw [Map.find_insert_other h]

/-- Every entry of a canonical map is found under its key. -/
theorem Map.find_of_mem [DecidableEq α] {d : α} {m : List (Nat × α)} (h : Map.wf d m = true) {e : Nat × α} (he : e ∈ m) :
    Map.find m e.1 = some e.2 := by
  induction m with
  | nil => cases he
  | cons x r ih =>
    obtain ⟨j, w⟩ := x
    obtain ⟨_, ha, hr⟩ := Map.wf_cons.1 h
    rcases List.mem_cons.1 he with rfl | he
    · simp [Map.find]
    · have := ha e he
      simp only [Map.find, show j ≠ e.1 by omega, if_false]
      exact ih hr he

end Sys2Proof.Machine
end

