-- ==== Sys2Proof/Laws/Mem.lean ====
section
/-! SUPPORT. The laws of memory: a read after a write, what a write leaves alone, and the canonical form that every operation keeps. -/

namespace Sys2Proof.Machine

/-- The canonical form, as order and as absence of listed defaults. -/
theorem Map.wf_iff {α : Type} [DecidableEq α] {d : α} {m : List (Nat × α)} :
    Map.wf d m = true ↔ m.Pairwise (fun x y => x.1 < y.1) ∧ ∀ e ∈ m, e.2 ≠ d := by
  induction m with
  | nil => simp [Map.wf]
  | cons e r ih =>
    obtain ⟨j, v⟩ := e
    rw [Map.wf_cons, ih, List.pairwise_cons]
    simp only [Map.above, List.mem_cons, forall_eq_or_imp]
    tauto

/-- What a canonical map holds at a key is what is found there. -/
theorem Map.find_iff {α : Type} [DecidableEq α] {d : α} {m : List (Nat × α)} (h : Map.wf d m = true) {k : Nat} {v : α} :
    Map.find m k = some v ↔ (k, v) ∈ m := by
  constructor
  · intro hf
    clear h
    induction m with
    | nil => simp [Map.find] at hf
    | cons e r ih =>
      obtain ⟨j, w⟩ := e
      simp only [Map.find] at hf
      split at hf
      · next hj => simp only [Option.some.injEq] at hf; subst hj; subst hf; exact List.mem_cons_self
      · exact List.mem_cons_of_mem _ (ih hf)
  · exact fun hm => Map.find_of_mem h hm

/-- The byte that memory holds at an address. -/
def Mem.at (m : List Host.Cell) (a : Nat) : Byte := Map.get 0 m a

theorem Mem.at_eq_iff {m : List Host.Cell} (h : Mem.wf m = true) {a : Nat} {b : Byte} (hb : b ≠ 0) :
    Mem.at m a = b ↔ (a, b) ∈ m := by
  rw [← Map.find_iff (d := (0 : Byte)) h, Mem.at, Map.get]
  constructor
  · intro e
    cases hf : Map.find m a with
    | none => rw [hf] at e; exact absurd e.symm hb
    | some v => rw [hf] at e; simp only [Option.getD_some] at e; rw [e]
  · intro e; rw [e]; rfl

/-- Two bytes agree where they are the same listed byte. -/
theorem Mem.at_congr {m n : List Host.Cell} (hm : Mem.wf m = true) (hn : Mem.wf n = true) {a : Nat}
    (h : ∀ b, (a, b) ∈ m ↔ (a, b) ∈ n) : Mem.at m a = Mem.at n a := by
  by_cases h0 : Mem.at m a = 0
  · by_cases h1 : Mem.at n a = 0
    · rw [h0, h1]
    · have := (h _).2 ((Mem.at_eq_iff hn h1).1 rfl)
      exact (Mem.at_eq_iff hm h1).2 this
  · have := (h _).1 ((Mem.at_eq_iff hm h0).1 rfl)
    exact ((Mem.at_eq_iff hn h0).2 this).symm

/-! ## The canonical form -/

theorem Mem.mem_cells {a : Nat} {bs : Bytes} {k : Nat} {v : Byte} :
    (k, v) ∈ Mem.cells a bs ↔ v ≠ 0 ∧ a ≤ k ∧ bs[k - a]? = some v := by
  induction bs generalizing a with
  | nil => simp [Mem.cells]
  | cons b r ih =>
    simp only [Mem.cells]
    split
    · next hb =>
      rw [ih]
      constructor
      · rintro ⟨hv, hk, hg⟩
        refine ⟨hv, by omega, ?_⟩
        rw [show k - a = (k - (a + 1)) + 1 by omega]; simpa using hg
      · rintro ⟨hv, hk, hg⟩
        rcases Nat.eq_or_lt_of_le hk with he | he
        · subst he; simp at hg; exact absurd hg.symm (by rw [hb]; exact hv)
        · refine ⟨hv, by omega, ?_⟩
          rw [show k - a = (k - (a + 1)) + 1 by omega] at hg; simpa using hg
    · next hb =>
      rw [List.mem_cons, ih]
      constructor
      · rintro (he | ⟨hv, hk, hg⟩)
        · simp only [Prod.mk.injEq] at he
          obtain ⟨rfl, rfl⟩ := he
          exact ⟨hb, Nat.le_refl _, by simp⟩
        · refine ⟨hv, by omega, ?_⟩
          rw [show k - a = (k - (a + 1)) + 1 by omega]; simpa using hg
      · rintro ⟨hv, hk, hg⟩
        rcases Nat.eq_or_lt_of_le hk with he | he
        · subst he; simp at hg; left; rw [hg]
        · right
          refine ⟨hv, by omega, ?_⟩
          rw [show k - a = (k - (a + 1)) + 1 by omega] at hg; simpa using hg

theorem Mem.cells_sorted (a : Nat) (bs : Bytes) : (Mem.cells a bs).Pairwise (fun x y => x.1 < y.1) := by
  induction bs generalizing a with
  | nil => simp [Mem.cells]
  | cons b r ih =>
    simp only [Mem.cells]
    split
    · exact ih _
    · refine List.pairwise_cons.2 ⟨?_, ih _⟩
      rintro ⟨k, v⟩ hk
      have := (Mem.mem_cells.1 hk).2.1
      simp only; omega

theorem Mem.mem_write {m : List Host.Cell} {a : Nat} {bs : Bytes} {k : Nat} {v : Byte} :
    (k, v) ∈ Mem.write m a bs ↔ ((k, v) ∈ m ∧ (k < a ∨ a + bs.length ≤ k)) ∨ (v ≠ 0 ∧ a ≤ k ∧ bs[k - a]? = some v) := by
  simp only [Mem.write, List.mem_append, List.mem_filter, decide_eq_true_eq, Mem.mem_cells]
  tauto

theorem Mem.lt_of_cell {a : Nat} {bs : Bytes} {k : Nat} {v : Byte} (h : (k, v) ∈ Mem.cells a bs) : a ≤ k ∧ k < a + bs.length := by
  obtain ⟨_, hk, hg⟩ := Mem.mem_cells.1 h
  have := (List.getElem?_eq_some_iff.1 hg).1
  omega

/-- A write keeps the canonical form. -/
theorem Mem.wf_write {m : List Host.Cell} (h : Mem.wf m = true) (a : Nat) (bs : Bytes) : Mem.wf (Mem.write m a bs) = true := by
  obtain ⟨hs, hv⟩ := Map.wf_iff.1 h
  refine Map.wf_iff.2 ⟨?_, ?_⟩
  · rw [Mem.write, List.pairwise_append, List.pairwise_append]
    refine ⟨⟨hs.filter _, Mem.cells_sorted a bs, ?_⟩, hs.filter _, ?_⟩
    · rintro x hx ⟨k, v⟩ hy
      have := Mem.lt_of_cell hy
      simp only [List.mem_filter, decide_eq_true_eq] at hx
      simp only; omega
    · rintro x hx ⟨k, v⟩ hy
      simp only [List.mem_filter, decide_eq_true_eq] at hy
      rcases List.mem_append.1 hx with hx | hx
      · simp only [List.mem_filter, decide_eq_true_eq] at hx
        simp only; omega
      · obtain ⟨i, w⟩ := x
        have := Mem.lt_of_cell hx
        simp only; omega
  · rintro ⟨k, v⟩ he
    rcases Mem.mem_write.1 he with ⟨hm, _⟩ | ⟨hv', _⟩
    · exact hv _ hm
    · exact hv'

/-- Zeroing keeps the canonical form. -/
theorem Mem.wf_zero {m : List Host.Cell} (h : Mem.wf m = true) (a n : Nat) : Mem.wf (Mem.zero m a n) = true := by
  obtain ⟨hs, hv⟩ := Map.wf_iff.1 h
  refine Map.wf_iff.2 ⟨?_, ?_⟩
  · rw [Mem.zero, List.pairwise_append]
    refine ⟨hs.filter _, hs.filter _, ?_⟩
    rintro x hx y hy
    simp only [List.mem_filter, decide_eq_true_eq] at hx hy
    omega
  · intro e he
    simp only [Mem.zero, List.mem_append, List.mem_filter] at he
    rcases he with he | he
    · exact hv _ he.1
    · exact hv _ he.1

theorem Mem.wf_put {m : List Host.Cell} (h : Mem.wf m = true) (k : Nat) (v : Byte) : Mem.wf (Map.put 0 m k v) = true :=
  Map.wf_put k v h

/-- What `norm` answers is in the canonical form. -/
@[simp] theorem Mem.wf_norm (m : List Host.Cell) : Mem.wf (Mem.norm m) = true := by
  unfold Mem.norm
  split
  · assumption
  · have : ∀ (l acc : List Host.Cell), Mem.wf acc = true → Mem.wf (l.foldl (fun acc c => Map.put 0 acc c.1 c.2) acc) = true := by
      intro l
      induction l with
      | nil => exact fun _ h => h
      | cons c r ih => exact fun acc h => ih _ (Mem.wf_put h c.1 c.2)
    exact this m [] rfl

/-- Memory already in the canonical form stays as it is. -/
theorem Mem.norm_of_wf {m : List Host.Cell} (h : Mem.wf m = true) : Mem.norm m = m := by
  unfold Mem.norm; rw [if_pos h]

/-! ## Reads after writes -/

/-- A byte inside what was written reads as written. -/
theorem Mem.at_write_in {m : List Host.Cell} (h : Mem.wf m = true) {a : Nat} {bs : Bytes} {k : Nat} {b : Byte} (hk : a ≤ k)
    (hb : bs[k - a]? = some b) : Mem.at (Mem.write m a bs) k = b := by
  have hlt := (List.getElem?_eq_some_iff.1 hb).1
  by_cases h0 : b = 0
  · by_contra hne
    have hne' : Mem.at (Mem.write m a bs) k ≠ 0 := by rw [h0] at hne; exact hne
    have := (Mem.at_eq_iff (Mem.wf_write h a bs) hne').1 rfl
    rcases Mem.mem_write.1 this with ⟨_, hx⟩ | ⟨_, _, hg⟩
    · omega
    · rw [hb] at hg; exact hne (Option.some.inj hg).symm
  · exact (Mem.at_eq_iff (Mem.wf_write h a bs) h0).2 (Mem.mem_write.2 (.inr ⟨h0, hk, hb⟩))

/-- A byte outside what was written stays. -/
theorem Mem.at_write_out {m : List Host.Cell} (h : Mem.wf m = true) {a : Nat} {bs : Bytes} {k : Nat}
    (hk : k < a ∨ a + bs.length ≤ k) : Mem.at (Mem.write m a bs) k = Mem.at m k := by
  refine Mem.at_congr (Mem.wf_write h a bs) h (fun b => ?_)
  rw [Mem.mem_write]
  constructor
  · rintro (⟨hm, _⟩ | ⟨_, ha, hg⟩)
    · exact hm
    · have := (List.getElem?_eq_some_iff.1 hg).1; omega
  · exact fun hm => .inl ⟨hm, hk⟩

/-- A byte outside what was zeroed stays, and one inside reads 0. -/
theorem Mem.at_zero {m : List Host.Cell} (h : Mem.wf m = true) {a n k : Nat} :
    Mem.at (Mem.zero m a n) k = if a ≤ k ∧ k < a + n then 0 else Mem.at m k := by
  have hmem : ∀ b, (k, b) ∈ Mem.zero m a n ↔ (k, b) ∈ m ∧ (k < a ∨ a + n ≤ k) := by
    intro b
    simp only [Mem.zero, List.mem_append, List.mem_filter, decide_eq_true_eq]
    tauto
  split
  · next hk =>
    by_contra hne
    have := (hmem _).1 ((Mem.at_eq_iff (Mem.wf_zero h a n) hne).1 rfl)
    omega
  · next hk =>
    refine Mem.at_congr (Mem.wf_zero h a n) h (fun b => ?_)
    rw [hmem]
    exact ⟨fun x => x.1, fun x => ⟨x, by omega⟩⟩

/-- The bytes that a read of canonical memory gives. -/
theorem Mem.readFrom_eq {m : List Host.Cell} (h : Mem.wf m = true) (a n : Nat) :
    Mem.readFrom m a n = (List.range n).map (fun i => Mem.at m (a + i)) := by
  induction m generalizing a n with
  | nil =>
    cases n with
    | zero => rfl
    | succ n =>
      rw [Mem.readFrom]
      · refine List.ext_getElem (by simp) ?_
        intro i h1 h2
        simp [Mem.at, Map.get, Map.find]
      · simp
  | cons e r ih =>
    obtain ⟨j, v⟩ := e
    obtain ⟨hv, ha, hr⟩ := Map.wf_cons.1 h
    cases n with
    | zero => rfl
    | succ n =>
      rw [Mem.readFrom]
      · split
        · next hj =>
          rw [ih hr]
          refine List.map_congr_left (fun i _ => ?_)
          simp [Mem.at, Map.get, Map.find, show j ≠ a + i by omega]
        · next hj =>
          have hlow : ∀ i, a + i < j → Mem.at ((j, v) :: r) (a + i) = 0 := by
            intro i hi
            simp only [Mem.at, Map.get, Map.find, show j ≠ a + i by omega, if_false]
            rw [Map.find_above ha (by omega)]; rfl
          simp only []
          split
          · next hn =>
            refine List.ext_getElem (by simp; omega) ?_
            intro i h1 h2
            simp at h2
            simp [hlow i (by omega)]
          · next hn =>
            have hg : min (j - a) (n + 1) = j - a := by omega
            rw [hg, ih hr]
            refine List.ext_getElem (by simp; omega) ?_
            intro i h1 h2
            simp at h2
            rw [List.getElem_map, List.getElem_range]
            rcases Nat.lt_trichotomy i (j - a) with hi | hi | hi
            · rw [List.getElem_append_left (by simpa using hi)]
              simp [hlow i (by omega)]
            · rw [List.getElem_append_right (by simp; omega)]
              simp only [List.length_replicate, hi, Nat.sub_self, List.getElem_cons_zero]
              simp [Mem.at, Map.get, Map.find, show a + (j - a) = j by omega]
            · rw [List.getElem_append_right (by simp; omega)]
              simp only [List.length_replicate]
              obtain ⟨t, ht⟩ : ∃ t, i - (j - a) = t + 1 := ⟨i - (j - a) - 1, by omega⟩
              simp only [ht, List.getElem_cons_succ, List.getElem_map, List.getElem_range]
              simp [Mem.at, Map.get, Map.find, show j ≠ a + i by omega, show j + 1 + t = a + i by omega]
      · simp

theorem Dev.read_mem (d : Dev) (a n : Nat) : d.read a n = Mem.readFrom d.mem a n := rfl
@[simp] theorem Dev.write_mem (d : Dev) (a : Nat) (bs : Bytes) : (d.write a bs).mem = Mem.write d.mem a bs := rfl

/-- What was written at an address is read there. -/
theorem Dev.read_write_same {d : Dev} (h : Mem.wf d.mem = true) (a : Nat) (bs : Bytes) : (d.write a bs).read a bs.length = bs := by
  rw [Dev.read_mem, Dev.write_mem, Mem.readFrom_eq (Mem.wf_write h a bs)]
  refine List.ext_getElem (by simp) ?_
  intro i h1 h2
  rw [List.getElem_map, List.getElem_range]
  exact Mem.at_write_in h (by omega) (by rw [show a + i - a = i by omega]; exact List.getElem?_eq_getElem h2)

/-- Bytes apart from those written read as before. -/
theorem Dev.read_write_apart {d : Dev} (h : Mem.wf d.mem = true) {a : Nat} {bs : Bytes} {b n : Nat}
    (hab : b + n ≤ a ∨ a + bs.length ≤ b) : (d.write a bs).read b n = d.read b n := by
  rw [Dev.read_mem, Dev.read_mem, Dev.write_mem, Mem.readFrom_eq (Mem.wf_write h a bs), Mem.readFrom_eq h]
  refine List.map_congr_left (fun i hi => ?_)
  exact Mem.at_write_out h (by rw [List.mem_range] at hi; omega)

end Sys2Proof.Machine
end

