-- ==== Sys2Proof/Laws/Regs.lean ====
section
/-! SUPPORT. The laws of registers and their fields: a register reads what was written to it, and no write reaches another register or
another field. -/

namespace Sys2Proof.Machine

/-- Registers are read from `regs` alone. -/
theorem Dev.word_congr {d e : Dev} (h : e.regs = d.regs) (off : Nat) : e.word off = d.word off := by
  unfold Dev.word; rw [h]

theorem Dev.get_congr {d e : Dev} (h : e.regs = d.regs) (r : FRef) : e.get r = d.get r := by
  unfold Dev.get; rw [Dev.word_congr h]

theorem Dev.setWord_regs (d : Dev) (off : Nat) (w : Word) : (d.setWord off w).regs = Map.put (regReset off) d.regs off w := rfl

theorem Dev.word_eq_get (d : Dev) (off : Nat) : d.word off = Map.get (regReset off) d.regs off := by
  unfold Dev.word Map.get
  cases Map.find d.regs off <;> rfl

@[simp] theorem Dev.word_setWord_same (d : Dev) (off : Nat) (w : Word) : (d.setWord off w).word off = w := by
  rw [Dev.word_eq_get, Dev.setWord_regs, Map.get_put_same]

@[simp] theorem Dev.word_setWord_other (d : Dev) {off o : Nat} (w : Word) (h : o ≠ off) : (d.setWord off w).word o = d.word o := by
  unfold Dev.word
  have : Map.find (d.setWord off w).regs o = Map.find d.regs o := by
    rw [Dev.setWord_regs]
    unfold Map.put
    split
    · exact Map.find_erase_other h
    · exact Map.find_insert_other h
  rw [this]

@[simp] theorem Dev.word_set_other (d : Dev) {r : FRef} (v : Nat) {o : Nat} (h : o ≠ r.off) : (d.set r v).word o = d.word o :=
  Dev.word_setWord_other d _ h

/-- A field reads what was written to it. -/
theorem Dev.get_set_same (d : Dev) (r : FRef) (v : Nat) (h : r.lo ≤ r.hi) (h64 : r.hi < 64) :
    (d.set r v).get r = v % 2 ^ (r.hi + 1 - r.lo) := by
  unfold Dev.get Dev.set
  rw [Dev.word_setWord_same, getBits_setBits_same h h64]

/-- A field of another register stays. -/
@[simp] theorem Dev.get_set_off (d : Dev) (r q : FRef) (v : Nat) (h : q.off ≠ r.off) : (d.set r v).get q = d.get q := by
  unfold Dev.get
  rw [Dev.word_set_other d v h]

/-- A field of the same register, apart from the one written, stays. -/
theorem Dev.get_set_apart (d : Dev) (r q : FRef) (v : Nat) (h : r.lo ≤ r.hi) (h64 : r.hi < 64) (hq : q.lo ≤ q.hi)
    (ha : r.hi < q.lo ∨ q.hi < r.lo) : (d.set r v).get q = d.get q := by
  by_cases he : q.off = r.off
  · unfold Dev.get Dev.set
    rw [he, Dev.word_setWord_same]
    rcases ha with ha | ha
    · exact getBits_setBits_above h h64 ha
    · exact getBits_setBits_below h h64 hq ha
  · exact Dev.get_set_off d r q v he

@[simp] theorem Dev.get_setWord_other (d : Dev) {off : Nat} (w : Word) (q : FRef) (h : q.off ≠ off) :
    (d.setWord off w).get q = d.get q := by
  unfold Dev.get; rw [Dev.word_setWord_other d w h]

theorem Dev.get_setWord_same (d : Dev) (w : Word) (q : FRef) : (d.setWord q.off w).get q = getBits w q.hi q.lo := by
  unfold Dev.get; rw [Dev.word_setWord_same]

/-- Whether a field is not 0, after it was written. -/
theorem Dev.has_set_same (d : Dev) (r : FRef) (v : Nat) (h : r.lo ≤ r.hi) (h64 : r.hi < 64) :
    (d.set r v).has r = (v % 2 ^ (r.hi + 1 - r.lo) != 0) := by
  unfold Dev.has; rw [Dev.get_set_same d r v h h64]

/-- A saturating counter field below its largest value rises by what is added. -/
theorem Dev.get_add (d : Dev) (r : FRef) (n : Nat) (h : r.lo ≤ r.hi) (h64 : r.hi < 64) :
    (d.add r n).get r = min (d.get r + n) (2 ^ (r.hi + 1 - r.lo) - 1) := by
  unfold Dev.add
  rw [Dev.get_set_same d r _ h h64]
  exact Nat.mod_eq_of_lt (lt_of_le_of_lt (Nat.min_le_right _ _) (Nat.sub_lt (by positivity) (by decide)))

theorem Dev.addWord_word (d : Dev) (off n : Nat) :
    ((d.addWord off n).word off).toNat = min ((d.word off).toNat + n) (2 ^ 64 - 1) := by
  unfold Dev.addWord
  rw [Dev.word_setWord_same, BitVec.toNat_ofNat]
  exact Nat.mod_eq_of_lt (lt_of_le_of_lt (Nat.min_le_right _ _) (by decide))

end Sys2Proof.Machine
end

