-- ==== Sys2Proof/Laws/Commit.lean ====
section
/-! SUPPORT. What the end of a command does to the device: memory takes its canonical form, the interrupt signals are sampled, the trace may
grow, and nothing else changes. -/

namespace Sys2Proof.Machine

/-- `e` differs from `d` at most in the interrupt controller and the trace. -/
def Dev.sameBut (d e : Dev) : Prop := e = { d with irq := e.irq, lgr := { d.lgr with trace := e.lgr.trace } }

theorem Dev.sameBut_refl (d : Dev) : d.sameBut d := rfl

theorem Dev.sameBut_trans {d e f : Dev} (h : d.sameBut e) (g : e.sameBut f) : d.sameBut f := by
  unfold Dev.sameBut at *
  rw [h] at g
  exact g

theorem Dev.sameBut_trace (d : Dev) (kind fn block : Nat) (st : Status) (x y : Nat) : d.sameBut (d.trace kind fn block st x y) := rfl

theorem Dev.sameBut_irq (d : Dev) (q : Irq) : d.sameBut { d with irq := q } := rfl

theorem Dev.sameBut_pendSource (d : Dev) (s : Nat) (t h : Bool) : d.sameBut (d.pendSource s t h) := by
  unfold Dev.pendSource
  simp only []
  split
  · rfl
  · rfl

theorem Dev.sameBut_countSource (d : Dev) (s n : Nat) : d.sameBut (d.countSource s n) := rfl

theorem Dev.sameBut_judge (d : Dev) (s : Nat) (was now : Bool) (n : Nat) : d.sameBut (d.judge s was now n) := by
  have h : d.sameBut (if now && !was then d.countSource s n else d) := by
    split
    · exact Dev.sameBut_countSource d s n
    · exact Dev.sameBut_refl d
  unfold Dev.judge
  simp only []
  generalize (if now && !was then d.countSource s n else d) = e at h ⊢
  refine Dev.sameBut_trans h ?_
  split <;> first | exact Dev.sameBut_pendSource _ _ _ _ | exact Dev.sameBut_refl _

theorem Dev.sameBut_foldl {α : Type} (g : Dev → α → Dev) (h : ∀ (d : Dev) (x : α), d.sameBut (g d x)) (l : List α) (d : Dev) :
    d.sameBut (l.foldl g d) := by
  induction l generalizing d with
  | nil => exact Dev.sameBut_refl d
  | cons x r ih => exact Dev.sameBut_trans (h d x) (ih _)

theorem Dev.sameBut_sample (d : Dev) : d.sameBut d.sample := by
  unfold Dev.sample
  simp only []
  exact Dev.sameBut_trans (Dev.sameBut_foldl _ (fun d s => Dev.sameBut_judge d s _ _ _) _ d) (Dev.sameBut_irq _ _)

/-- The end of a command changes memory's form, the interrupt controller and the trace alone. -/
theorem Dev.commit_eq (d : Dev) :
    d.commit = { d with
      mem := Mem.norm d.mem
      irq := d.commit.irq
      lgr := { d.lgr with trace := d.commit.lgr.trace } } := by
  unfold Dev.commit
  simp only []
  split
  · exact Dev.sameBut_sample { d with mem := Mem.norm d.mem }
  · rfl

@[simp] theorem Dev.commit_regs (d : Dev) : d.commit.regs = d.regs := by rw [Dev.commit_eq]
@[simp] theorem Dev.commit_clk (d : Dev) : d.commit.clk = d.clk := by rw [Dev.commit_eq]
@[simp] theorem Dev.commit_timers (d : Dev) : d.commit.timers = d.timers := by rw [Dev.commit_eq]
@[simp] theorem Dev.commit_resp (d : Dev) : d.commit.resp = d.resp := by rw [Dev.commit_eq]
@[simp] theorem Dev.commit_sent (d : Dev) : d.commit.sent = d.sent := by rw [Dev.commit_eq]
@[simp] theorem Dev.commit_free (d : Dev) : d.commit.free = d.free := by rw [Dev.commit_eq]
@[simp] theorem Dev.commit_mgt (d : Dev) : d.commit.mgt = d.mgt := by rw [Dev.commit_eq]
@[simp] theorem Dev.commit_sec (d : Dev) : d.commit.sec = d.sec := by rw [Dev.commit_eq]
@[simp] theorem Dev.commit_pwr (d : Dev) : d.commit.pwr = d.pwr := by rw [Dev.commit_eq]
@[simp] theorem Dev.commit_tim (d : Dev) : d.commit.tim = d.tim := by rw [Dev.commit_eq]
@[simp] theorem Dev.commit_fab (d : Dev) : d.commit.fab = d.fab := by rw [Dev.commit_eq]
@[simp] theorem Dev.commit_xpt (d : Dev) : d.commit.xpt = d.xpt := by rw [Dev.commit_eq]
@[simp] theorem Dev.commit_med (d : Dev) : d.commit.med = d.med := by rw [Dev.commit_eq]
@[simp] theorem Dev.commit_thr (d : Dev) : d.commit.thr = d.thr := by rw [Dev.commit_eq]
@[simp] theorem Dev.commit_col (d : Dev) : d.commit.col = d.col := by rw [Dev.commit_eq]
@[simp] theorem Dev.commit_seq (d : Dev) : d.commit.seq = d.seq := by rw [Dev.commit_eq]
@[simp] theorem Dev.commit_mem (d : Dev) : d.commit.mem = Mem.norm d.mem := by rw [Dev.commit_eq]
@[simp] theorem Dev.commit_lgr_errors (d : Dev) : d.commit.lgr.errors = d.lgr.errors := by rw [Dev.commit_eq]
@[simp] theorem Dev.commit_lgr_ports (d : Dev) : d.commit.lgr.ports = d.lgr.ports := by rw [Dev.commit_eq]
@[simp] theorem Dev.commit_lgr_latch (d : Dev) : d.commit.lgr.latch = d.lgr.latch := by rw [Dev.commit_eq]
@[simp] theorem Dev.commit_lgr_queue (d : Dev) : d.commit.lgr.queue = d.lgr.queue := by rw [Dev.commit_eq]
@[simp] theorem Dev.commit_lgr_replies (d : Dev) : d.commit.lgr.replies = d.lgr.replies := by rw [Dev.commit_eq]
@[simp] theorem Dev.commit_lgr_accepted (d : Dev) : d.commit.lgr.accepted = d.lgr.accepted := by rw [Dev.commit_eq]

@[simp] theorem Dev.commit_word (d : Dev) (off : Nat) : d.commit.word off = d.word off := Dev.word_congr (Dev.commit_regs d) off
@[simp] theorem Dev.commit_get (d : Dev) (r : FRef) : d.commit.get r = d.get r := Dev.get_congr (Dev.commit_regs d) r
@[simp] theorem Dev.commit_has (d : Dev) (r : FRef) : d.commit.has r = d.has r := by unfold Dev.has; rw [Dev.commit_get]

/-- Memory is in its canonical form after every command. -/
theorem Dev.commit_wf (d : Dev) : Mem.wf d.commit.mem = true := by rw [Dev.commit_mem]; exact Mem.wf_norm d.mem

/-- A device whose memory is canonical keeps it through the end of a command. -/
theorem Dev.commit_read {d : Dev} (h : Mem.wf d.mem = true) (a n : Nat) : d.commit.read a n = d.read a n := by
  rw [Dev.read_mem, Dev.read_mem, Dev.commit_mem, Mem.norm_of_wf h]

/-- The signals that are 1, as the controller keeps them. -/
def Dev.signalList (d : Dev) : List Nat := d.signals.foldl (fun l x => insNat x.1 l) []

theorem Dev.signals_congr {d e : Dev} (h : e.regs = d.regs) : e.signals = d.signals := by unfold Dev.signals; rw [h]

/-- While firmware runs, every command ends with the state signals sampled. -/
theorem Dev.commit_sig {d : Dev} (h : d.pwr.phase = .running) : d.commit.irq.sig = d.commit.signals.foldl (fun l x => insNat x.1 l) [] := by
  rw [Dev.signals_congr (Dev.commit_regs d)]
  unfold Dev.commit
  simp only []
  rw [if_pos h]
  rfl

end Sys2Proof.Machine
end

