-- ==== Sys2Proof/Laws/Step.lean ====
section
/-! SUPPORT. What a step can do: every command acts on the device, within its domain, and leaves the queue as it is. -/

namespace Sys2Proof.Machine

/-- Every command is an effect on the device within the command's domain. -/
theorem exec_act (c : Instr) (s : State) : ∃ f : Dev → Dev, exec c s = s.act (domainOf c) f := by
  cases c <;> simp only [exec, domainOf]
  · unfold execRegisterWrite; exact ⟨_, rfl⟩
  · unfold execDeviceTick; exact ⟨_, rfl⟩
  · unfold execSteepBoundary; exact ⟨_, rfl⟩
  · unfold execOverrun; exact ⟨_, rfl⟩
  · unfold execScheduleLost; exact ⟨_, rfl⟩
  · unfold execLoadDevice; exact ⟨_, rfl⟩
  · unfold execLoadFunction; exact ⟨_, rfl⟩
  · unfold execChangeFunction; exact ⟨_, rfl⟩
  · unfold execUnloadFunction; exact ⟨_, rfl⟩
  · unfold execLoaderOpInvalid; exact ⟨_, rfl⟩
  · unfold execLoadAbort; exact ⟨_, rfl⟩
  · unfold execLoaderChecksDone; exact ⟨_, rfl⟩
  · unfold execTickArm; exact ⟨_, rfl⟩
  · unfold execTickRearmWrite; exact ⟨_, rfl⟩
  · unfold execStart; exact ⟨_, rfl⟩
  · unfold execStop; exact ⟨_, rfl⟩
  · unfold execFnCmdInvalid; exact ⟨_, rfl⟩
  · unfold execKill; exact ⟨_, rfl⟩
  · unfold execStage; exact ⟨_, rfl⟩
  · unfold execChannelGranuleWrite; exact ⟨_, rfl⟩
  · unfold execChannelCreditReturn; exact ⟨_, rfl⟩
  · unfold execSpliceGranule; exact ⟨_, rfl⟩
  · unfold execAssemblerGranule; exact ⟨_, rfl⟩
  · unfold execShardDelivery; exact ⟨_, rfl⟩
  · unfold execManifestSign; exact ⟨_, rfl⟩
  · unfold execMediaCodewordRead; exact ⟨_, rfl⟩
  · unfold execMediaWindowRead; exact ⟨_, rfl⟩
  · unfold execNandCommandTimeout; exact ⟨_, rfl⟩
  · unfold execParityProgram; exact ⟨_, rfl⟩
  · unfold execBlockRefresh; exact ⟨_, rfl⟩
  · unfold execBlockRepair; exact ⟨_, rfl⟩
  · unfold execRelocationCommit; exact ⟨_, rfl⟩
  · unfold execMapFloorWrite; exact ⟨_, rfl⟩
  · unfold execMapFloorFreeDone; exact ⟨_, rfl⟩
  · unfold execReadCountSave; exact ⟨_, rfl⟩
  · unfold execGcRun; exact ⟨_, rfl⟩
  · unfold execGcMapUpdate; exact ⟨_, rfl⟩
  · unfold execMediaStartup; exact ⟨_, rfl⟩
  · unfold execHealthLogSave; exact ⟨_, rfl⟩
  · unfold execTempHistoryRecord; exact ⟨_, rfl⟩
  · unfold execRead stcCommand; exact ⟨_, rfl⟩
  · unfold execWrite stcCommand; exact ⟨_, rfl⟩
  · unfold execFlush stcCommand; exact ⟨_, rfl⟩
  · unfold execDeallocate stcCommand; exact ⟨_, rfl⟩
  · unfold execNsCreate stcCommand; exact ⟨_, rfl⟩
  · unfold execNsDelete stcCommand; exact ⟨_, rfl⟩
  · unfold execNsList stcCommand; exact ⟨_, rfl⟩
  · unfold execIdentify stcCommand; exact ⟨_, rfl⟩
  · unfold execHealth stcCommand; exact ⟨_, rfl⟩
  · unfold execMapExport stcCommand; exact ⟨_, rfl⟩
  · unfold execSeal stcCommand; exact ⟨_, rfl⟩
  · unfold execStcOpcodeInvalid; exact ⟨_, rfl⟩
  · unfold execStcGoRejected; exact ⟨_, rfl⟩
  · unfold execStcCommandComplete; exact ⟨_, rfl⟩
  · unfold execPowerRequestP0 powerCommand; exact ⟨_, rfl⟩
  · unfold execPowerRequestP1 powerCommand; exact ⟨_, rfl⟩
  · unfold execPowerRequestP2 powerCommand; exact ⟨_, rfl⟩
  · unfold execPowerRequestP3 powerCommand; exact ⟨_, rfl⟩
  · unfold execPowerEntryCommit; exact ⟨_, rfl⟩
  · unfold execHbmSelfRefreshEntry; exact ⟨_, rfl⟩
  · unfold execRcxFrameHeader; exact ⟨_, rfl⟩
  · unfold execRcxBlockDecode; exact ⟨_, rfl⟩
  · unfold execRcxFrameTrailer; exact ⟨_, rfl⟩
  · unfold execRcxCompressSample; exact ⟨_, rfl⟩
  · unfold execVdeSampleStart; exact ⟨_, rfl⟩
  · unfold execVdePictureDecode; exact ⟨_, rfl⟩
  · unfold execVdeContextSave; exact ⟨_, rfl⟩
  · unfold execJpgScanDecode; exact ⟨_, rfl⟩
  · unfold execImgPicture; exact ⟨_, rfl⟩
  · unfold execRegionTableArrival; exact ⟨_, rfl⟩
  · unfold execBpeRun; exact ⟨_, rfl⟩
  · unfold execMaskChunkHeader; exact ⟨_, rfl⟩
  · unfold execMaskToken; exact ⟨_, rfl⟩
  · unfold execDetokToken; exact ⟨_, rfl⟩
  · unfold execQueueItemAdmit; exact ⟨_, rfl⟩
  · unfold execAttemptStart; exact ⟨_, rfl⟩
  · unfold execItemSteal; exact ⟨_, rfl⟩
  · unfold execCoreWithdraw; exact ⟨_, rfl⟩
  · unfold execCoreRestore; exact ⟨_, rfl⟩
  · unfold execCoreFailure; exact ⟨_, rfl⟩
  · unfold execAlu0 gtcStep; exact ⟨_, rfl⟩
  · unfold execAlu1 gtcStep; exact ⟨_, rfl⟩
  · unfold execAlu2 gtcStep; exact ⟨_, rfl⟩
  · unfold execAddi gtcStep; exact ⟨_, rfl⟩
  · unfold execAndi gtcStep; exact ⟨_, rfl⟩
  · unfold execOri gtcStep; exact ⟨_, rfl⟩
  · unfold execXori gtcStep; exact ⟨_, rfl⟩
  · unfold execShifti gtcStep; exact ⟨_, rfl⟩
  · unfold execMovi gtcStep; exact ⟨_, rfl⟩
  · unfold execLit gtcStep; exact ⟨_, rfl⟩
  · unfold execCmp gtcStep; exact ⟨_, rfl⟩
  · unfold execPlog gtcStep; exact ⟨_, rfl⟩
  · unfold execSrd gtcStep; exact ⟨_, rfl⟩
  · unfold execSwr gtcStep; exact ⟨_, rfl⟩
  · unfold execDraw gtcStep; exact ⟨_, rfl⟩
  · unfold execFp32 gtcStep; exact ⟨_, rfl⟩
  · unfold execFp64 gtcStep; exact ⟨_, rfl⟩
  · unfold execFcmp gtcStep; exact ⟨_, rfl⟩
  · unfold execFcvt gtcStep; exact ⟨_, rfl⟩
  · unfold execLdu8 gtcStep; exact ⟨_, rfl⟩
  · unfold execLds8 gtcStep; exact ⟨_, rfl⟩
  · unfold execLdu16 gtcStep; exact ⟨_, rfl⟩
  · unfold execLds16 gtcStep; exact ⟨_, rfl⟩
  · unfold execLdu32 gtcStep; exact ⟨_, rfl⟩
  · unfold execLds32 gtcStep; exact ⟨_, rfl⟩
  · unfold execLd64 gtcStep; exact ⟨_, rfl⟩
  · unfold execSt8 gtcStep; exact ⟨_, rfl⟩
  · unfold execSt16 gtcStep; exact ⟨_, rfl⟩
  · unfold execSt32 gtcStep; exact ⟨_, rfl⟩
  · unfold execSt64 gtcStep; exact ⟨_, rfl⟩
  · unfold execVld gtcStep; exact ⟨_, rfl⟩
  · unfold execVst gtcStep; exact ⟨_, rfl⟩
  · unfold execAtom gtcStep; exact ⟨_, rfl⟩
  · unfold execFatom gtcStep; exact ⟨_, rfl⟩
  · unfold execXadd gtcStep; exact ⟨_, rfl⟩
  · unfold execFence gtcStep; exact ⟨_, rfl⟩
  · unfold execWait gtcStep; exact ⟨_, rfl⟩
  · unfold execWaitConditionMet; exact ⟨_, rfl⟩
  · unfold execWaitTimeout; exact ⟨_, rfl⟩
  · unfold execBar gtcStep; exact ⟨_, rfl⟩
  · unfold execVarith gtcStep; exact ⟨_, rfl⟩
  · unfold execVlogic gtcStep; exact ⟨_, rfl⟩
  · unfold execVcmp gtcStep; exact ⟨_, rfl⟩
  · unfold execVred gtcStep; exact ⟨_, rfl⟩
  · unfold execVcvt gtcStep; exact ⟨_, rfl⟩
  · unfold execVmove gtcStep; exact ⟨_, rfl⟩
  · unfold execTzero gtcStep; exact ⟨_, rfl⟩
  · unfold execTload gtcStep; exact ⟨_, rfl⟩
  · unfold execTstore gtcStep; exact ⟨_, rfl⟩
  · unfold execTmma gtcStep; exact ⟨_, rfl⟩
  · unfold execBr gtcStep; exact ⟨_, rfl⟩
  · unfold execCall gtcStep; exact ⟨_, rfl⟩
  · unfold execJr gtcStep; exact ⟨_, rfl⟩
  · unfold execDone gtcStep; exact ⟨_, rfl⟩
  · unfold execHalt gtcStep; exact ⟨_, rfl⟩
  · unfold execNop gtcStep; exact ⟨_, rfl⟩
  · unfold execPortLaneLock; exact ⟨_, rfl⟩
  · unfold execDataFrame; exact ⟨_, rfl⟩
  · unfold execControlFrame; exact ⟨_, rfl⟩
  · unfold execReplayTimeout; exact ⟨_, rfl⟩
  · unfold execControlFrameSend; exact ⟨_, rfl⟩
  · unfold execLinkRxTimeout; exact ⟨_, rfl⟩
  · unfold execRetrainTimeout; exact ⟨_, rfl⟩
  · unfold execDownRetrain; exact ⟨_, rfl⟩
  · unfold execFrameTransmitStart; exact ⟨_, rfl⟩
  · unfold execEthFrame; exact ⟨_, rfl⟩
  · unfold execPortEnable; exact ⟨_, rfl⟩
  · unfold execNodeIdWrite; exact ⟨_, rfl⟩
  · unfold execFenceWrite; exact ⟨_, rfl⟩
  · unfold execRouteCommitGo; exact ⟨_, rfl⟩
  · unfold execCreate; exact ⟨_, rfl⟩
  · unfold execDestroy; exact ⟨_, rfl⟩
  · unfold execDestroyComplete; exact ⟨_, rfl⟩
  · unfold execQuery; exact ⟨_, rfl⟩
  · unfold execQpCmdInvalid; exact ⟨_, rfl⟩
  · unfold execOpen; exact ⟨_, rfl⟩
  · unfold execRevoke; exact ⟨_, rfl⟩
  · unfold execWindowClosed; exact ⟨_, rfl⟩
  · unfold execPdWrite; exact ⟨_, rfl⟩
  · unfold execPeerEntryWrite; exact ⟨_, rfl⟩
  · unfold execTcConfigWrite; exact ⟨_, rfl⟩
  · unfold execTransportRequestIssue; exact ⟨_, rfl⟩
  · unfold execTransportWrite; exact ⟨_, rfl⟩
  · unfold execReadReq; exact ⟨_, rfl⟩
  · unfold execAtomic; exact ⟨_, rfl⟩
  · unfold execReadResp; exact ⟨_, rfl⟩
  · unfold execAtomicResp; exact ⟨_, rfl⟩
  · unfold execAck; exact ⟨_, rfl⟩
  · unfold execNak; exact ⟨_, rfl⟩
  · unfold execGrant; exact ⟨_, rfl⟩
  · unfold execTransportRetransmitTimeout; exact ⟨_, rfl⟩
  · unfold execRnrWaitExpiry; exact ⟨_, rfl⟩
  · unfold execQpStateFetched; exact ⟨_, rfl⟩
  · unfold execRocePacket; exact ⟨_, rfl⟩
  · unfold execRoceAckTimeout; exact ⟨_, rfl⟩
  · unfold execCnp; exact ⟨_, rfl⟩
  · unfold execGateListGo; exact ⟨_, rfl⟩
  · unfold execGateListCommit; exact ⟨_, rfl⟩
  · unfold execGateEntryChange; exact ⟨_, rfl⟩
  · unfold execContrib; exact ⟨_, rfl⟩
  · unfold execResult; exact ⟨_, rfl⟩
  · unfold execFail; exact ⟨_, rfl⟩
  · unfold execLocalContributionReady; exact ⟨_, rfl⟩
  · unfold execInstall; exact ⟨_, rfl⟩
  · unfold execRemove; exact ⟨_, rfl⟩
  · unfold execColCmdInvalid; exact ⟨_, rfl⟩
  · unfold execColInstanceTimeout; exact ⟨_, rfl⟩
  · unfold execTimeExchangeSend; exact ⟨_, rfl⟩
  · unfold execSync; exact ⟨_, rfl⟩
  · unfold execDelayReq; exact ⟨_, rfl⟩
  · unfold execDelayResp; exact ⟨_, rfl⟩
  · unfold execSyncLossTimeout; exact ⟨_, rfl⟩
  · unfold execAccurateClear; exact ⟨_, rfl⟩
  · unfold execFtSet; exact ⟨_, rfl⟩
  · unfold execFtNsRead; exact ⟨_, rfl⟩
  · unfold execTimCtrlWrite; exact ⟨_, rfl⟩
  · unfold execPpsEdge; exact ⟨_, rfl⟩
  · unfold execArrive; exact ⟨_, rfl⟩
  · unfold execBarArrive; exact ⟨_, rfl⟩
  · unfold execBarRelease; exact ⟨_, rfl⟩
  · unfold execBarrierRelease; exact ⟨_, rfl⟩
  · unfold execCancel; exact ⟨_, rfl⟩
  · unfold execUncorrectableError; exact ⟨_, rfl⟩
  · unfold execHbmScrub; exact ⟨_, rfl⟩
  · unfold execFirmwareAssert; exact ⟨_, rfl⟩
  · unfold execDumpComplete; exact ⟨_, rfl⟩
  · unfold execDumpRelease; exact ⟨_, rfl⟩
  · unfold execLeaseExpiry; exact ⟨_, rfl⟩
  · unfold execHeartbeatSend; exact ⟨_, rfl⟩
  · unfold execHeartbeat; exact ⟨_, rfl⟩
  · unfold execNeighbourSilent; exact ⟨_, rfl⟩
  · unfold execRecoveryRecord; exact ⟨_, rfl⟩
  · unfold execRecoveryFence; exact ⟨_, rfl⟩
  · unfold execAdmitNode; exact ⟨_, rfl⟩
  · unfold execLease; exact ⟨_, rfl⟩
  · unfold execRecoveryKill; exact ⟨_, rfl⟩
  · unfold execRecoveryStart; exact ⟨_, rfl⟩
  · unfold execMembership; exact ⟨_, rfl⟩
  · unfold execWatchdogExpiry; exact ⟨_, rfl⟩
  · unfold execInterruptDelivery; exact ⟨_, rfl⟩
  · unfold execIntEoi; exact ⟨_, rfl⟩
  · unfold execIntPendWrite; exact ⟨_, rfl⟩
  · unfold execHostEoi; exact ⟨_, rfl⟩
  · unfold execHostLinkUp; exact ⟨_, rfl⟩
  · unfold execHostLinkDown; exact ⟨_, rfl⟩
  · unfold execRegRead; exact ⟨_, rfl⟩
  · unfold execRegWrite; exact ⟨_, rfl⟩
  · unfold execMemRead; exact ⟨_, rfl⟩
  · unfold execMemWrite; exact ⟨_, rfl⟩
  · unfold execDumpRead; exact ⟨_, rfl⟩
  · unfold execRecord; exact ⟨_, rfl⟩
  · unfold execHostOpInvalid; exact ⟨_, rfl⟩
  · unfold execRelayOpen; exact ⟨_, rfl⟩
  · unfold execRelayTableWrite; exact ⟨_, rfl⟩
  · unfold execMgtNetLink; exact ⟨_, rfl⟩
  · unfold execWriteSlot; exact ⟨_, rfl⟩
  · unfold execWriteSlotComplete; exact ⟨_, rfl⟩
  · unfold execUpdate; exact ⟨_, rfl⟩
  · unfold execHandoverComplete; exact ⟨_, rfl⟩
  · unfold execSelect; exact ⟨_, rfl⟩
  · unfold execFwOpInvalid; exact ⟨_, rfl⟩
  · unfold execRecordWrite; exact ⟨_, rfl⟩
  · unfold execRecordWriteComplete; exact ⟨_, rfl⟩
  · unfold execQuoteRequest; exact ⟨_, rfl⟩
  · unfold execQuoteComplete; exact ⟨_, rfl⟩
  · unfold execPowerOnReset; exact ⟨_, rfl⟩
  · unfold execWarmResetPin; exact ⟨_, rfl⟩
  · unfold execGlbResetWrite; exact ⟨_, rfl⟩
  · unfold execResetRelease; exact ⟨_, rfl⟩
  · unfold execClockFault; exact ⟨_, rfl⟩
  · unfold execClockFaultEnd; exact ⟨_, rfl⟩
  · unfold execSerdesRefclkLoss; exact ⟨_, rfl⟩
  · unfold execThermalSample; exact ⟨_, rfl⟩
  · unfold execRailFault; exact ⟨_, rfl⟩
  · unfold execThrottleUpdate; exact ⟨_, rfl⟩
  · unfold execVoltageDroop; exact ⟨_, rfl⟩
  · unfold execSmbusBlockRead; exact ⟨_, rfl⟩
  · unfold execPageProgram; exact ⟨_, rfl⟩
  · unfold execBlockErase; exact ⟨_, rfl⟩
  · unfold execUpdatePreparingEnd; exact ⟨_, rfl⟩
  · unfold execVoltageDroopEnd; exact ⟨_, rfl⟩

theorem State.act_open {s : State} {g : Domain} (f : Dev → Dev) (h : s.dev.open g = true) :
    s.act g f = .next { s with dev := (f s.dev).commit } := by
  unfold State.act; rw [if_pos h]

theorem State.act_closed {s : State} {g : Domain} (f : Dev → Dev) (h : s.dev.open g = false) : s.act g f = .next s := by
  unfold State.act; rw [if_neg (by rw [h]; exact Bool.false_ne_true)]

@[simp] theorem Dev.open_always (d : Dev) : d.open .always = true := rfl

theorem Dev.open_live {d : Dev} (h : d.pwr.phase = .running) : d.open .live = true := by
  simp [Dev.open, h]

theorem Dev.open_engine {d : Dev} (h : d.pwr.phase = .running) (hf : d.fatal = false) : d.open .engine = true := by
  simp [Dev.open, h, hf]

/-- A command of the firmware domain has its effect while firmware runs. -/
theorem becomes_live {c : Instr} {s : State} {f : Dev → Dev} {d : Dev} (hc : exec c s = s.act .live f) (h : s.Live) (hd : f s.dev = d) :
    Becomes c s d := by
  unfold Becomes; rw [hc, State.act_open _ (Dev.open_live h), hd]

/-- A command of the engines has its effect while firmware runs and nothing fatal has arisen. -/
theorem becomes_engine {c : Instr} {s : State} {f : Dev → Dev} {d : Dev} (hc : exec c s = s.act .engine f) (h : s.Works) (hd : f s.dev = d) :
    Becomes c s d := by
  unfold Becomes; rw [hc, State.act_open _ (Dev.open_engine h.1 h.2), hd]

/-- A command that always acts has its effect in every state. -/
theorem becomes_always {c : Instr} {s : State} {f : Dev → Dev} {d : Dev} (hc : exec c s = s.act .always f) (hd : f s.dev = d) :
    Becomes c s d := by
  unfold Becomes; rw [hc, State.act_open _ (Dev.open_always s.dev), hd]

/-- A command answers a next state with its queue as it was; where its domain is closed, the very same state. -/
theorem exec_cases (c : Instr) (s : State) :
    (s.dev.open (domainOf c) = true ∧ ∃ d : Dev, exec c s = .next { s with dev := d.commit }) ∨
    (s.dev.open (domainOf c) = false ∧ exec c s = .next s) := by
  obtain ⟨f, hf⟩ := exec_act c s
  cases h : s.dev.open (domainOf c) with
  | true => exact .inl ⟨rfl, f s.dev, by rw [hf, State.act_open f h]⟩
  | false => exact .inr ⟨rfl, by rw [hf, State.act_closed f h]⟩

/-- What a step can do. -/
theorem step_cases (s : State) :
    (s.pending = [] ∧ step s = .next { s with dev := s.dev.idle.commit }) ∨
    (∃ c r, s.pending = c :: r ∧ step s = exec c { s with pending := r }) := by
  unfold step
  cases h : s.pending with
  | nil => exact .inl ⟨rfl, rfl⟩
  | cons c r => exact .inr ⟨c, r, rfl, rfl⟩

end Sys2Proof.Machine
end

