-- ==== Sys2Proof/Laws/Gtc.lean ====
section
/-! SUPPORT. What an instruction of a GTC thread does where the thread stands at it: the one place that unfolds how instructions issue. -/

namespace Sys2Proof.Machine

/-- A thread that stands at an instruction whose guard holds carries out the instruction's effect. -/
theorem gtcRun_of_stands {s : State} {t : Nat} {i : Instr} {g : Guard} {f k : Nat} {a : Attempt} {th : Thread} {body : Cx → Eff}
    (h : s.Stands t i f k a th) (hg : th.Guarded g) :
    s.dev.gtcRun t i g body = s.dev.thrDo f k a (t - k) th (s.dev.codeWord f th.pc) (body ⟨s.dev, f, a, t - k, th⟩) := by
  obtain ⟨_, h1, h2, h3, h4, h5, h6, h7, h8, h9⟩ := h
  unfold Thread.Guarded at hg
  unfold Dev.gtcRun
  simp [h1, h2, h3, h4, h5, h6, h7, h8, h9, hg]

/-- A thread that stands at an instruction whose guard does not hold goes on (R319). -/
theorem gtcRun_of_not_guarded {s : State} {t : Nat} {i : Instr} {g : Guard} {f k : Nat} {a : Attempt} {th : Thread} {body : Cx → Eff}
    (h : s.Stands t i f k a th) (hg : ¬th.Guarded g) :
    s.dev.gtcRun t i g body = s.dev.thrGoOn f k a.counted (t - k) th (th.pc + 4) := by
  obtain ⟨_, h1, h2, h3, h4, h5, h6, h7, h8, h9⟩ := h
  unfold Thread.Guarded at hg
  unfold Dev.gtcRun
  simp [h1, h2, h3, h4, h5, h6, h7, h8, h9, hg]

theorem gtcStep_of_stands {s : State} {t : Nat} {i : Instr} {g : Guard} {f k : Nat} {a : Attempt} {th : Thread} {body : Cx → Eff}
    (hi : exec i s = gtcStep t i g body s) (h : s.Stands t i f k a th) (hg : th.Guarded g) :
    Becomes i s (s.dev.thrDo f k a (t - k) th (s.dev.codeWord f th.pc) (body ⟨s.dev, f, a, t - k, th⟩)) := by
  unfold Becomes
  rw [hi, gtcStep, State.act_open _ (Dev.open_engine h.1.1 h.1.2), gtcRun_of_stands h hg]

/-- A thread goes on at the word that follows (R299). -/
theorem Dev.thrGoOn_of_inCode {d : Dev} {f t k : Nat} {a : Attempt} {th : Thread} {pc : Nat} (h : d.inCode f a.q pc = true) :
    d.thrGoOn f k a.counted (t - k) th pc = d.retired t k a th pc := by
  unfold Dev.thrGoOn Dev.retired
  simp [Attempt.setTh, Attempt.counted, h]

/-- An instruction that only writes registers of its thread retires with them. -/
theorem gtcStep_retire {s : State} {t : Nat} {i : Instr} {g : Guard} {f k : Nat} {a : Attempt} {th x : Thread} {body : Cx → Eff}
    (hi : exec i s = gtcStep t i g body s) (h : s.Ready t i g f k a th) (hb : body ⟨s.dev, f, a, t - k, th⟩ = .retire x) :
    Becomes i s (s.dev.retired t k a x (th.pc + 4)) := by
  have := gtcStep_of_stands hi h.1 h.2.1
  rw [hb] at this
  simpa only [Dev.thrDo, Dev.thrGoOn_of_inCode h.2.2] using this

end Sys2Proof.Machine
end

