-- ==== Sys2Proof/Laws/Path.lean ====
section
/-! SUPPORT. The engines: what an instance does with the sample in its hands. -/

namespace Sys2Proof.Machine

/-- An instance at work on a sample does with it what its body says. -/
theorem Dev.engine_atWork {d d' : Dev} {kind inst f eo : Nat} {e : Eng} (h : d.AtWork kind inst f eo e d') (body : Dev → Nat → Nat → Eng → Dev) :
    d.engine kind inst body = body d' f eo e := by
  obtain ⟨ei, h1, h2, h3, h4, h5, h6, h7, h8⟩ := h
  have h9 : ¬ (e.mark ≠ 0 ∧ e.arrived = true) := by
    rcases h8 with h8 | h8 <;> simp [h8]
  unfold Dev.engine
  simp only [h1, h2, h3, h4, h5]
  rw [if_neg (by simp), if_neg (by simp [h6]), if_neg (by simp [h7]), if_neg h9]

/-- An instance that no function binds does nothing. -/
theorem Dev.engine_unbound {d : Dev} {kind inst : Nat} (h : d.epOf kind inst false 0 = none) (body : Dev → Nat → Nat → Eng → Dev) :
    d.engine kind inst body = d := by
  unfold Dev.engine; simp only [h]

end Sys2Proof.Machine
end

