-- ==== Sys2Proof/Laws/State.lean ====
section
/-! SUPPORT. What each named update of the device leaves alone: one lemma per field and update, true by computation, so that no proof
unfolds a record update. -/

namespace Sys2Proof.Machine

/-! ## setWord -/

@[simp] theorem Dev.setWord_mem (d : Dev) (off : Nat) (w : Word) : (d.setWord off w).mem = d.mem := rfl
@[simp] theorem Dev.setWord_clk (d : Dev) (off : Nat) (w : Word) : (d.setWord off w).clk = d.clk := rfl
@[simp] theorem Dev.setWord_timers (d : Dev) (off : Nat) (w : Word) : (d.setWord off w).timers = d.timers := rfl
@[simp] theorem Dev.setWord_resp (d : Dev) (off : Nat) (w : Word) : (d.setWord off w).resp = d.resp := rfl
@[simp] theorem Dev.setWord_sent (d : Dev) (off : Nat) (w : Word) : (d.setWord off w).sent = d.sent := rfl
@[simp] theorem Dev.setWord_free (d : Dev) (off : Nat) (w : Word) : (d.setWord off w).free = d.free := rfl
@[simp] theorem Dev.setWord_irq (d : Dev) (off : Nat) (w : Word) : (d.setWord off w).irq = d.irq := rfl
@[simp] theorem Dev.setWord_lgr (d : Dev) (off : Nat) (w : Word) : (d.setWord off w).lgr = d.lgr := rfl
@[simp] theorem Dev.setWord_mgt (d : Dev) (off : Nat) (w : Word) : (d.setWord off w).mgt = d.mgt := rfl
@[simp] theorem Dev.setWord_sec (d : Dev) (off : Nat) (w : Word) : (d.setWord off w).sec = d.sec := rfl
@[simp] theorem Dev.setWord_pwr (d : Dev) (off : Nat) (w : Word) : (d.setWord off w).pwr = d.pwr := rfl
@[simp] theorem Dev.setWord_tim (d : Dev) (off : Nat) (w : Word) : (d.setWord off w).tim = d.tim := rfl
@[simp] theorem Dev.setWord_fab (d : Dev) (off : Nat) (w : Word) : (d.setWord off w).fab = d.fab := rfl
@[simp] theorem Dev.setWord_xpt (d : Dev) (off : Nat) (w : Word) : (d.setWord off w).xpt = d.xpt := rfl
@[simp] theorem Dev.setWord_med (d : Dev) (off : Nat) (w : Word) : (d.setWord off w).med = d.med := rfl
@[simp] theorem Dev.setWord_thr (d : Dev) (off : Nat) (w : Word) : (d.setWord off w).thr = d.thr := rfl
@[simp] theorem Dev.setWord_col (d : Dev) (off : Nat) (w : Word) : (d.setWord off w).col = d.col := rfl
@[simp] theorem Dev.setWord_seq (d : Dev) (off : Nat) (w : Word) : (d.setWord off w).seq = d.seq := rfl

/-! ## set -/

@[simp] theorem Dev.set_mem (d : Dev) (r : FRef) (v : Nat) : (d.set r v).mem = d.mem := rfl
@[simp] theorem Dev.set_clk (d : Dev) (r : FRef) (v : Nat) : (d.set r v).clk = d.clk := rfl
@[simp] theorem Dev.set_timers (d : Dev) (r : FRef) (v : Nat) : (d.set r v).timers = d.timers := rfl
@[simp] theorem Dev.set_resp (d : Dev) (r : FRef) (v : Nat) : (d.set r v).resp = d.resp := rfl
@[simp] theorem Dev.set_sent (d : Dev) (r : FRef) (v : Nat) : (d.set r v).sent = d.sent := rfl
@[simp] theorem Dev.set_free (d : Dev) (r : FRef) (v : Nat) : (d.set r v).free = d.free := rfl
@[simp] theorem Dev.set_irq (d : Dev) (r : FRef) (v : Nat) : (d.set r v).irq = d.irq := rfl
@[simp] theorem Dev.set_lgr (d : Dev) (r : FRef) (v : Nat) : (d.set r v).lgr = d.lgr := rfl
@[simp] theorem Dev.set_mgt (d : Dev) (r : FRef) (v : Nat) : (d.set r v).mgt = d.mgt := rfl
@[simp] theorem Dev.set_sec (d : Dev) (r : FRef) (v : Nat) : (d.set r v).sec = d.sec := rfl
@[simp] theorem Dev.set_pwr (d : Dev) (r : FRef) (v : Nat) : (d.set r v).pwr = d.pwr := rfl
@[simp] theorem Dev.set_tim (d : Dev) (r : FRef) (v : Nat) : (d.set r v).tim = d.tim := rfl
@[simp] theorem Dev.set_fab (d : Dev) (r : FRef) (v : Nat) : (d.set r v).fab = d.fab := rfl
@[simp] theorem Dev.set_xpt (d : Dev) (r : FRef) (v : Nat) : (d.set r v).xpt = d.xpt := rfl
@[simp] theorem Dev.set_med (d : Dev) (r : FRef) (v : Nat) : (d.set r v).med = d.med := rfl
@[simp] theorem Dev.set_thr (d : Dev) (r : FRef) (v : Nat) : (d.set r v).thr = d.thr := rfl
@[simp] theorem Dev.set_col (d : Dev) (r : FRef) (v : Nat) : (d.set r v).col = d.col := rfl
@[simp] theorem Dev.set_seq (d : Dev) (r : FRef) (v : Nat) : (d.set r v).seq = d.seq := rfl

/-! ## setSt -/

@[simp] theorem Dev.setSt_mem (d : Dev) (r : FRef) (st : Status) : (d.setSt r st).mem = d.mem := rfl
@[simp] theorem Dev.setSt_clk (d : Dev) (r : FRef) (st : Status) : (d.setSt r st).clk = d.clk := rfl
@[simp] theorem Dev.setSt_timers (d : Dev) (r : FRef) (st : Status) : (d.setSt r st).timers = d.timers := rfl
@[simp] theorem Dev.setSt_resp (d : Dev) (r : FRef) (st : Status) : (d.setSt r st).resp = d.resp := rfl
@[simp] theorem Dev.setSt_sent (d : Dev) (r : FRef) (st : Status) : (d.setSt r st).sent = d.sent := rfl
@[simp] theorem Dev.setSt_free (d : Dev) (r : FRef) (st : Status) : (d.setSt r st).free = d.free := rfl
@[simp] theorem Dev.setSt_irq (d : Dev) (r : FRef) (st : Status) : (d.setSt r st).irq = d.irq := rfl
@[simp] theorem Dev.setSt_lgr (d : Dev) (r : FRef) (st : Status) : (d.setSt r st).lgr = d.lgr := rfl
@[simp] theorem Dev.setSt_mgt (d : Dev) (r : FRef) (st : Status) : (d.setSt r st).mgt = d.mgt := rfl
@[simp] theorem Dev.setSt_sec (d : Dev) (r : FRef) (st : Status) : (d.setSt r st).sec = d.sec := rfl
@[simp] theorem Dev.setSt_pwr (d : Dev) (r : FRef) (st : Status) : (d.setSt r st).pwr = d.pwr := rfl
@[simp] theorem Dev.setSt_tim (d : Dev) (r : FRef) (st : Status) : (d.setSt r st).tim = d.tim := rfl
@[simp] theorem Dev.setSt_fab (d : Dev) (r : FRef) (st : Status) : (d.setSt r st).fab = d.fab := rfl
@[simp] theorem Dev.setSt_xpt (d : Dev) (r : FRef) (st : Status) : (d.setSt r st).xpt = d.xpt := rfl
@[simp] theorem Dev.setSt_med (d : Dev) (r : FRef) (st : Status) : (d.setSt r st).med = d.med := rfl
@[simp] theorem Dev.setSt_thr (d : Dev) (r : FRef) (st : Status) : (d.setSt r st).thr = d.thr := rfl
@[simp] theorem Dev.setSt_col (d : Dev) (r : FRef) (st : Status) : (d.setSt r st).col = d.col := rfl
@[simp] theorem Dev.setSt_seq (d : Dev) (r : FRef) (st : Status) : (d.setSt r st).seq = d.seq := rfl

/-! ## add -/

@[simp] theorem Dev.add_mem (d : Dev) (r : FRef) (n : Nat) : (d.add r n).mem = d.mem := rfl
@[simp] theorem Dev.add_clk (d : Dev) (r : FRef) (n : Nat) : (d.add r n).clk = d.clk := rfl
@[simp] theorem Dev.add_timers (d : Dev) (r : FRef) (n : Nat) : (d.add r n).timers = d.timers := rfl
@[simp] theorem Dev.add_resp (d : Dev) (r : FRef) (n : Nat) : (d.add r n).resp = d.resp := rfl
@[simp] theorem Dev.add_sent (d : Dev) (r : FRef) (n : Nat) : (d.add r n).sent = d.sent := rfl
@[simp] theorem Dev.add_free (d : Dev) (r : FRef) (n : Nat) : (d.add r n).free = d.free := rfl
@[simp] theorem Dev.add_irq (d : Dev) (r : FRef) (n : Nat) : (d.add r n).irq = d.irq := rfl
@[simp] theorem Dev.add_lgr (d : Dev) (r : FRef) (n : Nat) : (d.add r n).lgr = d.lgr := rfl
@[simp] theorem Dev.add_mgt (d : Dev) (r : FRef) (n : Nat) : (d.add r n).mgt = d.mgt := rfl
@[simp] theorem Dev.add_sec (d : Dev) (r : FRef) (n : Nat) : (d.add r n).sec = d.sec := rfl
@[simp] theorem Dev.add_pwr (d : Dev) (r : FRef) (n : Nat) : (d.add r n).pwr = d.pwr := rfl
@[simp] theorem Dev.add_tim (d : Dev) (r : FRef) (n : Nat) : (d.add r n).tim = d.tim := rfl
@[simp] theorem Dev.add_fab (d : Dev) (r : FRef) (n : Nat) : (d.add r n).fab = d.fab := rfl
@[simp] theorem Dev.add_xpt (d : Dev) (r : FRef) (n : Nat) : (d.add r n).xpt = d.xpt := rfl
@[simp] theorem Dev.add_med (d : Dev) (r : FRef) (n : Nat) : (d.add r n).med = d.med := rfl
@[simp] theorem Dev.add_thr (d : Dev) (r : FRef) (n : Nat) : (d.add r n).thr = d.thr := rfl
@[simp] theorem Dev.add_col (d : Dev) (r : FRef) (n : Nat) : (d.add r n).col = d.col := rfl
@[simp] theorem Dev.add_seq (d : Dev) (r : FRef) (n : Nat) : (d.add r n).seq = d.seq := rfl

/-! ## inc -/

@[simp] theorem Dev.inc_mem (d : Dev) (r : FRef) : (d.inc r).mem = d.mem := rfl
@[simp] theorem Dev.inc_clk (d : Dev) (r : FRef) : (d.inc r).clk = d.clk := rfl
@[simp] theorem Dev.inc_timers (d : Dev) (r : FRef) : (d.inc r).timers = d.timers := rfl
@[simp] theorem Dev.inc_resp (d : Dev) (r : FRef) : (d.inc r).resp = d.resp := rfl
@[simp] theorem Dev.inc_sent (d : Dev) (r : FRef) : (d.inc r).sent = d.sent := rfl
@[simp] theorem Dev.inc_free (d : Dev) (r : FRef) : (d.inc r).free = d.free := rfl
@[simp] theorem Dev.inc_irq (d : Dev) (r : FRef) : (d.inc r).irq = d.irq := rfl
@[simp] theorem Dev.inc_lgr (d : Dev) (r : FRef) : (d.inc r).lgr = d.lgr := rfl
@[simp] theorem Dev.inc_mgt (d : Dev) (r : FRef) : (d.inc r).mgt = d.mgt := rfl
@[simp] theorem Dev.inc_sec (d : Dev) (r : FRef) : (d.inc r).sec = d.sec := rfl
@[simp] theorem Dev.inc_pwr (d : Dev) (r : FRef) : (d.inc r).pwr = d.pwr := rfl
@[simp] theorem Dev.inc_tim (d : Dev) (r : FRef) : (d.inc r).tim = d.tim := rfl
@[simp] theorem Dev.inc_fab (d : Dev) (r : FRef) : (d.inc r).fab = d.fab := rfl
@[simp] theorem Dev.inc_xpt (d : Dev) (r : FRef) : (d.inc r).xpt = d.xpt := rfl
@[simp] theorem Dev.inc_med (d : Dev) (r : FRef) : (d.inc r).med = d.med := rfl
@[simp] theorem Dev.inc_thr (d : Dev) (r : FRef) : (d.inc r).thr = d.thr := rfl
@[simp] theorem Dev.inc_col (d : Dev) (r : FRef) : (d.inc r).col = d.col := rfl
@[simp] theorem Dev.inc_seq (d : Dev) (r : FRef) : (d.inc r).seq = d.seq := rfl

/-! ## addWord -/

@[simp] theorem Dev.addWord_mem (d : Dev) (off n : Nat) : (d.addWord off n).mem = d.mem := rfl
@[simp] theorem Dev.addWord_clk (d : Dev) (off n : Nat) : (d.addWord off n).clk = d.clk := rfl
@[simp] theorem Dev.addWord_timers (d : Dev) (off n : Nat) : (d.addWord off n).timers = d.timers := rfl
@[simp] theorem Dev.addWord_resp (d : Dev) (off n : Nat) : (d.addWord off n).resp = d.resp := rfl
@[simp] theorem Dev.addWord_sent (d : Dev) (off n : Nat) : (d.addWord off n).sent = d.sent := rfl
@[simp] theorem Dev.addWord_free (d : Dev) (off n : Nat) : (d.addWord off n).free = d.free := rfl
@[simp] theorem Dev.addWord_irq (d : Dev) (off n : Nat) : (d.addWord off n).irq = d.irq := rfl
@[simp] theorem Dev.addWord_lgr (d : Dev) (off n : Nat) : (d.addWord off n).lgr = d.lgr := rfl
@[simp] theorem Dev.addWord_mgt (d : Dev) (off n : Nat) : (d.addWord off n).mgt = d.mgt := rfl
@[simp] theorem Dev.addWord_sec (d : Dev) (off n : Nat) : (d.addWord off n).sec = d.sec := rfl
@[simp] theorem Dev.addWord_pwr (d : Dev) (off n : Nat) : (d.addWord off n).pwr = d.pwr := rfl
@[simp] theorem Dev.addWord_tim (d : Dev) (off n : Nat) : (d.addWord off n).tim = d.tim := rfl
@[simp] theorem Dev.addWord_fab (d : Dev) (off n : Nat) : (d.addWord off n).fab = d.fab := rfl
@[simp] theorem Dev.addWord_xpt (d : Dev) (off n : Nat) : (d.addWord off n).xpt = d.xpt := rfl
@[simp] theorem Dev.addWord_med (d : Dev) (off n : Nat) : (d.addWord off n).med = d.med := rfl
@[simp] theorem Dev.addWord_thr (d : Dev) (off n : Nat) : (d.addWord off n).thr = d.thr := rfl
@[simp] theorem Dev.addWord_col (d : Dev) (off n : Nat) : (d.addWord off n).col = d.col := rfl
@[simp] theorem Dev.addWord_seq (d : Dev) (off n : Nat) : (d.addWord off n).seq = d.seq := rfl

/-! ## setW -/

@[simp] theorem Dev.setW_mem (d : Dev) (off n : Nat) : (d.setW off n).mem = d.mem := rfl
@[simp] theorem Dev.setW_clk (d : Dev) (off n : Nat) : (d.setW off n).clk = d.clk := rfl
@[simp] theorem Dev.setW_timers (d : Dev) (off n : Nat) : (d.setW off n).timers = d.timers := rfl
@[simp] theorem Dev.setW_resp (d : Dev) (off n : Nat) : (d.setW off n).resp = d.resp := rfl
@[simp] theorem Dev.setW_sent (d : Dev) (off n : Nat) : (d.setW off n).sent = d.sent := rfl
@[simp] theorem Dev.setW_free (d : Dev) (off n : Nat) : (d.setW off n).free = d.free := rfl
@[simp] theorem Dev.setW_irq (d : Dev) (off n : Nat) : (d.setW off n).irq = d.irq := rfl
@[simp] theorem Dev.setW_lgr (d : Dev) (off n : Nat) : (d.setW off n).lgr = d.lgr := rfl
@[simp] theorem Dev.setW_mgt (d : Dev) (off n : Nat) : (d.setW off n).mgt = d.mgt := rfl
@[simp] theorem Dev.setW_sec (d : Dev) (off n : Nat) : (d.setW off n).sec = d.sec := rfl
@[simp] theorem Dev.setW_pwr (d : Dev) (off n : Nat) : (d.setW off n).pwr = d.pwr := rfl
@[simp] theorem Dev.setW_tim (d : Dev) (off n : Nat) : (d.setW off n).tim = d.tim := rfl
@[simp] theorem Dev.setW_fab (d : Dev) (off n : Nat) : (d.setW off n).fab = d.fab := rfl
@[simp] theorem Dev.setW_xpt (d : Dev) (off n : Nat) : (d.setW off n).xpt = d.xpt := rfl
@[simp] theorem Dev.setW_med (d : Dev) (off n : Nat) : (d.setW off n).med = d.med := rfl
@[simp] theorem Dev.setW_thr (d : Dev) (off n : Nat) : (d.setW off n).thr = d.thr := rfl
@[simp] theorem Dev.setW_col (d : Dev) (off n : Nat) : (d.setW off n).col = d.col := rfl
@[simp] theorem Dev.setW_seq (d : Dev) (off n : Nat) : (d.setW off n).seq = d.seq := rfl

/-! ## reply -/

@[simp] theorem Dev.reply_regs (d : Dev) (st : Status) (w : Word) : (d.reply st w).regs = d.regs := rfl
@[simp] theorem Dev.reply_mem (d : Dev) (st : Status) (w : Word) : (d.reply st w).mem = d.mem := rfl
@[simp] theorem Dev.reply_clk (d : Dev) (st : Status) (w : Word) : (d.reply st w).clk = d.clk := rfl
@[simp] theorem Dev.reply_timers (d : Dev) (st : Status) (w : Word) : (d.reply st w).timers = d.timers := rfl
@[simp] theorem Dev.reply_sent (d : Dev) (st : Status) (w : Word) : (d.reply st w).sent = d.sent := rfl
@[simp] theorem Dev.reply_free (d : Dev) (st : Status) (w : Word) : (d.reply st w).free = d.free := rfl
@[simp] theorem Dev.reply_irq (d : Dev) (st : Status) (w : Word) : (d.reply st w).irq = d.irq := rfl
@[simp] theorem Dev.reply_lgr (d : Dev) (st : Status) (w : Word) : (d.reply st w).lgr = d.lgr := rfl
@[simp] theorem Dev.reply_mgt (d : Dev) (st : Status) (w : Word) : (d.reply st w).mgt = d.mgt := rfl
@[simp] theorem Dev.reply_sec (d : Dev) (st : Status) (w : Word) : (d.reply st w).sec = d.sec := rfl
@[simp] theorem Dev.reply_pwr (d : Dev) (st : Status) (w : Word) : (d.reply st w).pwr = d.pwr := rfl
@[simp] theorem Dev.reply_tim (d : Dev) (st : Status) (w : Word) : (d.reply st w).tim = d.tim := rfl
@[simp] theorem Dev.reply_fab (d : Dev) (st : Status) (w : Word) : (d.reply st w).fab = d.fab := rfl
@[simp] theorem Dev.reply_xpt (d : Dev) (st : Status) (w : Word) : (d.reply st w).xpt = d.xpt := rfl
@[simp] theorem Dev.reply_med (d : Dev) (st : Status) (w : Word) : (d.reply st w).med = d.med := rfl
@[simp] theorem Dev.reply_thr (d : Dev) (st : Status) (w : Word) : (d.reply st w).thr = d.thr := rfl
@[simp] theorem Dev.reply_col (d : Dev) (st : Status) (w : Word) : (d.reply st w).col = d.col := rfl
@[simp] theorem Dev.reply_seq (d : Dev) (st : Status) (w : Word) : (d.reply st w).seq = d.seq := rfl

/-! ## emit -/

@[simp] theorem Dev.emit_regs (d : Dev) (m : OutMsg) : (d.emit m).regs = d.regs := rfl
@[simp] theorem Dev.emit_mem (d : Dev) (m : OutMsg) : (d.emit m).mem = d.mem := rfl
@[simp] theorem Dev.emit_clk (d : Dev) (m : OutMsg) : (d.emit m).clk = d.clk := rfl
@[simp] theorem Dev.emit_timers (d : Dev) (m : OutMsg) : (d.emit m).timers = d.timers := rfl
@[simp] theorem Dev.emit_resp (d : Dev) (m : OutMsg) : (d.emit m).resp = d.resp := rfl
@[simp] theorem Dev.emit_free (d : Dev) (m : OutMsg) : (d.emit m).free = d.free := rfl
@[simp] theorem Dev.emit_irq (d : Dev) (m : OutMsg) : (d.emit m).irq = d.irq := rfl
@[simp] theorem Dev.emit_lgr (d : Dev) (m : OutMsg) : (d.emit m).lgr = d.lgr := rfl
@[simp] theorem Dev.emit_mgt (d : Dev) (m : OutMsg) : (d.emit m).mgt = d.mgt := rfl
@[simp] theorem Dev.emit_sec (d : Dev) (m : OutMsg) : (d.emit m).sec = d.sec := rfl
@[simp] theorem Dev.emit_pwr (d : Dev) (m : OutMsg) : (d.emit m).pwr = d.pwr := rfl
@[simp] theorem Dev.emit_tim (d : Dev) (m : OutMsg) : (d.emit m).tim = d.tim := rfl
@[simp] theorem Dev.emit_fab (d : Dev) (m : OutMsg) : (d.emit m).fab = d.fab := rfl
@[simp] theorem Dev.emit_xpt (d : Dev) (m : OutMsg) : (d.emit m).xpt = d.xpt := rfl
@[simp] theorem Dev.emit_med (d : Dev) (m : OutMsg) : (d.emit m).med = d.med := rfl
@[simp] theorem Dev.emit_thr (d : Dev) (m : OutMsg) : (d.emit m).thr = d.thr := rfl
@[simp] theorem Dev.emit_col (d : Dev) (m : OutMsg) : (d.emit m).col = d.col := rfl
@[simp] theorem Dev.emit_seq (d : Dev) (m : OutMsg) : (d.emit m).seq = d.seq := rfl

/-! ## write -/

@[simp] theorem Dev.write_regs (d : Dev) (a : Nat) (bs : Bytes) : (d.write a bs).regs = d.regs := rfl
@[simp] theorem Dev.write_clk (d : Dev) (a : Nat) (bs : Bytes) : (d.write a bs).clk = d.clk := rfl
@[simp] theorem Dev.write_timers (d : Dev) (a : Nat) (bs : Bytes) : (d.write a bs).timers = d.timers := rfl
@[simp] theorem Dev.write_resp (d : Dev) (a : Nat) (bs : Bytes) : (d.write a bs).resp = d.resp := rfl
@[simp] theorem Dev.write_sent (d : Dev) (a : Nat) (bs : Bytes) : (d.write a bs).sent = d.sent := rfl
@[simp] theorem Dev.write_free (d : Dev) (a : Nat) (bs : Bytes) : (d.write a bs).free = d.free := rfl
@[simp] theorem Dev.write_irq (d : Dev) (a : Nat) (bs : Bytes) : (d.write a bs).irq = d.irq := rfl
@[simp] theorem Dev.write_lgr (d : Dev) (a : Nat) (bs : Bytes) : (d.write a bs).lgr = d.lgr := rfl
@[simp] theorem Dev.write_mgt (d : Dev) (a : Nat) (bs : Bytes) : (d.write a bs).mgt = d.mgt := rfl
@[simp] theorem Dev.write_sec (d : Dev) (a : Nat) (bs : Bytes) : (d.write a bs).sec = d.sec := rfl
@[simp] theorem Dev.write_pwr (d : Dev) (a : Nat) (bs : Bytes) : (d.write a bs).pwr = d.pwr := rfl
@[simp] theorem Dev.write_tim (d : Dev) (a : Nat) (bs : Bytes) : (d.write a bs).tim = d.tim := rfl
@[simp] theorem Dev.write_fab (d : Dev) (a : Nat) (bs : Bytes) : (d.write a bs).fab = d.fab := rfl
@[simp] theorem Dev.write_xpt (d : Dev) (a : Nat) (bs : Bytes) : (d.write a bs).xpt = d.xpt := rfl
@[simp] theorem Dev.write_med (d : Dev) (a : Nat) (bs : Bytes) : (d.write a bs).med = d.med := rfl
@[simp] theorem Dev.write_thr (d : Dev) (a : Nat) (bs : Bytes) : (d.write a bs).thr = d.thr := rfl
@[simp] theorem Dev.write_col (d : Dev) (a : Nat) (bs : Bytes) : (d.write a bs).col = d.col := rfl
@[simp] theorem Dev.write_seq (d : Dev) (a : Nat) (bs : Bytes) : (d.write a bs).seq = d.seq := rfl

/-! ## zero -/

@[simp] theorem Dev.zero_regs (d : Dev) (a n : Nat) : (d.zero a n).regs = d.regs := rfl
@[simp] theorem Dev.zero_clk (d : Dev) (a n : Nat) : (d.zero a n).clk = d.clk := rfl
@[simp] theorem Dev.zero_timers (d : Dev) (a n : Nat) : (d.zero a n).timers = d.timers := rfl
@[simp] theorem Dev.zero_resp (d : Dev) (a n : Nat) : (d.zero a n).resp = d.resp := rfl
@[simp] theorem Dev.zero_sent (d : Dev) (a n : Nat) : (d.zero a n).sent = d.sent := rfl
@[simp] theorem Dev.zero_free (d : Dev) (a n : Nat) : (d.zero a n).free = d.free := rfl
@[simp] theorem Dev.zero_irq (d : Dev) (a n : Nat) : (d.zero a n).irq = d.irq := rfl
@[simp] theorem Dev.zero_lgr (d : Dev) (a n : Nat) : (d.zero a n).lgr = d.lgr := rfl
@[simp] theorem Dev.zero_mgt (d : Dev) (a n : Nat) : (d.zero a n).mgt = d.mgt := rfl
@[simp] theorem Dev.zero_sec (d : Dev) (a n : Nat) : (d.zero a n).sec = d.sec := rfl
@[simp] theorem Dev.zero_pwr (d : Dev) (a n : Nat) : (d.zero a n).pwr = d.pwr := rfl
@[simp] theorem Dev.zero_tim (d : Dev) (a n : Nat) : (d.zero a n).tim = d.tim := rfl
@[simp] theorem Dev.zero_fab (d : Dev) (a n : Nat) : (d.zero a n).fab = d.fab := rfl
@[simp] theorem Dev.zero_xpt (d : Dev) (a n : Nat) : (d.zero a n).xpt = d.xpt := rfl
@[simp] theorem Dev.zero_med (d : Dev) (a n : Nat) : (d.zero a n).med = d.med := rfl
@[simp] theorem Dev.zero_thr (d : Dev) (a n : Nat) : (d.zero a n).thr = d.thr := rfl
@[simp] theorem Dev.zero_col (d : Dev) (a n : Nat) : (d.zero a n).col = d.col := rfl
@[simp] theorem Dev.zero_seq (d : Dev) (a n : Nat) : (d.zero a n).seq = d.seq := rfl

/-! ## arm -/

@[simp] theorem Dev.arm_regs (d : Dev) (t : Timer) (n : Nat) : (d.arm t n).regs = d.regs := rfl
@[simp] theorem Dev.arm_mem (d : Dev) (t : Timer) (n : Nat) : (d.arm t n).mem = d.mem := rfl
@[simp] theorem Dev.arm_clk (d : Dev) (t : Timer) (n : Nat) : (d.arm t n).clk = d.clk := rfl
@[simp] theorem Dev.arm_resp (d : Dev) (t : Timer) (n : Nat) : (d.arm t n).resp = d.resp := rfl
@[simp] theorem Dev.arm_sent (d : Dev) (t : Timer) (n : Nat) : (d.arm t n).sent = d.sent := rfl
@[simp] theorem Dev.arm_free (d : Dev) (t : Timer) (n : Nat) : (d.arm t n).free = d.free := rfl
@[simp] theorem Dev.arm_irq (d : Dev) (t : Timer) (n : Nat) : (d.arm t n).irq = d.irq := rfl
@[simp] theorem Dev.arm_lgr (d : Dev) (t : Timer) (n : Nat) : (d.arm t n).lgr = d.lgr := rfl
@[simp] theorem Dev.arm_mgt (d : Dev) (t : Timer) (n : Nat) : (d.arm t n).mgt = d.mgt := rfl
@[simp] theorem Dev.arm_sec (d : Dev) (t : Timer) (n : Nat) : (d.arm t n).sec = d.sec := rfl
@[simp] theorem Dev.arm_pwr (d : Dev) (t : Timer) (n : Nat) : (d.arm t n).pwr = d.pwr := rfl
@[simp] theorem Dev.arm_tim (d : Dev) (t : Timer) (n : Nat) : (d.arm t n).tim = d.tim := rfl
@[simp] theorem Dev.arm_fab (d : Dev) (t : Timer) (n : Nat) : (d.arm t n).fab = d.fab := rfl
@[simp] theorem Dev.arm_xpt (d : Dev) (t : Timer) (n : Nat) : (d.arm t n).xpt = d.xpt := rfl
@[simp] theorem Dev.arm_med (d : Dev) (t : Timer) (n : Nat) : (d.arm t n).med = d.med := rfl
@[simp] theorem Dev.arm_thr (d : Dev) (t : Timer) (n : Nat) : (d.arm t n).thr = d.thr := rfl
@[simp] theorem Dev.arm_col (d : Dev) (t : Timer) (n : Nat) : (d.arm t n).col = d.col := rfl
@[simp] theorem Dev.arm_seq (d : Dev) (t : Timer) (n : Nat) : (d.arm t n).seq = d.seq := rfl

/-! ## disarm -/

@[simp] theorem Dev.disarm_regs (d : Dev) (t : Timer) : (d.disarm t).regs = d.regs := rfl
@[simp] theorem Dev.disarm_mem (d : Dev) (t : Timer) : (d.disarm t).mem = d.mem := rfl
@[simp] theorem Dev.disarm_clk (d : Dev) (t : Timer) : (d.disarm t).clk = d.clk := rfl
@[simp] theorem Dev.disarm_resp (d : Dev) (t : Timer) : (d.disarm t).resp = d.resp := rfl
@[simp] theorem Dev.disarm_sent (d : Dev) (t : Timer) : (d.disarm t).sent = d.sent := rfl
@[simp] theorem Dev.disarm_free (d : Dev) (t : Timer) : (d.disarm t).free = d.free := rfl
@[simp] theorem Dev.disarm_irq (d : Dev) (t : Timer) : (d.disarm t).irq = d.irq := rfl
@[simp] theorem Dev.disarm_lgr (d : Dev) (t : Timer) : (d.disarm t).lgr = d.lgr := rfl
@[simp] theorem Dev.disarm_mgt (d : Dev) (t : Timer) : (d.disarm t).mgt = d.mgt := rfl
@[simp] theorem Dev.disarm_sec (d : Dev) (t : Timer) : (d.disarm t).sec = d.sec := rfl
@[simp] theorem Dev.disarm_pwr (d : Dev) (t : Timer) : (d.disarm t).pwr = d.pwr := rfl
@[simp] theorem Dev.disarm_tim (d : Dev) (t : Timer) : (d.disarm t).tim = d.tim := rfl
@[simp] theorem Dev.disarm_fab (d : Dev) (t : Timer) : (d.disarm t).fab = d.fab := rfl
@[simp] theorem Dev.disarm_xpt (d : Dev) (t : Timer) : (d.disarm t).xpt = d.xpt := rfl
@[simp] theorem Dev.disarm_med (d : Dev) (t : Timer) : (d.disarm t).med = d.med := rfl
@[simp] theorem Dev.disarm_thr (d : Dev) (t : Timer) : (d.disarm t).thr = d.thr := rfl
@[simp] theorem Dev.disarm_col (d : Dev) (t : Timer) : (d.disarm t).col = d.col := rfl
@[simp] theorem Dev.disarm_seq (d : Dev) (t : Timer) : (d.disarm t).seq = d.seq := rfl

/-! ## trace -/

@[simp] theorem Dev.trace_regs (d : Dev) (kind fn block : Nat) (st : Status) (x y : Nat) : (d.trace kind fn block st x y).regs = d.regs := rfl
@[simp] theorem Dev.trace_mem (d : Dev) (kind fn block : Nat) (st : Status) (x y : Nat) : (d.trace kind fn block st x y).mem = d.mem := rfl
@[simp] theorem Dev.trace_clk (d : Dev) (kind fn block : Nat) (st : Status) (x y : Nat) : (d.trace kind fn block st x y).clk = d.clk := rfl
@[simp] theorem Dev.trace_timers (d : Dev) (kind fn block : Nat) (st : Status) (x y : Nat) : (d.trace kind fn block st x y).timers = d.timers := rfl
@[simp] theorem Dev.trace_resp (d : Dev) (kind fn block : Nat) (st : Status) (x y : Nat) : (d.trace kind fn block st x y).resp = d.resp := rfl
@[simp] theorem Dev.trace_sent (d : Dev) (kind fn block : Nat) (st : Status) (x y : Nat) : (d.trace kind fn block st x y).sent = d.sent := rfl
@[simp] theorem Dev.trace_free (d : Dev) (kind fn block : Nat) (st : Status) (x y : Nat) : (d.trace kind fn block st x y).free = d.free := rfl
@[simp] theorem Dev.trace_irq (d : Dev) (kind fn block : Nat) (st : Status) (x y : Nat) : (d.trace kind fn block st x y).irq = d.irq := rfl
@[simp] theorem Dev.trace_mgt (d : Dev) (kind fn block : Nat) (st : Status) (x y : Nat) : (d.trace kind fn block st x y).mgt = d.mgt := rfl
@[simp] theorem Dev.trace_sec (d : Dev) (kind fn block : Nat) (st : Status) (x y : Nat) : (d.trace kind fn block st x y).sec = d.sec := rfl
@[simp] theorem Dev.trace_pwr (d : Dev) (kind fn block : Nat) (st : Status) (x y : Nat) : (d.trace kind fn block st x y).pwr = d.pwr := rfl
@[simp] theorem Dev.trace_tim (d : Dev) (kind fn block : Nat) (st : Status) (x y : Nat) : (d.trace kind fn block st x y).tim = d.tim := rfl
@[simp] theorem Dev.trace_fab (d : Dev) (kind fn block : Nat) (st : Status) (x y : Nat) : (d.trace kind fn block st x y).fab = d.fab := rfl
@[simp] theorem Dev.trace_xpt (d : Dev) (kind fn block : Nat) (st : Status) (x y : Nat) : (d.trace kind fn block st x y).xpt = d.xpt := rfl
@[simp] theorem Dev.trace_med (d : Dev) (kind fn block : Nat) (st : Status) (x y : Nat) : (d.trace kind fn block st x y).med = d.med := rfl
@[simp] theorem Dev.trace_thr (d : Dev) (kind fn block : Nat) (st : Status) (x y : Nat) : (d.trace kind fn block st x y).thr = d.thr := rfl
@[simp] theorem Dev.trace_col (d : Dev) (kind fn block : Nat) (st : Status) (x y : Nat) : (d.trace kind fn block st x y).col = d.col := rfl
@[simp] theorem Dev.trace_seq (d : Dev) (kind fn block : Nat) (st : Status) (x y : Nat) : (d.trace kind fn block st x y).seq = d.seq := rfl

/-! ## report -/

@[simp] theorem Dev.report_regs (d : Dev) (fn block : Nat) (st : Status) (x : Nat) : (d.report fn block st x).regs = d.regs := rfl
@[simp] theorem Dev.report_mem (d : Dev) (fn block : Nat) (st : Status) (x : Nat) : (d.report fn block st x).mem = d.mem := rfl
@[simp] theorem Dev.report_clk (d : Dev) (fn block : Nat) (st : Status) (x : Nat) : (d.report fn block st x).clk = d.clk := rfl
@[simp] theorem Dev.report_timers (d : Dev) (fn block : Nat) (st : Status) (x : Nat) : (d.report fn block st x).timers = d.timers := rfl
@[simp] theorem Dev.report_resp (d : Dev) (fn block : Nat) (st : Status) (x : Nat) : (d.report fn block st x).resp = d.resp := rfl
@[simp] theorem Dev.report_sent (d : Dev) (fn block : Nat) (st : Status) (x : Nat) : (d.report fn block st x).sent = d.sent := rfl
@[simp] theorem Dev.report_free (d : Dev) (fn block : Nat) (st : Status) (x : Nat) : (d.report fn block st x).free = d.free := rfl
@[simp] theorem Dev.report_irq (d : Dev) (fn block : Nat) (st : Status) (x : Nat) : (d.report fn block st x).irq = d.irq := rfl
@[simp] theorem Dev.report_mgt (d : Dev) (fn block : Nat) (st : Status) (x : Nat) : (d.report fn block st x).mgt = d.mgt := rfl
@[simp] theorem Dev.report_sec (d : Dev) (fn block : Nat) (st : Status) (x : Nat) : (d.report fn block st x).sec = d.sec := rfl
@[simp] theorem Dev.report_pwr (d : Dev) (fn block : Nat) (st : Status) (x : Nat) : (d.report fn block st x).pwr = d.pwr := rfl
@[simp] theorem Dev.report_tim (d : Dev) (fn block : Nat) (st : Status) (x : Nat) : (d.report fn block st x).tim = d.tim := rfl
@[simp] theorem Dev.report_fab (d : Dev) (fn block : Nat) (st : Status) (x : Nat) : (d.report fn block st x).fab = d.fab := rfl
@[simp] theorem Dev.report_xpt (d : Dev) (fn block : Nat) (st : Status) (x : Nat) : (d.report fn block st x).xpt = d.xpt := rfl
@[simp] theorem Dev.report_med (d : Dev) (fn block : Nat) (st : Status) (x : Nat) : (d.report fn block st x).med = d.med := rfl
@[simp] theorem Dev.report_thr (d : Dev) (fn block : Nat) (st : Status) (x : Nat) : (d.report fn block st x).thr = d.thr := rfl
@[simp] theorem Dev.report_col (d : Dev) (fn block : Nat) (st : Status) (x : Nat) : (d.report fn block st x).col = d.col := rfl
@[simp] theorem Dev.report_seq (d : Dev) (fn block : Nat) (st : Status) (x : Nat) : (d.report fn block st x).seq = d.seq := rfl

/-! ## countSource -/

@[simp] theorem Dev.countSource_regs (d : Dev) (n inst : Nat) : (d.countSource n inst).regs = d.regs := rfl
@[simp] theorem Dev.countSource_mem (d : Dev) (n inst : Nat) : (d.countSource n inst).mem = d.mem := rfl
@[simp] theorem Dev.countSource_clk (d : Dev) (n inst : Nat) : (d.countSource n inst).clk = d.clk := rfl
@[simp] theorem Dev.countSource_timers (d : Dev) (n inst : Nat) : (d.countSource n inst).timers = d.timers := rfl
@[simp] theorem Dev.countSource_resp (d : Dev) (n inst : Nat) : (d.countSource n inst).resp = d.resp := rfl
@[simp] theorem Dev.countSource_sent (d : Dev) (n inst : Nat) : (d.countSource n inst).sent = d.sent := rfl
@[simp] theorem Dev.countSource_free (d : Dev) (n inst : Nat) : (d.countSource n inst).free = d.free := rfl
@[simp] theorem Dev.countSource_lgr (d : Dev) (n inst : Nat) : (d.countSource n inst).lgr = d.lgr := rfl
@[simp] theorem Dev.countSource_mgt (d : Dev) (n inst : Nat) : (d.countSource n inst).mgt = d.mgt := rfl
@[simp] theorem Dev.countSource_sec (d : Dev) (n inst : Nat) : (d.countSource n inst).sec = d.sec := rfl
@[simp] theorem Dev.countSource_pwr (d : Dev) (n inst : Nat) : (d.countSource n inst).pwr = d.pwr := rfl
@[simp] theorem Dev.countSource_tim (d : Dev) (n inst : Nat) : (d.countSource n inst).tim = d.tim := rfl
@[simp] theorem Dev.countSource_fab (d : Dev) (n inst : Nat) : (d.countSource n inst).fab = d.fab := rfl
@[simp] theorem Dev.countSource_xpt (d : Dev) (n inst : Nat) : (d.countSource n inst).xpt = d.xpt := rfl
@[simp] theorem Dev.countSource_med (d : Dev) (n inst : Nat) : (d.countSource n inst).med = d.med := rfl
@[simp] theorem Dev.countSource_thr (d : Dev) (n inst : Nat) : (d.countSource n inst).thr = d.thr := rfl
@[simp] theorem Dev.countSource_col (d : Dev) (n inst : Nat) : (d.countSource n inst).col = d.col := rfl
@[simp] theorem Dev.countSource_seq (d : Dev) (n inst : Nat) : (d.countSource n inst).seq = d.seq := rfl

/-! ## setFn -/

@[simp] theorem Dev.setFn_regs (d : Dev) (f : Nat) (r : FnRun) : (d.setFn f r).regs = d.regs := rfl
@[simp] theorem Dev.setFn_mem (d : Dev) (f : Nat) (r : FnRun) : (d.setFn f r).mem = d.mem := rfl
@[simp] theorem Dev.setFn_clk (d : Dev) (f : Nat) (r : FnRun) : (d.setFn f r).clk = d.clk := rfl
@[simp] theorem Dev.setFn_timers (d : Dev) (f : Nat) (r : FnRun) : (d.setFn f r).timers = d.timers := rfl
@[simp] theorem Dev.setFn_resp (d : Dev) (f : Nat) (r : FnRun) : (d.setFn f r).resp = d.resp := rfl
@[simp] theorem Dev.setFn_sent (d : Dev) (f : Nat) (r : FnRun) : (d.setFn f r).sent = d.sent := rfl
@[simp] theorem Dev.setFn_free (d : Dev) (f : Nat) (r : FnRun) : (d.setFn f r).free = d.free := rfl
@[simp] theorem Dev.setFn_irq (d : Dev) (f : Nat) (r : FnRun) : (d.setFn f r).irq = d.irq := rfl
@[simp] theorem Dev.setFn_lgr (d : Dev) (f : Nat) (r : FnRun) : (d.setFn f r).lgr = d.lgr := rfl
@[simp] theorem Dev.setFn_mgt (d : Dev) (f : Nat) (r : FnRun) : (d.setFn f r).mgt = d.mgt := rfl
@[simp] theorem Dev.setFn_sec (d : Dev) (f : Nat) (r : FnRun) : (d.setFn f r).sec = d.sec := rfl
@[simp] theorem Dev.setFn_pwr (d : Dev) (f : Nat) (r : FnRun) : (d.setFn f r).pwr = d.pwr := rfl
@[simp] theorem Dev.setFn_tim (d : Dev) (f : Nat) (r : FnRun) : (d.setFn f r).tim = d.tim := rfl
@[simp] theorem Dev.setFn_fab (d : Dev) (f : Nat) (r : FnRun) : (d.setFn f r).fab = d.fab := rfl
@[simp] theorem Dev.setFn_xpt (d : Dev) (f : Nat) (r : FnRun) : (d.setFn f r).xpt = d.xpt := rfl
@[simp] theorem Dev.setFn_med (d : Dev) (f : Nat) (r : FnRun) : (d.setFn f r).med = d.med := rfl
@[simp] theorem Dev.setFn_thr (d : Dev) (f : Nat) (r : FnRun) : (d.setFn f r).thr = d.thr := rfl
@[simp] theorem Dev.setFn_col (d : Dev) (f : Nat) (r : FnRun) : (d.setFn f r).col = d.col := rfl

/-! ## modFn -/

@[simp] theorem Dev.modFn_regs (d : Dev) (f : Nat) (g : FnRun → FnRun) : (d.modFn f g).regs = d.regs := rfl
@[simp] theorem Dev.modFn_mem (d : Dev) (f : Nat) (g : FnRun → FnRun) : (d.modFn f g).mem = d.mem := rfl
@[simp] theorem Dev.modFn_clk (d : Dev) (f : Nat) (g : FnRun → FnRun) : (d.modFn f g).clk = d.clk := rfl
@[simp] theorem Dev.modFn_timers (d : Dev) (f : Nat) (g : FnRun → FnRun) : (d.modFn f g).timers = d.timers := rfl
@[simp] theorem Dev.modFn_resp (d : Dev) (f : Nat) (g : FnRun → FnRun) : (d.modFn f g).resp = d.resp := rfl
@[simp] theorem Dev.modFn_sent (d : Dev) (f : Nat) (g : FnRun → FnRun) : (d.modFn f g).sent = d.sent := rfl
@[simp] theorem Dev.modFn_free (d : Dev) (f : Nat) (g : FnRun → FnRun) : (d.modFn f g).free = d.free := rfl
@[simp] theorem Dev.modFn_irq (d : Dev) (f : Nat) (g : FnRun → FnRun) : (d.modFn f g).irq = d.irq := rfl
@[simp] theorem Dev.modFn_lgr (d : Dev) (f : Nat) (g : FnRun → FnRun) : (d.modFn f g).lgr = d.lgr := rfl
@[simp] theorem Dev.modFn_mgt (d : Dev) (f : Nat) (g : FnRun → FnRun) : (d.modFn f g).mgt = d.mgt := rfl
@[simp] theorem Dev.modFn_sec (d : Dev) (f : Nat) (g : FnRun → FnRun) : (d.modFn f g).sec = d.sec := rfl
@[simp] theorem Dev.modFn_pwr (d : Dev) (f : Nat) (g : FnRun → FnRun) : (d.modFn f g).pwr = d.pwr := rfl
@[simp] theorem Dev.modFn_tim (d : Dev) (f : Nat) (g : FnRun → FnRun) : (d.modFn f g).tim = d.tim := rfl
@[simp] theorem Dev.modFn_fab (d : Dev) (f : Nat) (g : FnRun → FnRun) : (d.modFn f g).fab = d.fab := rfl
@[simp] theorem Dev.modFn_xpt (d : Dev) (f : Nat) (g : FnRun → FnRun) : (d.modFn f g).xpt = d.xpt := rfl
@[simp] theorem Dev.modFn_med (d : Dev) (f : Nat) (g : FnRun → FnRun) : (d.modFn f g).med = d.med := rfl
@[simp] theorem Dev.modFn_thr (d : Dev) (f : Nat) (g : FnRun → FnRun) : (d.modFn f g).thr = d.thr := rfl
@[simp] theorem Dev.modFn_col (d : Dev) (f : Nat) (g : FnRun → FnRun) : (d.modFn f g).col = d.col := rfl

/-! ## setOutQ -/

@[simp] theorem Dev.setOutQ_regs (d : Dev) (ep : Nat) (q : List Granule) : (d.setOutQ ep q).regs = d.regs := rfl
@[simp] theorem Dev.setOutQ_mem (d : Dev) (ep : Nat) (q : List Granule) : (d.setOutQ ep q).mem = d.mem := rfl
@[simp] theorem Dev.setOutQ_clk (d : Dev) (ep : Nat) (q : List Granule) : (d.setOutQ ep q).clk = d.clk := rfl
@[simp] theorem Dev.setOutQ_timers (d : Dev) (ep : Nat) (q : List Granule) : (d.setOutQ ep q).timers = d.timers := rfl
@[simp] theorem Dev.setOutQ_resp (d : Dev) (ep : Nat) (q : List Granule) : (d.setOutQ ep q).resp = d.resp := rfl
@[simp] theorem Dev.setOutQ_sent (d : Dev) (ep : Nat) (q : List Granule) : (d.setOutQ ep q).sent = d.sent := rfl
@[simp] theorem Dev.setOutQ_free (d : Dev) (ep : Nat) (q : List Granule) : (d.setOutQ ep q).free = d.free := rfl
@[simp] theorem Dev.setOutQ_irq (d : Dev) (ep : Nat) (q : List Granule) : (d.setOutQ ep q).irq = d.irq := rfl
@[simp] theorem Dev.setOutQ_lgr (d : Dev) (ep : Nat) (q : List Granule) : (d.setOutQ ep q).lgr = d.lgr := rfl
@[simp] theorem Dev.setOutQ_mgt (d : Dev) (ep : Nat) (q : List Granule) : (d.setOutQ ep q).mgt = d.mgt := rfl
@[simp] theorem Dev.setOutQ_sec (d : Dev) (ep : Nat) (q : List Granule) : (d.setOutQ ep q).sec = d.sec := rfl
@[simp] theorem Dev.setOutQ_pwr (d : Dev) (ep : Nat) (q : List Granule) : (d.setOutQ ep q).pwr = d.pwr := rfl
@[simp] theorem Dev.setOutQ_tim (d : Dev) (ep : Nat) (q : List Granule) : (d.setOutQ ep q).tim = d.tim := rfl
@[simp] theorem Dev.setOutQ_fab (d : Dev) (ep : Nat) (q : List Granule) : (d.setOutQ ep q).fab = d.fab := rfl
@[simp] theorem Dev.setOutQ_xpt (d : Dev) (ep : Nat) (q : List Granule) : (d.setOutQ ep q).xpt = d.xpt := rfl
@[simp] theorem Dev.setOutQ_med (d : Dev) (ep : Nat) (q : List Granule) : (d.setOutQ ep q).med = d.med := rfl
@[simp] theorem Dev.setOutQ_thr (d : Dev) (ep : Nat) (q : List Granule) : (d.setOutQ ep q).thr = d.thr := rfl
@[simp] theorem Dev.setOutQ_col (d : Dev) (ep : Nat) (q : List Granule) : (d.setOutQ ep q).col = d.col := rfl

/-! ## setInQ -/

@[simp] theorem Dev.setInQ_regs (d : Dev) (ep : Nat) (q : List Granule) : (d.setInQ ep q).regs = d.regs := rfl
@[simp] theorem Dev.setInQ_mem (d : Dev) (ep : Nat) (q : List Granule) : (d.setInQ ep q).mem = d.mem := rfl
@[simp] theorem Dev.setInQ_clk (d : Dev) (ep : Nat) (q : List Granule) : (d.setInQ ep q).clk = d.clk := rfl
@[simp] theorem Dev.setInQ_timers (d : Dev) (ep : Nat) (q : List Granule) : (d.setInQ ep q).timers = d.timers := rfl
@[simp] theorem Dev.setInQ_resp (d : Dev) (ep : Nat) (q : List Granule) : (d.setInQ ep q).resp = d.resp := rfl
@[simp] theorem Dev.setInQ_sent (d : Dev) (ep : Nat) (q : List Granule) : (d.setInQ ep q).sent = d.sent := rfl
@[simp] theorem Dev.setInQ_free (d : Dev) (ep : Nat) (q : List Granule) : (d.setInQ ep q).free = d.free := rfl
@[simp] theorem Dev.setInQ_irq (d : Dev) (ep : Nat) (q : List Granule) : (d.setInQ ep q).irq = d.irq := rfl
@[simp] theorem Dev.setInQ_lgr (d : Dev) (ep : Nat) (q : List Granule) : (d.setInQ ep q).lgr = d.lgr := rfl
@[simp] theorem Dev.setInQ_mgt (d : Dev) (ep : Nat) (q : List Granule) : (d.setInQ ep q).mgt = d.mgt := rfl
@[simp] theorem Dev.setInQ_sec (d : Dev) (ep : Nat) (q : List Granule) : (d.setInQ ep q).sec = d.sec := rfl
@[simp] theorem Dev.setInQ_pwr (d : Dev) (ep : Nat) (q : List Granule) : (d.setInQ ep q).pwr = d.pwr := rfl
@[simp] theorem Dev.setInQ_tim (d : Dev) (ep : Nat) (q : List Granule) : (d.setInQ ep q).tim = d.tim := rfl
@[simp] theorem Dev.setInQ_fab (d : Dev) (ep : Nat) (q : List Granule) : (d.setInQ ep q).fab = d.fab := rfl
@[simp] theorem Dev.setInQ_xpt (d : Dev) (ep : Nat) (q : List Granule) : (d.setInQ ep q).xpt = d.xpt := rfl
@[simp] theorem Dev.setInQ_med (d : Dev) (ep : Nat) (q : List Granule) : (d.setInQ ep q).med = d.med := rfl
@[simp] theorem Dev.setInQ_thr (d : Dev) (ep : Nat) (q : List Granule) : (d.setInQ ep q).thr = d.thr := rfl
@[simp] theorem Dev.setInQ_col (d : Dev) (ep : Nat) (q : List Granule) : (d.setInQ ep q).col = d.col := rfl

/-! ## setChan -/

@[simp] theorem Dev.setChan_regs (d : Dev) (c : ChanRec) (x : Chan) : (d.setChan c x).regs = d.regs := rfl
@[simp] theorem Dev.setChan_mem (d : Dev) (c : ChanRec) (x : Chan) : (d.setChan c x).mem = d.mem := rfl
@[simp] theorem Dev.setChan_clk (d : Dev) (c : ChanRec) (x : Chan) : (d.setChan c x).clk = d.clk := rfl
@[simp] theorem Dev.setChan_timers (d : Dev) (c : ChanRec) (x : Chan) : (d.setChan c x).timers = d.timers := rfl
@[simp] theorem Dev.setChan_resp (d : Dev) (c : ChanRec) (x : Chan) : (d.setChan c x).resp = d.resp := rfl
@[simp] theorem Dev.setChan_sent (d : Dev) (c : ChanRec) (x : Chan) : (d.setChan c x).sent = d.sent := rfl
@[simp] theorem Dev.setChan_free (d : Dev) (c : ChanRec) (x : Chan) : (d.setChan c x).free = d.free := rfl
@[simp] theorem Dev.setChan_irq (d : Dev) (c : ChanRec) (x : Chan) : (d.setChan c x).irq = d.irq := rfl
@[simp] theorem Dev.setChan_lgr (d : Dev) (c : ChanRec) (x : Chan) : (d.setChan c x).lgr = d.lgr := rfl
@[simp] theorem Dev.setChan_mgt (d : Dev) (c : ChanRec) (x : Chan) : (d.setChan c x).mgt = d.mgt := rfl
@[simp] theorem Dev.setChan_sec (d : Dev) (c : ChanRec) (x : Chan) : (d.setChan c x).sec = d.sec := rfl
@[simp] theorem Dev.setChan_pwr (d : Dev) (c : ChanRec) (x : Chan) : (d.setChan c x).pwr = d.pwr := rfl
@[simp] theorem Dev.setChan_tim (d : Dev) (c : ChanRec) (x : Chan) : (d.setChan c x).tim = d.tim := rfl
@[simp] theorem Dev.setChan_fab (d : Dev) (c : ChanRec) (x : Chan) : (d.setChan c x).fab = d.fab := rfl
@[simp] theorem Dev.setChan_xpt (d : Dev) (c : ChanRec) (x : Chan) : (d.setChan c x).xpt = d.xpt := rfl
@[simp] theorem Dev.setChan_med (d : Dev) (c : ChanRec) (x : Chan) : (d.setChan c x).med = d.med := rfl
@[simp] theorem Dev.setChan_thr (d : Dev) (c : ChanRec) (x : Chan) : (d.setChan c x).thr = d.thr := rfl
@[simp] theorem Dev.setChan_col (d : Dev) (c : ChanRec) (x : Chan) : (d.setChan c x).col = d.col := rfl

/-! ## modMed -/

@[simp] theorem Dev.modMed_regs (d : Dev) (f : Med → Med) : (d.modMed f).regs = d.regs := rfl
@[simp] theorem Dev.modMed_mem (d : Dev) (f : Med → Med) : (d.modMed f).mem = d.mem := rfl
@[simp] theorem Dev.modMed_clk (d : Dev) (f : Med → Med) : (d.modMed f).clk = d.clk := rfl
@[simp] theorem Dev.modMed_timers (d : Dev) (f : Med → Med) : (d.modMed f).timers = d.timers := rfl
@[simp] theorem Dev.modMed_resp (d : Dev) (f : Med → Med) : (d.modMed f).resp = d.resp := rfl
@[simp] theorem Dev.modMed_sent (d : Dev) (f : Med → Med) : (d.modMed f).sent = d.sent := rfl
@[simp] theorem Dev.modMed_free (d : Dev) (f : Med → Med) : (d.modMed f).free = d.free := rfl
@[simp] theorem Dev.modMed_irq (d : Dev) (f : Med → Med) : (d.modMed f).irq = d.irq := rfl
@[simp] theorem Dev.modMed_lgr (d : Dev) (f : Med → Med) : (d.modMed f).lgr = d.lgr := rfl
@[simp] theorem Dev.modMed_mgt (d : Dev) (f : Med → Med) : (d.modMed f).mgt = d.mgt := rfl
@[simp] theorem Dev.modMed_sec (d : Dev) (f : Med → Med) : (d.modMed f).sec = d.sec := rfl
@[simp] theorem Dev.modMed_pwr (d : Dev) (f : Med → Med) : (d.modMed f).pwr = d.pwr := rfl
@[simp] theorem Dev.modMed_tim (d : Dev) (f : Med → Med) : (d.modMed f).tim = d.tim := rfl
@[simp] theorem Dev.modMed_fab (d : Dev) (f : Med → Med) : (d.modMed f).fab = d.fab := rfl
@[simp] theorem Dev.modMed_xpt (d : Dev) (f : Med → Med) : (d.modMed f).xpt = d.xpt := rfl
@[simp] theorem Dev.modMed_thr (d : Dev) (f : Med → Med) : (d.modMed f).thr = d.thr := rfl
@[simp] theorem Dev.modMed_col (d : Dev) (f : Med → Med) : (d.modMed f).col = d.col := rfl
@[simp] theorem Dev.modMed_seq (d : Dev) (f : Med → Med) : (d.modMed f).seq = d.seq := rfl

/-! ## modLive -/

@[simp] theorem Dev.modLive_regs (d : Dev) (f : MedMeta → MedMeta) : (d.modLive f).regs = d.regs := rfl
@[simp] theorem Dev.modLive_mem (d : Dev) (f : MedMeta → MedMeta) : (d.modLive f).mem = d.mem := rfl
@[simp] theorem Dev.modLive_clk (d : Dev) (f : MedMeta → MedMeta) : (d.modLive f).clk = d.clk := rfl
@[simp] theorem Dev.modLive_timers (d : Dev) (f : MedMeta → MedMeta) : (d.modLive f).timers = d.timers := rfl
@[simp] theorem Dev.modLive_resp (d : Dev) (f : MedMeta → MedMeta) : (d.modLive f).resp = d.resp := rfl
@[simp] theorem Dev.modLive_sent (d : Dev) (f : MedMeta → MedMeta) : (d.modLive f).sent = d.sent := rfl
@[simp] theorem Dev.modLive_free (d : Dev) (f : MedMeta → MedMeta) : (d.modLive f).free = d.free := rfl
@[simp] theorem Dev.modLive_irq (d : Dev) (f : MedMeta → MedMeta) : (d.modLive f).irq = d.irq := rfl
@[simp] theorem Dev.modLive_lgr (d : Dev) (f : MedMeta → MedMeta) : (d.modLive f).lgr = d.lgr := rfl
@[simp] theorem Dev.modLive_mgt (d : Dev) (f : MedMeta → MedMeta) : (d.modLive f).mgt = d.mgt := rfl
@[simp] theorem Dev.modLive_sec (d : Dev) (f : MedMeta → MedMeta) : (d.modLive f).sec = d.sec := rfl
@[simp] theorem Dev.modLive_pwr (d : Dev) (f : MedMeta → MedMeta) : (d.modLive f).pwr = d.pwr := rfl
@[simp] theorem Dev.modLive_tim (d : Dev) (f : MedMeta → MedMeta) : (d.modLive f).tim = d.tim := rfl
@[simp] theorem Dev.modLive_fab (d : Dev) (f : MedMeta → MedMeta) : (d.modLive f).fab = d.fab := rfl
@[simp] theorem Dev.modLive_xpt (d : Dev) (f : MedMeta → MedMeta) : (d.modLive f).xpt = d.xpt := rfl
@[simp] theorem Dev.modLive_thr (d : Dev) (f : MedMeta → MedMeta) : (d.modLive f).thr = d.thr := rfl
@[simp] theorem Dev.modLive_col (d : Dev) (f : MedMeta → MedMeta) : (d.modLive f).col = d.col := rfl
@[simp] theorem Dev.modLive_seq (d : Dev) (f : MedMeta → MedMeta) : (d.modLive f).seq = d.seq := rfl

/-! ## setLink -/

@[simp] theorem Dev.setLink_regs (d : Dev) (p : Nat) (l : Link) : (d.setLink p l).regs = d.regs := rfl
@[simp] theorem Dev.setLink_mem (d : Dev) (p : Nat) (l : Link) : (d.setLink p l).mem = d.mem := rfl
@[simp] theorem Dev.setLink_clk (d : Dev) (p : Nat) (l : Link) : (d.setLink p l).clk = d.clk := rfl
@[simp] theorem Dev.setLink_timers (d : Dev) (p : Nat) (l : Link) : (d.setLink p l).timers = d.timers := rfl
@[simp] theorem Dev.setLink_resp (d : Dev) (p : Nat) (l : Link) : (d.setLink p l).resp = d.resp := rfl
@[simp] theorem Dev.setLink_sent (d : Dev) (p : Nat) (l : Link) : (d.setLink p l).sent = d.sent := rfl
@[simp] theorem Dev.setLink_free (d : Dev) (p : Nat) (l : Link) : (d.setLink p l).free = d.free := rfl
@[simp] theorem Dev.setLink_irq (d : Dev) (p : Nat) (l : Link) : (d.setLink p l).irq = d.irq := rfl
@[simp] theorem Dev.setLink_lgr (d : Dev) (p : Nat) (l : Link) : (d.setLink p l).lgr = d.lgr := rfl
@[simp] theorem Dev.setLink_mgt (d : Dev) (p : Nat) (l : Link) : (d.setLink p l).mgt = d.mgt := rfl
@[simp] theorem Dev.setLink_sec (d : Dev) (p : Nat) (l : Link) : (d.setLink p l).sec = d.sec := rfl
@[simp] theorem Dev.setLink_pwr (d : Dev) (p : Nat) (l : Link) : (d.setLink p l).pwr = d.pwr := rfl
@[simp] theorem Dev.setLink_tim (d : Dev) (p : Nat) (l : Link) : (d.setLink p l).tim = d.tim := rfl
@[simp] theorem Dev.setLink_xpt (d : Dev) (p : Nat) (l : Link) : (d.setLink p l).xpt = d.xpt := rfl
@[simp] theorem Dev.setLink_med (d : Dev) (p : Nat) (l : Link) : (d.setLink p l).med = d.med := rfl
@[simp] theorem Dev.setLink_thr (d : Dev) (p : Nat) (l : Link) : (d.setLink p l).thr = d.thr := rfl
@[simp] theorem Dev.setLink_col (d : Dev) (p : Nat) (l : Link) : (d.setLink p l).col = d.col := rfl
@[simp] theorem Dev.setLink_seq (d : Dev) (p : Nat) (l : Link) : (d.setLink p l).seq = d.seq := rfl

/-! ## modThr -/

@[simp] theorem Dev.modThr_regs (d : Dev) (f : Thr → Thr) : (d.modThr f).regs = d.regs := rfl
@[simp] theorem Dev.modThr_mem (d : Dev) (f : Thr → Thr) : (d.modThr f).mem = d.mem := rfl
@[simp] theorem Dev.modThr_clk (d : Dev) (f : Thr → Thr) : (d.modThr f).clk = d.clk := rfl
@[simp] theorem Dev.modThr_timers (d : Dev) (f : Thr → Thr) : (d.modThr f).timers = d.timers := rfl
@[simp] theorem Dev.modThr_resp (d : Dev) (f : Thr → Thr) : (d.modThr f).resp = d.resp := rfl
@[simp] theorem Dev.modThr_sent (d : Dev) (f : Thr → Thr) : (d.modThr f).sent = d.sent := rfl
@[simp] theorem Dev.modThr_free (d : Dev) (f : Thr → Thr) : (d.modThr f).free = d.free := rfl
@[simp] theorem Dev.modThr_irq (d : Dev) (f : Thr → Thr) : (d.modThr f).irq = d.irq := rfl
@[simp] theorem Dev.modThr_lgr (d : Dev) (f : Thr → Thr) : (d.modThr f).lgr = d.lgr := rfl
@[simp] theorem Dev.modThr_mgt (d : Dev) (f : Thr → Thr) : (d.modThr f).mgt = d.mgt := rfl
@[simp] theorem Dev.modThr_sec (d : Dev) (f : Thr → Thr) : (d.modThr f).sec = d.sec := rfl
@[simp] theorem Dev.modThr_pwr (d : Dev) (f : Thr → Thr) : (d.modThr f).pwr = d.pwr := rfl
@[simp] theorem Dev.modThr_tim (d : Dev) (f : Thr → Thr) : (d.modThr f).tim = d.tim := rfl
@[simp] theorem Dev.modThr_fab (d : Dev) (f : Thr → Thr) : (d.modThr f).fab = d.fab := rfl
@[simp] theorem Dev.modThr_xpt (d : Dev) (f : Thr → Thr) : (d.modThr f).xpt = d.xpt := rfl
@[simp] theorem Dev.modThr_med (d : Dev) (f : Thr → Thr) : (d.modThr f).med = d.med := rfl
@[simp] theorem Dev.modThr_col (d : Dev) (f : Thr → Thr) : (d.modThr f).col = d.col := rfl
@[simp] theorem Dev.modThr_seq (d : Dev) (f : Thr → Thr) : (d.modThr f).seq = d.seq := rfl

/-! ## setThrQ -/

@[simp] theorem Dev.setThrQ_regs (d : Dev) (q : Nat) (x : ThrQ) : (d.setThrQ q x).regs = d.regs := rfl
@[simp] theorem Dev.setThrQ_mem (d : Dev) (q : Nat) (x : ThrQ) : (d.setThrQ q x).mem = d.mem := rfl
@[simp] theorem Dev.setThrQ_clk (d : Dev) (q : Nat) (x : ThrQ) : (d.setThrQ q x).clk = d.clk := rfl
@[simp] theorem Dev.setThrQ_timers (d : Dev) (q : Nat) (x : ThrQ) : (d.setThrQ q x).timers = d.timers := rfl
@[simp] theorem Dev.setThrQ_resp (d : Dev) (q : Nat) (x : ThrQ) : (d.setThrQ q x).resp = d.resp := rfl
@[simp] theorem Dev.setThrQ_sent (d : Dev) (q : Nat) (x : ThrQ) : (d.setThrQ q x).sent = d.sent := rfl
@[simp] theorem Dev.setThrQ_free (d : Dev) (q : Nat) (x : ThrQ) : (d.setThrQ q x).free = d.free := rfl
@[simp] theorem Dev.setThrQ_irq (d : Dev) (q : Nat) (x : ThrQ) : (d.setThrQ q x).irq = d.irq := rfl
@[simp] theorem Dev.setThrQ_lgr (d : Dev) (q : Nat) (x : ThrQ) : (d.setThrQ q x).lgr = d.lgr := rfl
@[simp] theorem Dev.setThrQ_mgt (d : Dev) (q : Nat) (x : ThrQ) : (d.setThrQ q x).mgt = d.mgt := rfl
@[simp] theorem Dev.setThrQ_sec (d : Dev) (q : Nat) (x : ThrQ) : (d.setThrQ q x).sec = d.sec := rfl
@[simp] theorem Dev.setThrQ_pwr (d : Dev) (q : Nat) (x : ThrQ) : (d.setThrQ q x).pwr = d.pwr := rfl
@[simp] theorem Dev.setThrQ_tim (d : Dev) (q : Nat) (x : ThrQ) : (d.setThrQ q x).tim = d.tim := rfl
@[simp] theorem Dev.setThrQ_fab (d : Dev) (q : Nat) (x : ThrQ) : (d.setThrQ q x).fab = d.fab := rfl
@[simp] theorem Dev.setThrQ_xpt (d : Dev) (q : Nat) (x : ThrQ) : (d.setThrQ q x).xpt = d.xpt := rfl
@[simp] theorem Dev.setThrQ_med (d : Dev) (q : Nat) (x : ThrQ) : (d.setThrQ q x).med = d.med := rfl
@[simp] theorem Dev.setThrQ_col (d : Dev) (q : Nat) (x : ThrQ) : (d.setThrQ q x).col = d.col := rfl
@[simp] theorem Dev.setThrQ_seq (d : Dev) (q : Nat) (x : ThrQ) : (d.setThrQ q x).seq = d.seq := rfl

/-! ## setAtt -/

@[simp] theorem Dev.setAtt_regs (d : Dev) (k : Nat) (a : Attempt) : (d.setAtt k a).regs = d.regs := rfl
@[simp] theorem Dev.setAtt_mem (d : Dev) (k : Nat) (a : Attempt) : (d.setAtt k a).mem = d.mem := rfl
@[simp] theorem Dev.setAtt_clk (d : Dev) (k : Nat) (a : Attempt) : (d.setAtt k a).clk = d.clk := rfl
@[simp] theorem Dev.setAtt_timers (d : Dev) (k : Nat) (a : Attempt) : (d.setAtt k a).timers = d.timers := rfl
@[simp] theorem Dev.setAtt_resp (d : Dev) (k : Nat) (a : Attempt) : (d.setAtt k a).resp = d.resp := rfl
@[simp] theorem Dev.setAtt_sent (d : Dev) (k : Nat) (a : Attempt) : (d.setAtt k a).sent = d.sent := rfl
@[simp] theorem Dev.setAtt_free (d : Dev) (k : Nat) (a : Attempt) : (d.setAtt k a).free = d.free := rfl
@[simp] theorem Dev.setAtt_irq (d : Dev) (k : Nat) (a : Attempt) : (d.setAtt k a).irq = d.irq := rfl
@[simp] theorem Dev.setAtt_lgr (d : Dev) (k : Nat) (a : Attempt) : (d.setAtt k a).lgr = d.lgr := rfl
@[simp] theorem Dev.setAtt_mgt (d : Dev) (k : Nat) (a : Attempt) : (d.setAtt k a).mgt = d.mgt := rfl
@[simp] theorem Dev.setAtt_sec (d : Dev) (k : Nat) (a : Attempt) : (d.setAtt k a).sec = d.sec := rfl
@[simp] theorem Dev.setAtt_pwr (d : Dev) (k : Nat) (a : Attempt) : (d.setAtt k a).pwr = d.pwr := rfl
@[simp] theorem Dev.setAtt_tim (d : Dev) (k : Nat) (a : Attempt) : (d.setAtt k a).tim = d.tim := rfl
@[simp] theorem Dev.setAtt_fab (d : Dev) (k : Nat) (a : Attempt) : (d.setAtt k a).fab = d.fab := rfl
@[simp] theorem Dev.setAtt_xpt (d : Dev) (k : Nat) (a : Attempt) : (d.setAtt k a).xpt = d.xpt := rfl
@[simp] theorem Dev.setAtt_med (d : Dev) (k : Nat) (a : Attempt) : (d.setAtt k a).med = d.med := rfl
@[simp] theorem Dev.setAtt_col (d : Dev) (k : Nat) (a : Attempt) : (d.setAtt k a).col = d.col := rfl
@[simp] theorem Dev.setAtt_seq (d : Dev) (k : Nat) (a : Attempt) : (d.setAtt k a).seq = d.seq := rfl

/-! ## modXpt -/

@[simp] theorem Dev.modXpt_regs (d : Dev) (f : Xpt → Xpt) : (d.modXpt f).regs = d.regs := rfl
@[simp] theorem Dev.modXpt_mem (d : Dev) (f : Xpt → Xpt) : (d.modXpt f).mem = d.mem := rfl
@[simp] theorem Dev.modXpt_clk (d : Dev) (f : Xpt → Xpt) : (d.modXpt f).clk = d.clk := rfl
@[simp] theorem Dev.modXpt_timers (d : Dev) (f : Xpt → Xpt) : (d.modXpt f).timers = d.timers := rfl
@[simp] theorem Dev.modXpt_resp (d : Dev) (f : Xpt → Xpt) : (d.modXpt f).resp = d.resp := rfl
@[simp] theorem Dev.modXpt_sent (d : Dev) (f : Xpt → Xpt) : (d.modXpt f).sent = d.sent := rfl
@[simp] theorem Dev.modXpt_free (d : Dev) (f : Xpt → Xpt) : (d.modXpt f).free = d.free := rfl
@[simp] theorem Dev.modXpt_irq (d : Dev) (f : Xpt → Xpt) : (d.modXpt f).irq = d.irq := rfl
@[simp] theorem Dev.modXpt_lgr (d : Dev) (f : Xpt → Xpt) : (d.modXpt f).lgr = d.lgr := rfl
@[simp] theorem Dev.modXpt_mgt (d : Dev) (f : Xpt → Xpt) : (d.modXpt f).mgt = d.mgt := rfl
@[simp] theorem Dev.modXpt_sec (d : Dev) (f : Xpt → Xpt) : (d.modXpt f).sec = d.sec := rfl
@[simp] theorem Dev.modXpt_pwr (d : Dev) (f : Xpt → Xpt) : (d.modXpt f).pwr = d.pwr := rfl
@[simp] theorem Dev.modXpt_tim (d : Dev) (f : Xpt → Xpt) : (d.modXpt f).tim = d.tim := rfl
@[simp] theorem Dev.modXpt_fab (d : Dev) (f : Xpt → Xpt) : (d.modXpt f).fab = d.fab := rfl
@[simp] theorem Dev.modXpt_med (d : Dev) (f : Xpt → Xpt) : (d.modXpt f).med = d.med := rfl
@[simp] theorem Dev.modXpt_thr (d : Dev) (f : Xpt → Xpt) : (d.modXpt f).thr = d.thr := rfl
@[simp] theorem Dev.modXpt_col (d : Dev) (f : Xpt → Xpt) : (d.modXpt f).col = d.col := rfl
@[simp] theorem Dev.modXpt_seq (d : Dev) (f : Xpt → Xpt) : (d.modXpt f).seq = d.seq := rfl

/-! ## setQp -/

@[simp] theorem Dev.setQp_regs (d : Dev) (q : Nat) (x : Qp) : (d.setQp q x).regs = d.regs := rfl
@[simp] theorem Dev.setQp_mem (d : Dev) (q : Nat) (x : Qp) : (d.setQp q x).mem = d.mem := rfl
@[simp] theorem Dev.setQp_clk (d : Dev) (q : Nat) (x : Qp) : (d.setQp q x).clk = d.clk := rfl
@[simp] theorem Dev.setQp_timers (d : Dev) (q : Nat) (x : Qp) : (d.setQp q x).timers = d.timers := rfl
@[simp] theorem Dev.setQp_resp (d : Dev) (q : Nat) (x : Qp) : (d.setQp q x).resp = d.resp := rfl
@[simp] theorem Dev.setQp_sent (d : Dev) (q : Nat) (x : Qp) : (d.setQp q x).sent = d.sent := rfl
@[simp] theorem Dev.setQp_free (d : Dev) (q : Nat) (x : Qp) : (d.setQp q x).free = d.free := rfl
@[simp] theorem Dev.setQp_irq (d : Dev) (q : Nat) (x : Qp) : (d.setQp q x).irq = d.irq := rfl
@[simp] theorem Dev.setQp_lgr (d : Dev) (q : Nat) (x : Qp) : (d.setQp q x).lgr = d.lgr := rfl
@[simp] theorem Dev.setQp_mgt (d : Dev) (q : Nat) (x : Qp) : (d.setQp q x).mgt = d.mgt := rfl
@[simp] theorem Dev.setQp_sec (d : Dev) (q : Nat) (x : Qp) : (d.setQp q x).sec = d.sec := rfl
@[simp] theorem Dev.setQp_pwr (d : Dev) (q : Nat) (x : Qp) : (d.setQp q x).pwr = d.pwr := rfl
@[simp] theorem Dev.setQp_tim (d : Dev) (q : Nat) (x : Qp) : (d.setQp q x).tim = d.tim := rfl
@[simp] theorem Dev.setQp_fab (d : Dev) (q : Nat) (x : Qp) : (d.setQp q x).fab = d.fab := rfl
@[simp] theorem Dev.setQp_med (d : Dev) (q : Nat) (x : Qp) : (d.setQp q x).med = d.med := rfl
@[simp] theorem Dev.setQp_thr (d : Dev) (q : Nat) (x : Qp) : (d.setQp q x).thr = d.thr := rfl
@[simp] theorem Dev.setQp_col (d : Dev) (q : Nat) (x : Qp) : (d.setQp q x).col = d.col := rfl
@[simp] theorem Dev.setQp_seq (d : Dev) (q : Nat) (x : Qp) : (d.setQp q x).seq = d.seq := rfl

/-! ## modCol -/

@[simp] theorem Dev.modCol_regs (d : Dev) (f : Col → Col) : (d.modCol f).regs = d.regs := rfl
@[simp] theorem Dev.modCol_mem (d : Dev) (f : Col → Col) : (d.modCol f).mem = d.mem := rfl
@[simp] theorem Dev.modCol_clk (d : Dev) (f : Col → Col) : (d.modCol f).clk = d.clk := rfl
@[simp] theorem Dev.modCol_timers (d : Dev) (f : Col → Col) : (d.modCol f).timers = d.timers := rfl
@[simp] theorem Dev.modCol_resp (d : Dev) (f : Col → Col) : (d.modCol f).resp = d.resp := rfl
@[simp] theorem Dev.modCol_sent (d : Dev) (f : Col → Col) : (d.modCol f).sent = d.sent := rfl
@[simp] theorem Dev.modCol_free (d : Dev) (f : Col → Col) : (d.modCol f).free = d.free := rfl
@[simp] theorem Dev.modCol_irq (d : Dev) (f : Col → Col) : (d.modCol f).irq = d.irq := rfl
@[simp] theorem Dev.modCol_lgr (d : Dev) (f : Col → Col) : (d.modCol f).lgr = d.lgr := rfl
@[simp] theorem Dev.modCol_mgt (d : Dev) (f : Col → Col) : (d.modCol f).mgt = d.mgt := rfl
@[simp] theorem Dev.modCol_sec (d : Dev) (f : Col → Col) : (d.modCol f).sec = d.sec := rfl
@[simp] theorem Dev.modCol_pwr (d : Dev) (f : Col → Col) : (d.modCol f).pwr = d.pwr := rfl
@[simp] theorem Dev.modCol_tim (d : Dev) (f : Col → Col) : (d.modCol f).tim = d.tim := rfl
@[simp] theorem Dev.modCol_fab (d : Dev) (f : Col → Col) : (d.modCol f).fab = d.fab := rfl
@[simp] theorem Dev.modCol_xpt (d : Dev) (f : Col → Col) : (d.modCol f).xpt = d.xpt := rfl
@[simp] theorem Dev.modCol_med (d : Dev) (f : Col → Col) : (d.modCol f).med = d.med := rfl
@[simp] theorem Dev.modCol_thr (d : Dev) (f : Col → Col) : (d.modCol f).thr = d.thr := rfl
@[simp] theorem Dev.modCol_seq (d : Dev) (f : Col → Col) : (d.modCol f).seq = d.seq := rfl

/-! ## setPtime -/

@[simp] theorem Dev.setPtime_regs (d : Dev) (p : Nat) (t : PTime) : (d.setPtime p t).regs = d.regs := rfl
@[simp] theorem Dev.setPtime_mem (d : Dev) (p : Nat) (t : PTime) : (d.setPtime p t).mem = d.mem := rfl
@[simp] theorem Dev.setPtime_clk (d : Dev) (p : Nat) (t : PTime) : (d.setPtime p t).clk = d.clk := rfl
@[simp] theorem Dev.setPtime_timers (d : Dev) (p : Nat) (t : PTime) : (d.setPtime p t).timers = d.timers := rfl
@[simp] theorem Dev.setPtime_resp (d : Dev) (p : Nat) (t : PTime) : (d.setPtime p t).resp = d.resp := rfl
@[simp] theorem Dev.setPtime_sent (d : Dev) (p : Nat) (t : PTime) : (d.setPtime p t).sent = d.sent := rfl
@[simp] theorem Dev.setPtime_free (d : Dev) (p : Nat) (t : PTime) : (d.setPtime p t).free = d.free := rfl
@[simp] theorem Dev.setPtime_irq (d : Dev) (p : Nat) (t : PTime) : (d.setPtime p t).irq = d.irq := rfl
@[simp] theorem Dev.setPtime_lgr (d : Dev) (p : Nat) (t : PTime) : (d.setPtime p t).lgr = d.lgr := rfl
@[simp] theorem Dev.setPtime_mgt (d : Dev) (p : Nat) (t : PTime) : (d.setPtime p t).mgt = d.mgt := rfl
@[simp] theorem Dev.setPtime_sec (d : Dev) (p : Nat) (t : PTime) : (d.setPtime p t).sec = d.sec := rfl
@[simp] theorem Dev.setPtime_pwr (d : Dev) (p : Nat) (t : PTime) : (d.setPtime p t).pwr = d.pwr := rfl
@[simp] theorem Dev.setPtime_fab (d : Dev) (p : Nat) (t : PTime) : (d.setPtime p t).fab = d.fab := rfl
@[simp] theorem Dev.setPtime_xpt (d : Dev) (p : Nat) (t : PTime) : (d.setPtime p t).xpt = d.xpt := rfl
@[simp] theorem Dev.setPtime_med (d : Dev) (p : Nat) (t : PTime) : (d.setPtime p t).med = d.med := rfl
@[simp] theorem Dev.setPtime_thr (d : Dev) (p : Nat) (t : PTime) : (d.setPtime p t).thr = d.thr := rfl
@[simp] theorem Dev.setPtime_col (d : Dev) (p : Nat) (t : PTime) : (d.setPtime p t).col = d.col := rfl
@[simp] theorem Dev.setPtime_seq (d : Dev) (p : Nat) (t : PTime) : (d.setPtime p t).seq = d.seq := rfl

/-! ## setBar -/

@[simp] theorem Dev.setBar_regs (d : Dev) (b : Nat) (x : Bar) : (d.setBar b x).regs = d.regs := rfl
@[simp] theorem Dev.setBar_mem (d : Dev) (b : Nat) (x : Bar) : (d.setBar b x).mem = d.mem := rfl
@[simp] theorem Dev.setBar_clk (d : Dev) (b : Nat) (x : Bar) : (d.setBar b x).clk = d.clk := rfl
@[simp] theorem Dev.setBar_timers (d : Dev) (b : Nat) (x : Bar) : (d.setBar b x).timers = d.timers := rfl
@[simp] theorem Dev.setBar_resp (d : Dev) (b : Nat) (x : Bar) : (d.setBar b x).resp = d.resp := rfl
@[simp] theorem Dev.setBar_sent (d : Dev) (b : Nat) (x : Bar) : (d.setBar b x).sent = d.sent := rfl
@[simp] theorem Dev.setBar_free (d : Dev) (b : Nat) (x : Bar) : (d.setBar b x).free = d.free := rfl
@[simp] theorem Dev.setBar_irq (d : Dev) (b : Nat) (x : Bar) : (d.setBar b x).irq = d.irq := rfl
@[simp] theorem Dev.setBar_lgr (d : Dev) (b : Nat) (x : Bar) : (d.setBar b x).lgr = d.lgr := rfl
@[simp] theorem Dev.setBar_mgt (d : Dev) (b : Nat) (x : Bar) : (d.setBar b x).mgt = d.mgt := rfl
@[simp] theorem Dev.setBar_sec (d : Dev) (b : Nat) (x : Bar) : (d.setBar b x).sec = d.sec := rfl
@[simp] theorem Dev.setBar_pwr (d : Dev) (b : Nat) (x : Bar) : (d.setBar b x).pwr = d.pwr := rfl
@[simp] theorem Dev.setBar_fab (d : Dev) (b : Nat) (x : Bar) : (d.setBar b x).fab = d.fab := rfl
@[simp] theorem Dev.setBar_xpt (d : Dev) (b : Nat) (x : Bar) : (d.setBar b x).xpt = d.xpt := rfl
@[simp] theorem Dev.setBar_med (d : Dev) (b : Nat) (x : Bar) : (d.setBar b x).med = d.med := rfl
@[simp] theorem Dev.setBar_thr (d : Dev) (b : Nat) (x : Bar) : (d.setBar b x).thr = d.thr := rfl
@[simp] theorem Dev.setBar_col (d : Dev) (b : Nat) (x : Bar) : (d.setBar b x).col = d.col := rfl
@[simp] theorem Dev.setBar_seq (d : Dev) (b : Nat) (x : Bar) : (d.setBar b x).seq = d.seq := rfl

end Sys2Proof.Machine
end

