-- ==== Sys2Proof/WellFormed.lean ====
section
/-! DEFINITION. Well-formed commands: operands that the GL9's surroundings can present. Every index lies in the range the spec gives
its kind (R6, R7, R23, R61, R146, R294, R296), and every byte string has a length that its carrier allows. A command that is not
well formed is none that the hardware can meet; its meaning is defined all the same. -/

namespace Sys2Proof

/-- A miscorrected payload has a payload's length, 3,840 bytes (R144, R145). -/
def Sense.wellFormed (x : Sense) : Bool :=
  match x with
  | .fails => true
  | .stored => true
  | .wrong p => p.length == 3840

/-- The senses are well formed, step 2 tries at most 16 RETRY entries, and the members named are members of a stripe (R148, R150). -/
def CwOutcome.wellFormed (o : CwOutcome) : Bool :=
  o.hard.wellFormed && o.retry.wellFormed && o.soft.wellFormed && decide (o.tries ≤ 16) && o.badMembers.all (fun m => decide (m < 32))

/-- A failure answered by a peer carries a status other than OK. -/
def Remote.wellFormed (x : Remote) : Bool :=
  match x with
  | .none => true
  | .data _ => true
  | .failed st => decide (st ≠ 0)

/-- The dies named lie in the address fields of R146. -/
def MediaFound.wellFormed (f : MediaFound) : Bool := f.failedDies.all (fun e => decide (e.1 < 32) && decide (e.2 < 32))

/-- The payload has LENGTH bytes where the kind carries one, and none otherwise (R499). -/
def Txn.wellFormed (t : Txn) : Bool :=
  decide (t.payload.length ≤ 4096) &&
    (if t.kind = 2 ∨ t.kind = 4 ∨ t.kind = 6 then t.payload.length == t.len.toNat else t.payload.length == 0)

/-- A request of the host link is well formed. -/
def HostSrc.wellFormed (h : HostSrc) : Bool :=
  match h with
  | .link t => t.wellFormed
  | .relay => true

/-- A queue pair is numbered below 2^20 and a core below 1,024 (R60, R294). -/
def ErrLoc.wellFormed (l : ErrLoc) : Bool :=
  match l with
  | .pond _ => true
  | .channelBuf _ _ => true
  | .stateArea _ _ => true
  | .planTables _ _ => true
  | .gtcCode _ _ => true
  | .packetBuffer _ _ => true
  | .qpState qp _ => decide (qp < 1048576)
  | .core c _ => decide (c < 1024)
  | .fixedRegion _ => true
  | .mgtSram _ => true
  | .ledger _ => true
  | .sec _ => true

/-- A command that the GL9's surroundings can present. -/
def Instr.wellFormed (i : Instr) : Bool :=
  match i with
  | .registerWrite _ size _ => (size == 8 || size == 4 || size == 2 || size == 1)
  | .deviceTick => true
  | .steepBoundary _ => true
  | .overrun _ => true
  | .scheduleLost _ => true
  | .loadDevice => true
  | .loadFunction _ => true
  | .changeFunction _ => true
  | .unloadFunction _ => true
  | .loaderOpInvalid _ _ => true
  | .loadAbort => true
  | .loaderChecksDone src => src.wellFormed
  | .tickArm _ _ => true
  | .tickRearmWrite _ => true
  | .start _ => true
  | .stop _ => true
  | .fnCmdInvalid _ _ => true
  | .kill _ => true
  | .stage _ _ => true
  | .channelGranuleWrite ch => ch < 16384
  | .channelCreditReturn ch => ch < 16384
  | .spliceGranule n => n < 64
  | .assemblerGranule _ port => port < 16
  | .shardDelivery _ consumer => consumer < 65536
  | .manifestSign => true
  | .mediaCodewordRead _ _ o replica => o.wellFormed && replica.wellFormed
  | .mediaWindowRead o => o.wellFormed
  | .nandCommandTimeout ch die _ => ch < 32 && die < 32
  | .parityProgram _ page _ => page < 1024
  | .blockRefresh b _ => b < 16777216
  | .blockRepair b _ => b < 16777216
  | .relocationCommit => true
  | .mapFloorWrite _ => true
  | .mapFloorFreeDone => true
  | .readCountSave => true
  | .gcRun => true
  | .gcMapUpdate _ => true
  | .mediaStartup found => found.wellFormed
  | .healthLogSave => true
  | .tempHistoryRecord _ _ => true
  | .read _ => true
  | .write _ => true
  | .flush _ => true
  | .deallocate _ => true
  | .nsCreate _ => true
  | .nsDelete _ => true
  | .nsList _ => true
  | .identify _ => true
  | .health _ => true
  | .mapExport _ => true
  | .seal _ => true
  | .stcOpcodeInvalid _ => true
  | .stcGoRejected _ => true
  | .stcCommandComplete _ fails => fails.all (fun e => decide (e.2 ≠ 0))
  | .powerRequestP0 => true
  | .powerRequestP1 => true
  | .powerRequestP2 => true
  | .powerRequestP3 => true
  | .powerEntryCommit => true
  | .hbmSelfRefreshEntry => true
  | .rcxFrameHeader n => n < 16
  | .rcxBlockDecode n => n < 16
  | .rcxFrameTrailer n => n < 16
  | .rcxCompressSample n => n < 16
  | .vdeSampleStart n => n < 32
  | .vdePictureDecode n => n < 32
  | .vdeContextSave n => n < 32
  | .jpgScanDecode n => n < 64
  | .imgPicture n => n < 32
  | .regionTableArrival n => n < 32
  | .bpeRun n => n < 64
  | .maskChunkHeader n => n < 32
  | .maskToken n => n < 32
  | .detokToken n => n < 64
  | .queueItemAdmit _ => true
  | .attemptStart _ core => core < 1024
  | .itemSteal _ core => core < 1024
  | .coreWithdraw c => c < 1024
  | .coreRestore c => c < 1024
  | .coreFailure c _ => c < 1024
  | .alu0 t _ _ => t < 16384
  | .alu1 t _ _ => t < 16384
  | .alu2 t _ _ => t < 16384
  | .addi t _ _ => t < 16384
  | .andi t _ _ => t < 16384
  | .ori t _ _ => t < 16384
  | .xori t _ _ => t < 16384
  | .shifti t _ _ => t < 16384
  | .movi t _ _ => t < 16384
  | .lit t _ _ => t < 16384
  | .cmp t _ _ => t < 16384
  | .plog t _ _ => t < 16384
  | .srd t _ _ => t < 16384
  | .swr t _ _ => t < 16384
  | .draw t _ _ => t < 16384
  | .fp32 t _ _ => t < 16384
  | .fp64 t _ _ => t < 16384
  | .fcmp t _ _ => t < 16384
  | .fcvt t _ _ => t < 16384
  | .ldu8 t _ _ => t < 16384
  | .lds8 t _ _ => t < 16384
  | .ldu16 t _ _ => t < 16384
  | .lds16 t _ _ => t < 16384
  | .ldu32 t _ _ => t < 16384
  | .lds32 t _ _ => t < 16384
  | .ld64 t _ _ => t < 16384
  | .st8 t _ _ => t < 16384
  | .st16 t _ _ => t < 16384
  | .st32 t _ _ => t < 16384
  | .st64 t _ _ => t < 16384
  | .vld t _ _ => t < 16384
  | .vst t _ _ => t < 16384
  | .atom t _ _ => t < 16384
  | .fatom t _ _ => t < 16384
  | .xadd t _ _ => t < 16384
  | .fence t _ _ => t < 16384
  | .wait t _ _ => t < 16384
  | .waitConditionMet t => t < 16384
  | .waitTimeout t => t < 16384
  | .bar t _ => t < 16384
  | .varith t _ _ => t < 16384
  | .vlogic t _ _ => t < 16384
  | .vcmp t _ _ => t < 16384
  | .vred t _ _ => t < 16384
  | .vcvt t _ _ => t < 16384
  | .vmove t _ _ => t < 16384
  | .tzero t _ _ => t < 16384
  | .tload t _ _ => t < 16384
  | .tstore t _ _ => t < 16384
  | .tmma t _ _ => t < 16384
  | .br t _ _ => t < 16384
  | .call t _ _ => t < 16384
  | .jr t _ _ => t < 16384
  | .done t _ _ => t < 16384
  | .halt t _ => t < 16384
  | .nop t _ => t < 16384
  | .portLaneLock _ => true
  | .dataFrame _ frame _ _ => decide (frame.length ≤ 4160)
  | .controlFrame _ frame _ => decide (frame.length ≤ 4160)
  | .replayTimeout _ => true
  | .controlFrameSend _ => true
  | .linkRxTimeout _ => true
  | .retrainTimeout _ => true
  | .downRetrain _ => true
  | .frameTransmitStart _ => true
  | .ethFrame _ f => decide (f.bytes ≤ 9216)
  | .portEnable _ _ => true
  | .nodeIdWrite _ => true
  | .fenceWrite _ _ => true
  | .routeCommitGo => true
  | .create _ => true
  | .destroy _ => true
  | .destroyComplete => true
  | .query _ => true
  | .qpCmdInvalid _ => true
  | .open _ _ _ => true
  | .revoke _ => true
  | .windowClosed _ => true
  | .pdWrite _ _ => true
  | .peerEntryWrite _ _ _ => true
  | .tcConfigWrite _ _ => true
  | .transportRequestIssue _ _ _ _ parts => decide (parts.length ≤ 16)
  | .transportWrite => true
  | .readReq => true
  | .atomic => true
  | .readResp => true
  | .atomicResp => true
  | .ack => true
  | .nak => true
  | .grant => true
  | .transportRetransmitTimeout _ => true
  | .rnrWaitExpiry _ => true
  | .qpStateFetched _ => true
  | .rocePacket => true
  | .roceAckTimeout _ => true
  | .cnp => true
  | .gateListGo _ _ => true
  | .gateListCommit _ => true
  | .gateEntryChange _ => true
  | .contrib => true
  | .result => true
  | .fail => true
  | .localContributionReady _ input => input < 256
  | .install _ => true
  | .remove _ => true
  | .colCmdInvalid _ _ => true
  | .colInstanceTimeout _ => true
  | .timeExchangeSend _ => true
  | .sync => true
  | .delayReq => true
  | .delayResp => true
  | .syncLossTimeout => true
  | .accurateClear => true
  | .ftSet _ => true
  | .ftNsRead => true
  | .timCtrlWrite _ => true
  | .ppsEdge => true
  | .arrive _ => true
  | .barArrive => true
  | .barRelease => true
  | .barrierRelease _ => true
  | .cancel _ => true
  | .uncorrectableError loc => loc.wellFormed
  | .hbmScrub _ _ => true
  | .firmwareAssert => true
  | .dumpComplete _ _ => true
  | .dumpRelease => true
  | .leaseExpiry => true
  | .heartbeatSend _ => true
  | .heartbeat => true
  | .neighbourSilent _ => true
  | .recoveryRecord rec _ => decide (rec.length ≤ 65507)
  | .recoveryFence => true
  | .admitNode => true
  | .lease => true
  | .recoveryKill => true
  | .recoveryStart => true
  | .membership => true
  | .watchdogExpiry _ => true
  | .interruptDelivery => true
  | .intEoi _ _ => true
  | .intPendWrite _ => true
  | .hostEoi _ => true
  | .hostLinkUp _ => true
  | .hostLinkDown => true
  | .regRead h => h.wellFormed
  | .regWrite h => h.wellFormed
  | .memRead h => h.wellFormed
  | .memWrite h => h.wellFormed
  | .dumpRead h => h.wellFormed
  | .record h => h.wellFormed
  | .hostOpInvalid h => h.wellFormed
  | .relayOpen => true
  | .relayTableWrite _ => true
  | .mgtNetLink _ _ => true
  | .writeSlot _ => true
  | .writeSlotComplete _ => true
  | .update => true
  | .handoverComplete _ => true
  | .select => true
  | .fwOpInvalid => true
  | .recordWrite _ => true
  | .recordWriteComplete _ => true
  | .quoteRequest => true
  | .quoteComplete => true
  | .powerOnReset => true
  | .warmResetPin => true
  | .glbResetWrite _ => true
  | .resetRelease _ seed eeprom => (seed.all (fun b => b.length == 32)) && (eeprom.all (fun b => b.length == 256))
  | .clockFault => true
  | .clockFaultEnd => true
  | .serdesRefclkLoss _ => true
  | .thermalSample sensors => !sensors.isEmpty
  | .railFault => true
  | .throttleUpdate _ => true
  | .voltageDroop _ => true
  | .smbusBlockRead _ => true
  | .pageProgram _ page member _ => page < 1024 && member < 32
  | .blockErase b _ => b < 16777216
  | .updatePreparingEnd => true
  | .voltageDroopEnd _ => true

end Sys2Proof
end

