-- ==== Sys2Proof/Tests/Slice0.lean ====
section
/-! SUPPORT. The model's own tests: ill-formed commands, GTC words written out from R319 and R320, the spec's worked examples, and
states that meet the hypotheses of the statements. -/

open Sys2Proof Sys2Proof.Machine

namespace Sys2Proof.Tests

set_option Elab.async false

/-! ## Well-formedness: one ill-formed command for each check -/

theorem test_wf_access_size : (Instr.registerWrite 0 3 0).wellFormed = false := by decide +kernel
theorem test_wf_accepts : (Instr.registerWrite 0 8 0).wellFormed = true ∧ (Instr.spliceGranule 63).wellFormed = true := by decide +kernel
theorem test_wf_data_path : ∀ i ∈ [Instr.channelGranuleWrite 16384, .channelCreditReturn 16384, .spliceGranule 64, .assemblerGranule 0 16,
    .shardDelivery 0 65536], i.wellFormed = false := by decide +kernel
theorem test_wf_remote : (Instr.loaderChecksDone (.failed 0)).wellFormed = false := by decide +kernel
/-- A codeword outcome in which everything decodes at step 1. -/
def clean : CwOutcome := ⟨.stored, .stored, 0, .stored, []⟩
theorem test_wf_codeword : ∀ o ∈ [{ clean with hard := .wrong [] }, { clean with retry := .wrong [] }, { clean with soft := .wrong [] },
    { clean with tries := 17 }, { clean with badMembers := [32] }],
    (Instr.mediaCodewordRead 0 0 o .none).wellFormed = false ∧ (Instr.mediaWindowRead o).wellFormed = false := by decide +kernel
theorem test_wf_replica : (Instr.mediaCodewordRead 0 0 clean (.failed 0)).wellFormed = false := by decide +kernel
theorem test_wf_media : ∀ i ∈ [Instr.nandCommandTimeout 32 0 true, .nandCommandTimeout 0 32 true, .parityProgram 0 1024 true, .blockRefresh 16777216 true,
    .blockRepair 16777216 true, .mediaStartup ⟨1, 1, 1, 32, true, true, [(32, 0)]⟩, .mediaStartup ⟨1, 1, 1, 32, true, true, [(0, 32)]⟩,
    .pageProgram 0 1024 0 true, .pageProgram 0 0 32 true, .blockErase 16777216 true], i.wellFormed = false := by decide +kernel
theorem test_wf_storage : (Instr.stcCommandComplete 0 [(0, 0)]).wellFormed = false := by decide +kernel
theorem test_wf_engines : ∀ i ∈ [Instr.rcxFrameHeader 16, .rcxBlockDecode 16, .rcxFrameTrailer 16, .rcxCompressSample 16, .vdeSampleStart 32, .vdePictureDecode 32,
    .vdeContextSave 32, .jpgScanDecode 64, .imgPicture 32, .regionTableArrival 32, .bpeRun 64, .maskChunkHeader 32, .maskToken 32, .detokToken 64],
    i.wellFormed = false := by decide +kernel
theorem test_wf_cores : ∀ i ∈ [Instr.attemptStart 0 1024, .itemSteal 0 1024, .coreWithdraw 1024, .coreRestore 1024, .coreFailure 1024 0],
    i.wellFormed = false := by decide +kernel

/-- A guard that always holds. -/
def g0 : Guard := ⟨0, false⟩
/-- Operands of 0 in formats R, I and V. -/
def r0 : FmtR := ⟨0, 0, 0, 0⟩
def i0 : FmtI := ⟨0, 0, 0⟩
def v0 : FmtV := ⟨0, 0, 0, 0, 0⟩
def t0 : FmtT := ⟨0, 0, 0, 0⟩
def a0 : FmtA := ⟨0, 0, 0, 0, 0, 0⟩
def u0 : FmtU := ⟨0, 0⟩
/-- GTC commands on a thread, their operand fields 0. -/
def gtcR (t : Nat) : List Instr :=
  [.alu0 t g0 r0, .alu1 t g0 r0, .alu2 t g0 r0, .cmp t g0 r0, .plog t g0 r0, .draw t g0 r0, .fp32 t g0 r0, .fp64 t g0 r0, .fcmp t g0 r0,
    .vmove t g0 r0, .jr t g0 r0, .done t g0 r0, .wait t g0 r0, .halt t g0, .nop t g0, .bar t g0]
def gtcI (t : Nat) : List Instr :=
  [.addi t g0 i0, .andi t g0 i0, .ori t g0 i0, .xori t g0 i0, .shifti t g0 i0, .srd t g0 i0, .swr t g0 i0, .ldu8 t g0 i0, .lds8 t g0 i0,
    .ldu16 t g0 i0, .lds16 t g0 i0, .ldu32 t g0 i0, .lds32 t g0 i0, .ld64 t g0 i0, .vld t g0 i0]
def gtcS (t : Nat) : List Instr := [.st8 t g0 i0, .st16 t g0 i0, .st32 t g0 i0, .st64 t g0 i0, .vst t g0 i0]
def gtcV (t : Nat) : List Instr :=
  [.varith t g0 v0, .vlogic t g0 v0, .vcmp t g0 v0, .vred t g0 v0, .tzero t g0 t0, .tload t g0 t0, .tstore t g0 t0, .tmma t g0 t0,
    .movi t g0 u0, .lit t g0 u0, .atom t g0 a0, .fatom t g0 a0]
def gtcB (t : Nat) : List Instr :=
  [.xadd t g0 ⟨0, 0, 14, 0, 0⟩, .fence t g0 ⟨true, 0, 0⟩, .br t g0 ⟨1⟩, .call t g0 ⟨1⟩, .fcvt t g0 ⟨0, 0, 1, 2, false⟩, .vcvt t g0 ⟨0, 0, 1, 2, false⟩]
def gtcAt (t : Nat) : List Instr := gtcR t ++ gtcI t ++ gtcS t ++ gtcV t ++ gtcB t
theorem test_wf_threads : (∀ i ∈ gtcAt 16384 ++ [Instr.waitConditionMet 16384, Instr.waitTimeout 16384],
    i.wellFormed = false) ∧ ∀ i ∈ gtcAt 16383, i.wellFormed = true := by decide +kernel
theorem test_wf_frames : ∀ i ∈ [Instr.dataFrame 0 (List.replicate 4161 0) false 0, .controlFrame 0 (List.replicate 4161 0) 0], i.wellFormed = false := by
  decide +kernel
/-- An Ethernet frame of 64 bytes outside the transport's subset. -/
def eth : EthFrame := ⟨64, true, false, none, none, true, 0, 0, 0, false, ⟨0, 0, false, .ack⟩⟩
theorem test_wf_ethernet : (Instr.ethFrame 0 { eth with bytes := 9217 }).wellFormed = false := by decide +kernel
theorem test_wf_parts : (Instr.transportRequestIssue 0 0 0 .read (List.replicate 17 ⟨false, 0, 0, 0, 0⟩)).wellFormed = false := by decide +kernel
theorem test_wf_input : (Instr.localContributionReady 0 256).wellFormed = false := by decide +kernel
theorem test_wf_error : ∀ l ∈ [ErrLoc.qpState 1048576 0, .core 1024 0], (Instr.uncorrectableError l).wellFormed = false := by decide +kernel
theorem test_wf_recovery (b : Bytes) (h : b.length = 65508) : (Instr.recoveryRecord b ⟨0, 0, 0⟩).wellFormed = false := by
  simp [Instr.wellFormed, h]
/-- A host request of a kind, an address and a length. -/
def txn (kind : Byte) (addr : Word) (len : BitVec 32) (payload : Bytes := []) : Txn := ⟨kind, 0, 0, 0, false, addr, len, 0, payload⟩
theorem test_wf_host : ∀ t ∈ [txn 2 0 8, txn 1 0 8 [0], { txn 6 0 5000 with payload := List.replicate 4097 0 }], ∀ i ∈ [Instr.regRead (.link t), .regWrite (.link t),
    .memRead (.link t), .memWrite (.link t), .dumpRead (.link t), .record (.link t), .hostOpInvalid (.link t)], i.wellFormed = false := by decide +kernel
theorem test_wf_reset : (Instr.resetRelease 0 (some []) none).wellFormed = false ∧ (Instr.resetRelease 0 none (some [])).wellFormed = false := by decide +kernel
theorem test_wf_sensors : (Instr.thermalSample []).wellFormed = false := by decide +kernel


/-! ## GTC words from the encodings (R319, R320): the code of the example after R344 -/

theorem test_gtc_example_words :
    gtcDecode 0 0x01260000 = some (.movi 0 g0 ⟨12, 0⟩) ∧ gtcDecode 0 0x02858000 = some (.ldu8 0 g0 ⟨11, 0, 0⟩) ∧
    gtcDecode 0 0x01609660 = some (.cmp 0 g0 ⟨1, 11, 12, 0⟩) ∧ gtcDecode 0 0x17000005 = some (.br 0 ⟨1, false⟩ ⟨5⟩) ∧
    gtcDecode 0 0x03468000 = some (.ld64 0 g0 ⟨13, 0, 0⟩) ∧ gtcDecode 0 0x03C68400 = some (.st64 0 g0 ⟨13, 2, 0⟩) ∧
    gtcDecode 0 0x07601C60 = some (.done 0 g0 ⟨0, 14, 12, 0⟩) ∧ gtcDecode 0 0x01278703 = some (.movi 0 g0 ⟨15, 0x703⟩) := by decide +kernel

/-! ## The spec's worked examples -/

/-- R117, the generator's test vectors. -/
theorem test_generator : drawOf (List.replicate 32 0) 0 0 0 = 0x903DF1A0ADE0B876 ∧ drawOf (List.replicate 32 0) 0 0 1 = 0x28BD8653E56A5D40 ∧
    drawOf (List.replicate 32 0) 0 0 8 = 0x7A385155BEE7079F ∧
    drawOf ((List.range 32).map (BitVec.ofNat 8)) 0x09000000 0x4A000000 8 = 0x15593BD1E4E7F110 := by decide +kernel

/-- The example after R285: five stochastic roundings of 0.3 to FP8E4M3. -/
theorem test_stochastic_rounding :
    [0xB876, 0xADE0, 0xF1A0, 0x903D, 0x5D40].map (fun r => (convertSr fp8e4m3 (decode fp32 0x3E99999A) r).val) = [0x2A, 0x2A, 0x2A, 0x2A, 0x29] := by
  decide +kernel

/-- The frame header of the 71-byte stream of spec 07: DEPTH 8, one component, 4 by 4. -/
def grfHdr : Bytes := [0x46, 0x52, 8, 1] ++ le 2 4 ++ le 2 4 ++ le 4 4 ++ List.replicate 20 0
/-- Its 4 by 4 block: header, then payload. -/
def grfPay : Bytes := [0x4C, 0x9B, 0x26, 0x4D, 0xAA, 0x6C, 0x88]
def grfBlock : Bytes := le 4 16 ++ le 4 7 ++ [3, 0, 0, 0] ++ grfPay
theorem test_residue_block : frameHeaderOk grfHdr = true ∧ blockHeaderOk grfBlock grfHdr 4 = true ∧
    (blockDecode grfBlock grfPay ⟨2, 16, 1, 0, grfHdr, 4, List.replicate 4 128, freshCtx 8, 0xFFFFFFFF⟩ 4).1 =
      [130, 131, 133, 134, 131, 133, 134, 136, 132, 134, 133, 137, 133, 135, 136, 139] := by decide +kernel

/-- The merges of the example of spec 09, and its piece " loweré". -/
def merges : List (Nat × Nat × Nat) := [(0x6C, 0x6F, 256), (256, 0x77, 257), (0x65, 0x72, 258), (0x20, 257, 259), (257, 258, 260)]
theorem test_bpe : bpeMerge merges 8 [32, 108, 111, 119, 101, 114, 195, 169] = [259, 258, 195, 169] := by decide

/-- The example after R439: packed partials of ranks 0 to 1, 8 to 11 and 4 to 7. -/
theorem test_packed_partials : packXa fp32 ⟨16777217 * 2 ^ 149, 0⟩ = [0, 18, 4, 0, 0x20, 0, 0, 0x20] ∧
    packXa fp32 ⟨-16777213 * 2 ^ 149, 0⟩ = [0, 18, 4, 0, 0x60, 0, 0, 0xE0] ∧ packXa fp32 ⟨4 * 2 ^ 149, 0⟩ = [0, 18, 2, 0, 0x80, 0] := by decide +kernel

/-- The example after R130: eight units for three consumers. -/
theorem test_shards : ((List.range 3).map fun c => (Batch.shardUnits ⟨0, 0, some (0, 3), [], false, [], [], 1, 8, [], 0, 0, none, false, [], []⟩ c)) =
    [(0, 2), (2, 3), (5, 3)] := by decide

/-! ## States that meet the hypotheses of the statements -/

/-- The device after reset, and a state around a device. -/
def d0 : Dev := State.reset.dev
def on (d : Dev) : State := ⟨d, []⟩
/-- Function 0 loaded with an image, in a state of R101. -/
def run (i : FnImage) : FnRun := { FnRun.unloaded with image := some i }
def fn0 (r : FnRun) (st : Nat) : Dev := ({ d0 with seq := { d0.seq with fns := [(0, r)] } } : Dev).set (R.SEQ_FN_STATUS_STATE 0) st
/-- The device with FATAL set, and with the host link up. -/
def dFatal : Dev := d0.set R.LGR_STATUS_FATAL 1
def dHost : Dev := { d0 with mgt := { d0.mgt with hostUp := true } }
/-- A region of HBM of function 0 that programs may read and write. -/
def reg0 : Region := ⟨0, 2, false, 0x10000, 0x10000⟩
def img0 : FnImage := { FnImage.empty with regions := [reg0] }

theorem witness_idle : (on d0).pending = [] ∧ d0.pwr.phase = .running ∧ ({ d0 with pwr := { d0.pwr with phase := .dead } } : Dev).pwr.phase ≠ .running := by
  decide +kernel
theorem witness_closed : domainOf .deviceTick = .engine ∧ dFatal.fatal = true ∧ domainOf .loadDevice ≠ .always := by decide +kernel
theorem witness_good : (on { d0 with clk := 8 }).Good ∧ ∃ t, step (on { d0 with clk := 8 }) = .next t :=
  ⟨by unfold State.Good; decide +kernel, _, rfl⟩
theorem witness_reset_values : 15 < 16 ∧ 4095 < 4096 := by decide
theorem witness_memory : Mem.wf (d0.write 0x100 [1, 0, 2]).mem = true ∧ 0x80 + 16 ≤ 0x100 ∧ 0x100 + 3 ≤ 0x103 := by decide +kernel
theorem witness_fields : R.FAB_NODE_ID_NODE.lo ≤ R.FAB_NODE_ID_NODE.hi ∧ R.FAB_NODE_ID_NODE.hi < 64 ∧ R.FAB_NODE_ID_ADMIT_EPOCH.off = R.FAB_NODE_ID_NODE.off ∧
    R.FAB_NODE_ID_NODE.hi < R.FAB_NODE_ID_ADMIT_EPOCH.lo ∧ R.GLB_THERMAL_LEVEL.off ≠ R.FAB_NODE_ID_NODE.off := by decide
theorem witness_control_space : d0.pwr.phase = .running ∧ regAt 0xFFFFFFF8 = none ∧ (0xFFFFFFFC : Nat) % 8 ≠ 0 ∧ dHost.mgt.hostUp = true ∧
    (0 : Nat) = dHost.get R.MGT_HOST_INDEX ∧ dHost.get R.MGT_FW_STATUS_STATE ≠ 3 ∧ (txn 1 4 8).addr.toNat % 8 ≠ 0 := by decide +kernel
/-- Ticks armed for a launch at 1,000 ns; ticks that fall. -/
def dArmed : Dev := (d0.setWord R.SEQ_LAUNCH_FT 1000).set R.SEQ_TICK_CTRL_ARM 1
def dTicks : Dev := d0.set R.SEQ_TICK_CTRL_RUNNING 1
theorem witness_arming : d0.ticking = false ∧ dTicks.ticking = true ∧ dArmed.ftNs < dArmed.tickAt dArmed.firstTick ∧ dArmed.has R.SEQ_TICK_CTRL_ARM = true ∧
    dArmed.has R.SEQ_TICK_CTRL_SRC = false ∧ (dArmed.setWord R.SEQ_LAUNCH_FT 0).tickAt 0 ≤ dArmed.ftNs ∧ dArmed.fatal = false := by decide +kernel
theorem witness_load_start : d0.fatal = false ∧ d0.powerDown = false ∧ d0.has R.SEQ_IMG_STATUS_BUSY = false ∧ d0.has R.SEQ_IMG_STATUS_PENDING = false ∧
    d0.updating = false ∧ d0.loadedFns = [] ∧ (d0.set R.SEQ_IMG_STATUS_DEVICE_LOADED 1).has R.SEQ_IMG_STATUS_DEVICE_LOADED = true ∧ d0.loaded 0 = false ∧
    (fn0 (run img0) 1).loaded 0 = true ∧ (fn0 (run img0) 1).fnPending 0 = false ∧ (fn0 (run img0) 1).fnState 0 = 1 ∧ (fn0 (run img0) 1).loadReject 4 = 0 := by
  decide +kernel
theorem witness_load_refused : dFatal.fatal = true ∧ (d0.set R.STC_POWER_STATUS_CURRENT 1).powerDown = true ∧
    (d0.set R.SEQ_IMG_STATUS_BUSY 1).has R.SEQ_IMG_STATUS_BUSY = true ∧ (d0.set R.SEQ_IMG_STATUS_BUSY 1).powerDown = false ∧
    (fn0 (run img0) 2).fnPending 0 = true ∧ (fn0 (run img0) 3).fnState 0 ≠ 1 := by decide +kernel
/-- A loader request of `n` bytes at an address, under way. -/
def dReq (src n : Nat) : Dev := ({ d0 with seq := { d0.seq with req := some ⟨2, 0, src, n⟩ } } : Dev).set R.SEQ_IMG_STATUS_BUSY 1
theorem witness_load_end : (dReq 0 8).seq.req = some ⟨2, 0, 0, 8⟩ ∧ (dReq 0 8).fatal = false ∧ (dReq 0 8).isLocal (0xFFF * 2 ^ 52) = true ∧ srcRange 0 8 = none ∧
    srcRange 0x9DC0000000 8 = some 0x0404 ∧ ((dReq 0 8).read 0 8).length = 8 ∧
    (∃ e, (dReq 0 8).brqChecks ⟨2, 0, 0, 8⟩ ⟨0xFF, 0, false, 0, 8⟩ ((dReq 0 8).read 0 8) = .error e) := by
  refine ⟨by decide +kernel, by decide +kernel, by decide +kernel, by decide +kernel, by decide +kernel, by decide +kernel, ?_⟩
  exact ⟨⟨0x0110, 4, 0xFF⟩, by decide +kernel⟩
/-- Function 0 with a PLAN of four steep records, the first three of no QUIESCE, at 60 µs. -/
def img1 : FnImage := { img0 with sects := [⟨3, 0x10000, 0x200⟩] }
def planned (r : FnRun) (st : Nat) : Dev :=
  let d := ((fn0 r st).write 0x10018 (le 8 4)).write 0x10038 (le 8 0x40)
  { d.set R.SEQ_TICK_CTRL_RUNNING 1 with tim := { d.tim with ft := BitVec.ofNat 80 (60000 * 65536) } }
/-- A position in flight, booked at stage 0 for steep record 0. -/
def live0 : Live := ⟨0, 0, 1, 0, 0, 0xFFFFFFFF, [(0, 0)], [], false, false, 0, false, false⟩
def run1 : FnRun := run img1
theorem witness_ticks : dTicks.nextTick = some 1 ∧ dTicks.ftNs < dTicks.tickAt 1 ∧ (planned run1 1).nextTick = some 1 ∧ (planned run1 1).tickAt 1 ≤ (planned run1 1).ftNs ∧
    (∀ d, d = (((planned run1 1).set R.SEQ_TICK_CTRL_RUNNING 1).set R.SEQ_TICK_CTRL_ARM 0).setW R.SEQ_TICK 1 → 16 ≤ d.get R.GLB_THERMAL_LEVEL ∧ d.fatal = false ∧
      d.seq.pend = none ∧ d.checkDev = d) := by
  refine ⟨by decide +kernel, by decide +kernel, by decide +kernel, by decide +kernel, ?_⟩
  rintro d rfl
  exact ⟨by decide +kernel, by decide +kernel, by decide +kernel, by rfl⟩
theorem witness_boundary : ∀ d, d = planned run1 3 → d.fnRuns 0 = true ∧ d.workDone 0 = true ∧ d.boundaryAt 0 ≤ d.ftNs ∧ d.get R.MGT_FW_STATUS_STATE ≠ 3 ∧
    d.boundaryAt 0 ≤ d.plannedEnd 0 ∧ (d.fn 0).lag = 0 ∧ (d.fn 0).staged = none ∧ (d.fn 0).past = false ∧ d.recordNo 0 + 1 < d.steepCount 0 ∧
    (d.record 0 (d.recordNo 0)).2.2 = false := by
  rintro d rfl; decide +kernel
theorem witness_boundary_pools : (planned run1 3).checkAll 0 = planned run1 3 := by rfl
theorem witness_quiesce : ∀ d, d = (planned { run1 with pendStop := true } 4).write 0x1004C [1] → (d.fn 0).past = false ∧ (d.record 0 (d.recordNo 0)).2.2 = true ∧
    d.drained 0 = true ∧ (d.fn 0).pendStop = true ∧ (d.fn 0).pendKill = false ∧
    ((planned { run1 with pendStop := true, live := [live0] } 4).write 0x1004C [1]).drained 0 = false := by
  rintro d rfl; decide +kernel
theorem witness_overrun : ∀ d, d = planned { run1 with live := [live0] } 3 → d.fnRuns 0 = true ∧ d.workDone 0 = false ∧ (d.fn 0).overCounted = false ∧ d.earliestEnd 0 ≤ d.ftNs ∧
    d.has (R.SEQ_FN_STATUS_SCHED_LOST 0) = false ∧ d.lagCeil 0 * d.steepNs < d.currentLag 0 := by
  rintro d rfl; decide +kernel
theorem witness_start : ∀ d, d = planned run1 1 → d.startCheck 0 0 false 0 = 0 ∧ (fn0 run1 1).startCheck 0 0 false 0 = 0x051A ∧ dFatal.startCheck 0 0 false 0 ≠ 0 ∧ d.fatal = false ∧
    d.has R.LGR_STATUS_SELF_FENCED = false ∧ d.powerDown = false ∧ d.loaded 0 = true ∧ d.fnPending 0 = false ∧ d.fnState 0 = 1 ∧ d.has R.SEQ_TICK_CTRL_RUNNING = true ∧
    d.tickNo < 1 ∧ 3 < d.steepCount 0 ∧ (d.record 0 2).2.2 = false ∧ d.steepCount 0 ≤ 4 := by
  rintro d rfl; decide +kernel
theorem witness_stop : (planned run1 3).loaded 0 = true ∧ (planned run1 3).fnPending 0 = false ∧ (planned run1 3).fnState 0 ≠ 1 ∧ (planned run1 4).fnPending 0 = true ∧
    d0.loaded 0 = false := by decide +kernel
/-- STAGE: each status of R109 at a boundary of its clause. -/
theorem witness_stage : ∀ d, d = ((planned run1 3).set (R.SEQ_FN_MEMB_EPOCH_EPOCH 0) 1).set (R.SEQ_FN_MEMB_TABLE_ADDR 0) 0x10 →
    (d.stageCheck 0 1 1 0x10000 4096 = 0x0120 ∧ d.stageCheck 0 1 1 0x10000 2048 = 0 ∧ d.stageCheck 0 0 1 0x10000 1 = 0x0518 ∧ d.stageCheck 0 1 0 0x10000 1 = 0x0519 ∧
      d.stageCheck 0 1 1 0x10000 0xFFFF = 0x0202 ∧ d.stageCheck 0 1 1 0x10000 0 = 0x0120 ∧ d.stageCheck 0 1 1 0x10000 4097 = 0x0120 ∧ d0.stageCheck 0 1 1 0 1 = 0x0514) := by
  rintro d rfl; decide +kernel

/-- A channel from endpoint 1 to endpoint 2, and a splice, an assembler and an engine of function 0. -/
def eps0 : List Endpoint := [⟨1, 0xC, true, 0, 0, 0⟩, ⟨2, 0xC, false, 0, 0, 0⟩, ⟨3, 0xA, false, 0, 0, 0⟩]
def img2 : FnImage := { img1 with eps := eps0, chans := [⟨0, 1, 2, 0, 0, 4⟩] }
def gran : Granule := ⟨0, 1, 0, [7], true, 0⟩
def withSeq (d : Dev) (f : Seq → Seq) : Dev := { d with seq := f d.seq }
theorem witness_channel : ∀ d, d = (fn0 (run img2) 3).setOutQ 1 [gran] → d.chanRec 0 = some (0, ⟨0, 1, 2, 0, 0, 4⟩) ∧ d.outQ 1 = [gran] ∧
    (d.chan ⟨0, 1, 2, 0, 0, 4⟩).credits = 4 ∧ d.halted 0 = false ∧ d.cacheEp 0 ≠ 2 ∧ ((d.setChan ⟨0, 1, 2, 0, 0, 4⟩ ⟨0, [gran]⟩).chan ⟨0, 1, 2, 0, 0, 4⟩) = ⟨0, [gran]⟩ := by
  rintro d rfl; decide +kernel
def copying : Eng := { Eng.idle with tok := 1, active := true, st := .splice 0 }
theorem witness_splice : ∀ d, d = ((fn0 (run img2) 3).setInQ 2 [gran]).setEng 0xC 0 copying → d.owner 0xC 0 = some 0 ∧ (d.img 0).ports 0xC 0 false = [⟨2, 0xC, false, 0, 0, 0⟩] ∧
    fld (d.config 0 0xC 0) 1 1 = 0 ∧ (d.eng 0xC 0).active = true ∧ (d.takeGranule 2 0 1).isSome = true ∧ d.hasRoom 0 1 = true ∧
    (d.setChan ⟨0, 1, 2, 0, 0, 4⟩ ⟨0, []⟩).hasRoom 0 1 = false ∧ withinCap (d.workCap 0 0xC 0 0) 1 = true := by
  rintro d rfl; decide +kernel
theorem witness_join : lowest [gran] = some (0, 1, 0) ∧ [gran].any (fun g => g.last) = true ∧ Eng.idle.active = false := by decide
/-- An assembler taking a sample of a function whose slots hold four bytes. -/
def asm0 : Dev := ((fn0 { run { img2 with sects := [⟨4, 0x10000, 0x200⟩] } with live := [live0] } 3).write 0x10020 (le 8 4)).write 0x10004 (le 4 1)
theorem witness_assembler : ∀ d, d = ((asm0.write 0x10010 (le 8 1)).setInQ 3 [gran]).setEng 0xA 0 copying →
    d.epOf 0xA 0 false 0 = some (0, ⟨3, 0xA, false, 0, 0, 0⟩) ∧ d.staleAt 0 gran = false ∧ (d.fn 0).live.find? (fun l => !l.placed) = some live0 ∧
    d.packMode 0 = 0 ∧ d.slotBytes 0 = 4 ∧ (([7, 7, 7] : Bytes) ++ gran.data).length ≤ d.slotBytes 0 ∧ d.slotBytes 0 < (([7, 7, 7, 7] : Bytes) ++ gran.data).length ∧
    withinCap (d.workCap 0 0xA 0 0) 1 = true ∧ d.asmWaits 0 0 = false := by
  rintro d rfl; decide +kernel
theorem witness_packing : 0 < 4 ∧ 0 ≠ 4 ∧ 0 < 2 ∧ 4 ≤ 4 - 0 ∧ (placeLoop 4 2 2 3 1 4 1 4 true) = none ∧
    placeLoop 4 2 2 3 0 4 1 8 true = none ∧ placeLoop 4 3 2 3 0 4 1 8 true = some ((2, 4, 1), [⟨1, 0, 0, 4, 2⟩, ⟨2, 0, 0, 4, 1⟩]) := by decide
/-- A batch of four bytes for one consumer, its manifest built. -/
def table0 : Bytes := le 2 5 ++ [0, 0] ++ le 4 7 ++ le 8 0x100 ++ le 8 0x2000 ++ le 4 2 ++ le 4 0
def batch0 : Batch := {
  no := 0
  epoch := 0
  memb := some (1, 1)
  table := table0
  old := false
  image := []
  slots := []
  unitBytes := 4
  unitCount := 1
  whole := [1, 2, 3, 4]
  planRecord := 0
  deliverySteep := 0
  manifest := some [9]
  signing := false
  sent := []
  fails := [] }
theorem witness_delivery : batch0.manifest.isSome = true ∧ 0 < batch0.consumers ∧ batch0.stateOf 0 = 0 ∧ Map.find batch0.fails 0 = none ∧
    batch0.consumer 0 = (5, 7, 0x100, 0x2000, 2) ∧ (batch0.shardBytes 0).isEmpty = false ∧ ({ batch0 with table := [] }.consumer 0).2.2.2.2 = 0 ∧
    ({ batch0 with sent := [(0, 2)] }.stateOf 0) = 2 := by decide +kernel
def signing0 : FnRun := { run img1 with batches := [{ batch0 with signing := true }] }
theorem witness_signing : ∀ d : Dev, d = { (fn0 signing0 3) with sec := { d0.sec with signQ := [⟨0, 0⟩] } } →
    d.sec.signQ = [⟨0, 0⟩] ∧ (d.fn 0).batches = [{ batch0 with signing := true }] := by
  rintro d rfl; decide +kernel

/-! Media -/

/-- Media ONLINE: one die a channel of one plane, superblock 0 on the first block of every channel, with its first codeword programmed. -/
def dMed : Dev :=
  let d := (((d0.set R.MED_STATUS_STATE 2).set R.MED_GEOM_DIES 1).set R.MED_GEOM_PLANES 1).set R.MED_GEOM_BLOCKS 64
  let d := d.set R.MED_GEOM_PAGES 32
  { d with med := { d.med with
    nand := [(0, [1, 2])]
    asks := [.thread 0 0 (0xFFF * 2 ^ 52 + mediaBase) 8] } }
theorem witness_media : dMed.mOnline = true ∧ dMed.mDies = 1 ∧ dMed.dieFailed 0 0 = false ∧ 0 < dMed.mDies ∧ dMed.blkFailed 0 = false ∧ dMed.inP0 = true ∧
    d0.mOnline = false ∧ withinCap (some 0) 1 = false ∧ withinCap (some 1) 1 = true := by decide +kernel
theorem witness_extent : crc32c [1, 2, 3] = fld (le 4 (crc32c [1, 2, 3])) 0 4 := by decide +kernel
def sb0 : SupBlk := ⟨0, List.range 32, [], []⟩
theorem witness_program : ∀ d : Dev, d = { dMed with med := { dMed.med with wbuf := (List.range 4).map (fun c => (placeNo 0 1 0 c, [BitVec.ofNat 8 c])) } } → sb0.members.length = 32 ∧
    0 ≠ 1 % 32 ∧ (List.range 4).map (fun c => Map.find d.med.wbuf (placeNo 0 1 0 c)) = ([[0], [1], [2], [3]] : List Bytes).map some := by
  rintro d rfl; decide +kernel
theorem witness_parity : ∀ j, j < 32 → j ≠ 1 % 32 → ({ sb0 with data := (List.range 32).map (fun j => 32 + j) }).data.contains (32 * 1 + j) = true := by decide +kernel
theorem witness_erase : ∀ d : Dev, d = dMed.modLive (fun m => { m with blks := [(5, ⟨2, 3, 0⟩)], reloc := [⟨6, 7, 1⟩] }) → d.inP0 = true ∧ (d.blk 5).st = 2 ∧
    d.med.live.reloc.any (fun x => x.old = 5) = false ∧ d.med.live.reloc.any (fun x => x.old = 6) = true ∧ d.med.freeing.contains 5 = false ∧ d.endurance = 0 := by
  rintro d rfl; decide +kernel
theorem witness_move : ∀ d : Dev, d = { dMed with med := { dMed.med with queue := [5], move := some (5, 6) } } → d.med.queue = [5] ∧ d.med.move = some (5, 6) ∧
    d.med.live.exported = false ∧ d.mayMove 5 6 = false := by
  rintro d rfl; decide +kernel
theorem witness_floor : ∀ d : Dev, d = dMed.modLive (fun m => { m with floor := 1, epoch := 2 }) → 0 < d.med.live.floor ∧ d.med.live.floor ≤ 1 ∧ 2 ≤ d.med.live.epoch ∧
    d.med.live.epoch < 3 ∧ d.mapEpochs.any (fun e => e < 2) = false := by
  rintro d rfl; decide +kernel
theorem witness_upkeep : ∀ d : Dev, d = { dMed with med := { dMed.med with tj := some (40, 30), gc := [⟨2 ^ 48, 5, 0⟩, ⟨2 ^ 48 + 1, 6, 1⟩] } } → d.med.tj = some (40, 30) ∧
    d.med.live.temps.length < 1440 ∧ d.med.gc ≠ [] ∧ placeOf (0 % d.sbSectors) = (0, 1, 0) ∧ Map.find d.med.live.pmap (2 ^ 48) ≠ some 5 := by
  rintro d rfl; decide +kernel
theorem witness_media_startup : d0.mOnline = false ∧ profileOk d0.profile = false := by decide +kernel

/-! Storage and power -/

/-- Media ONLINE with a writable namespace 1 of ten sectors. -/
def dNs : Dev := { dMed with med := { dMed.med with live := { dMed.med.live with ns := [(1, ⟨0, 10, false, false, 0, 0, []⟩)] } } }
/-- A command of task set 0. -/
def task (op nsid sector count buf len : Nat) : Task := ⟨0, op, nsid, sector, count, buf, len, 0, 0, [], 0, 0, false, []⟩
def ask (d : Dev) (op nsid sector count len : Nat) : Status × Bool := d.stcCheck (task op nsid sector count 0x100 len)
theorem witness_storage_checks : ask dNs 9 1 0 1 9999 = (0x0116, false) ∧ ask dNs 1 65 0 1 9999 = (0x0123, false) ∧ ask d0 1 1 0 1 9999 = (0x0303, false) ∧
    ask dNs 0x10 1 0 1 9999 = (0x0523, false) ∧ ask dNs 1 2 0 1 9999 = (0x0522, false) ∧
    ask { dNs with med := { dNs.med with tasks := [task 0x11 1 0 0 0 0] } } 1 1 0 1 9999 = (0x0525, false) ∧
    ask dNs 1 1 0 (2 ^ 32 - 1) 9999 = (0x0202, false) ∧ ask dNs 1 1 0 11 99999 = (0x0201, false) ∧ ask dNs 1 1 10 0 0 = (0, false) ∧
    ask dNs 1 1 9 1 3840 = (0, true) ∧ ask dNs 1 1 9 1 3839 = (0x0201, false) := by decide +kernel
theorem witness_storage_start : d0.has (R.STC_TASK_STATUS_BUSY 0) = false ∧ ((d0.set (R.STC_TASK_CMD_OPCODE 0) 1).get (R.STC_TASK_CMD_OPCODE 0)) = 1 ∧
    d0.fatal = false ∧ dFatal.fatal = true ∧ (d0.set (R.STC_TASK_STATUS_BUSY 0) 1).has (R.STC_TASK_STATUS_BUSY 0) = true ∧ stcListed 5 = false := by decide +kernel
theorem witness_storage_end : ∀ x, x = task 1 1 0 1 0x100 3840 → ∀ d : Dev, d = { dNs with med := { dNs.med with tasks := [x] } } →
    d.task 0 = some x ∧ (d.earlier 0).any (fun e => d.holds e x) = false ∧ d.bufRemote ((0xFFF * 2 ^ 52) + 0x100) = false ∧ d.secPlace 1 0 = none ∧
    d.get R.MGT_FW_STATUS_STATE ≠ 3 := by
  rintro x rfl d rfl; decide +kernel
theorem witness_power : d0.get R.STC_POWER_STATUS_CURRENT = 0 ∧ d0.has R.STC_POWER_STATUS_ENTERING = false ∧ d0.has R.SEQ_IMG_STATUS_BUSY = false ∧
    (List.range 16).all (fun f => d0.fnState f ≤ stStopped) = true ∧ (List.range 16).all (fun f => (planned run1 3).fnState f ≤ stStopped) = false ∧
    (dReq 0 8).has R.SEQ_IMG_STATUS_BUSY = true ∧ (d0.set R.STC_POWER_STATUS_CURRENT 2).get R.STC_POWER_STATUS_CURRENT = 2 ∧
    (d0.set R.STC_POWER_STATUS_ENTERING 1).has R.STC_POWER_STATUS_ENTERING = true ∧ d0.med.tasks = [] ∧ d0.med.wbuf = [] ∧ d0.mOnline = false := by decide +kernel
theorem witness_self_refresh : ∀ d : Dev, d = { d0 with timers := [(.selfRefresh, 0)], med := { d0.med with accessed := true } } →
    d.med.accessed = true ∧ d.expired .selfRefresh = true ∧ d0.expired .selfRefresh = false := by
  rintro d rfl; decide +kernel

/-! Engines -/

/-- Function 0 with instance 0 of every engine kind, input 2k and output 2k + 1, all with the configuration record `c`. -/
def imgE : FnImage := { img0 with
  sects := [⟨6, 0x10000, 0x200⟩]
  eps := (List.range 9).flatMap (fun k => [⟨2 * k, k, false, 0, 0, 0⟩, ⟨2 * k + 1, k, true, 0, 0, 0⟩]) }
def cfgd (i : FnImage) (st : Nat) (c : Bytes) : Dev := (((fn0 (run i) st).write 0x10004 [1]).write 0x10040 (le 8 0x80 ++ le 4 0x60)).write 0x10080 c
/-- An engine that has part of a sample in hand. -/
def busy (b : Bytes) (arrived : Bool) (st : EngSt) : Eng := { Eng.idle with tok := 1, active := true, buf := b, arrived := arrived, st := st }
def dEng (k : Nat) (c : Bytes) (e : Eng) : Dev := (cfgd imgE 3 c).setEng k 0 e
theorem witness_engines : ∀ k ∈ [2, 3, 4, 5, 6, 7, 8], ∀ d, d = dEng k [1, 0, 5] (busy [1] false .none) → d.epOf k 0 false 0 = some (0, ⟨2 * k, k, false, 0, 0, 0⟩) ∧
    (d.epOf k 0 true 0).map (fun x => x.2.ep) = some (2 * k + 1) ∧ d.halted 0 = false ∧ d.fatal = false ∧ (d.feed 0 k 0 (2 * k)).eng k 0 = busy [1] false .none ∧
    fld (d.config 0 k 0) 0 1 = 1 ∧ fld (d.config 0 k 0) 2 1 = 5 ∧ withinCap (d.capOf 0 k 0 (busy [1] false .none)) 1 = true := by
  intro k hk d h; subst h; revert k; decide +kernel
theorem witness_at_work : ∃ d', (dEng 2 [] (busy [1] false .none)).AtWork 2 0 0 5 (busy [1] false .none) d' :=
  ⟨(dEng 2 [] (busy [1] false .none)).feed 0 2 0 4, ⟨4, 2, false, 0, 0, 0⟩, by decide +kernel, by decide +kernel, by decide +kernel, rfl, by decide +kernel, rfl, rfl, .inl rfl⟩
/-- A stream header of 16 output bytes in one frame. -/
def stream : Bytes := [0x47, 0x52, 0x46, 0x31] ++ le 2 1 ++ le 2 1 ++ le 8 16
theorem witness_residue : streamHeaderOk stream = true ∧ 16 ≤ stream.length ∧ streamHeaderOk (List.replicate 16 0) = false ∧ frameHeaderOk (List.replicate 32 0) = false ∧
    (ghFlags grfHdr).testBit 0 = false ∧ (ghFlags grfHdr).testBit 1 = false ∧ 12 ≤ grfBlock.length ∧ 12 + fld grfBlock 4 4 ≤ grfBlock.length ∧
    blockHeaderOk [] grfHdr 4 = false ∧ fld (le 4 5) 0 4 ≠ (0xFFFFFFFF ^^^ 0xFFFFFFFF) ∧ fld (le 4 0) 0 4 = (0xFFFFFFFF ^^^ 0xFFFFFFFF) := by decide +kernel
/-- Compression of DEPTH 8, one component, 4 by 4 blocks. -/
def cfgC : Bytes := [2, 1] ++ List.replicate 14 0 ++ le 8 1000 ++ [8, 1] ++ le 2 4 ++ le 2 4 ++ [0, 0] ++ le 4 0
theorem witness_compression : compressCheck cfgC none [] = 0 ∧ compressCheck cfgC none (List.replicate 16 7) = 0 ∧ compressCheck cfgC none [1] ≠ 0 ∧ fld cfgC 0x1E 1 = 0 := by
  decide +kernel
/-- A video sample header of an AVC sample, and a record that allows every codec. -/
def vHdr : Bytes := [0x47, 0x56, 0x53, 0x31, 1, 0] ++ List.replicate 26 0
theorem witness_video : 32 ≤ vHdr.length ∧ vdeHeaderOk 7 vHdr = true ∧ (fld vHdr 5 1).testBit 0 = false ∧ (fld vHdr 5 1).testBit 1 = false ∧
    vdeHeaderOk 7 (List.replicate 32 0) = false ∧ vdeHeaderOk 6 vHdr = false := by decide +kernel
/-- A baseline picture of 8 by 8 samples, one component, all 128. -/
def jpg0 : Bytes := [0xFF, 0xD8, 0xFF, 0xDB, 0, 67, 0] ++ List.replicate 64 1 ++ [0xFF, 0xC0, 0, 11, 8, 0, 8, 0, 8, 1, 1, 0x11, 0] ++
  [0xFF, 0xC4, 0, 20, 0, 1] ++ List.replicate 15 0 ++ [0] ++ [0xFF, 0xC4, 0, 20, 0x10, 1] ++ List.replicate 15 0 ++ [0] ++
  [0xFF, 0xDA, 0, 8, 1, 1, 0, 0, 63, 0, 0x3F, 0xFF, 0xD9]
def jpgPic : Option (PicHdr × List (List Nat)) :=
  match jpgAfter 1 jpg0 0 with
  | .scan g p r =>
    match (jpgScan g p).bind (fun sc => jpgDecode g sc r) with
    | some (g1, r1) =>
      match jpgHead 1 (r1.length + 1) r1 g1 with
      | .ended g2 => some (g2.hdr, g2.comps.map jpgPlane)
      | _ => none
    | none => none
  | _ => none
/-- The record's header for 8 by 8 samples of depth 8, one plane (R225, R235). -/
def pic0 : PicHdr := ⟨8, 1, 0, 0, 8, 8, 0, 1, 0, 0, 0, 0⟩
theorem test_jpeg : jpgPic = some (pic0, [List.replicate 64 128]) := by decide +kernel
theorem witness_jpeg : jpgAfter 0 [0, 0] 0 = .bad ∧ pic0.len = 320 ∧ picHdr (pic0.record [List.replicate 64 128]) = some pic0 := by decide +kernel
/-- A region table of stream 0 without regions. -/
def roi0 : Bytes := [0x47, 0x4C, 0x52, 0x54] ++ le 2 1 ++ List.replicate 58 0
theorem witness_image : picHdr (List.replicate 64 0) = none ∧ lowest [gran] = some (0, 1, 0) ∧ roiTableOk [] = false ∧ roiTableOk roi0 = true := by decide +kernel
/-- A grammar of one transition: tokens 5 and 6 with an empty stack. -/
def tr0 : Bytes := le 4 5 ++ le 4 2 ++ le 3 1 ++ [0] ++ le 2 0xFFFE ++ le 2 0
def m0 : MaskSt := ⟨true, true, 0, 0, none, 0, [], false, false, 0, 0⟩
theorem witness_mask : allowedRuns 4 [tr0] [] = [(5, 2)] ∧ takes [tr0] [] 6 = some tr0 ∧ inRuns [(5, 2)] 7 = false ∧
    maskStep [tr0] 0xFFFFFFFF 4 false m0 6 = (0, [(5, 2)], { m0 with state := 1 }, false, false, false) ∧
    chunkHeaderOk ([0x47, 0x4C, 0x54, 0x43] ++ le 2 3 ++ List.replicate 26 0) = true ∧ chunkHeaderOk (List.replicate 32 0) = false := by decide +kernel
theorem witness_tokens : (BpeSt.mk 0 none [] 0 true).begun = true ∧ bestMerge merges 0 [108, 111, 119] = some (0, 256, 0) ∧
    bestMerge merges 3 [0x65, 0x72] = some (2, 258, 3) ∧ rankOf merges 0 0x65 0x72 = some (2, 258) := by decide +kernel

/-! The thread array -/

/-- Function 0 with queue 0: two threads an item, input slots of 16 and output slots of 256 bytes from 0x11000 on, 4 slots, and a kernel of 8 words at
0x10300. Core 0 is bound to the queue. -/
def imgT : FnImage := { img0 with
  sects := [⟨6, 0x10000, 0x200⟩, ⟨7, 0x10200, 0x200⟩]
  eps := [⟨1, 9, false, 0, 0, 0⟩, ⟨2, 9, true, 0, 0, 0⟩] }
def cfgT : Bytes := [0, 2, 0, 0] ++ le 4 0 ++ le 8 0 ++ le 8 0x11000 ++ le 8 16 ++ le 8 256 ++ le 8 4 ++ le 8 0
def dThr : Dev := (((cfgd imgT 3 cfgT).write 0x10210 (le 8 0x100)).write 0x10240 (le 4 0 ++ le 4 8)).set (R.THR_CORE_STATE 0) 1
/-- A thread at the kernel's first word, with the address 0x1F000 of this device in s1. -/
def th0 : Thread := ⟨[(1, BitVec.ofNat 64 (0xFFF * 2 ^ 52 + 0x1F000))], [], [], 0, 0, 0, 0, 0, 0, [], false, none, 0⟩
def att0 : Attempt := ⟨0, 0, 0, 0, 0, 0, 0, 0, 0, 0, [th0, th0]⟩
/-- Threads 0 and 1 stand at instruction `i`. -/
def atInstr (i : Instr) : State := on { dThr.write 0x10300 (le 4 ((gtcEncode i).getD 0)) with thr := { dThr.thr with atts := [(0, att0)] } }
theorem witness_ready_r : ∀ i ∈ gtcR 0, (atInstr i).Ready 0 i g0 0 0 att0 th0 := by
  unfold State.Ready State.Stands State.Works Thread.Guarded; decide +kernel
theorem witness_ready_i : ∀ i ∈ gtcI 0, (atInstr i).Ready 0 i g0 0 0 att0 th0 := by
  unfold State.Ready State.Stands State.Works Thread.Guarded; decide +kernel
theorem witness_ready_s : ∀ i ∈ gtcS 0, (atInstr i).Ready 0 i g0 0 0 att0 th0 := by
  unfold State.Ready State.Stands State.Works Thread.Guarded; decide +kernel
theorem witness_ready_v : ∀ i ∈ gtcV 0, (atInstr i).Ready 0 i g0 0 0 att0 th0 := by
  unfold State.Ready State.Stands State.Works Thread.Guarded; decide +kernel
theorem witness_ready_b : ∀ i ∈ gtcB 0, (atInstr i).Ready 0 i g0 0 0 att0 th0 := by
  unfold State.Ready State.Stands State.Works Thread.Guarded; decide +kernel
theorem witness_decode_encode : ∀ i ∈ gtcAt 0, ∀ w, w = (gtcEncode i).getD 0 → gtcEncode i = some w ∧ gtcOperandsOk i = true ∧ guardOk (gtcGuard w) = true := by
  rintro i hi w rfl; revert i; decide +kernel
/-- A guard of predicate 1, which is 0: the instruction is passed over. -/
theorem witness_passed_over : ∀ i, i = Instr.nop 0 ⟨1, false⟩ → gtcDecode 0 ((gtcEncode i).getD 0) = some i ∧ (atInstr i).Stands 0 i 0 0 att0 th0 ∧
    ¬th0.Guarded (gtcGuard ((gtcEncode i).getD 0)) ∧ (atInstr i).dev.inCode 0 0 4 = true ∧ (atInstr i).dev.inCode 0 0 28 = true ∧
    (atInstr i).dev.inCode 0 0 32 = false := by
  rintro i rfl; unfold State.Stands State.Works Thread.Guarded; decide +kernel
/-- Threads of an attempt that HALT and BAR reach: thread 1 of two. -/
theorem witness_second_thread : (atInstr (.halt 1 g0)).Stands 1 (.halt 1 g0) 0 0 att0 th0 ∧ (atInstr (.done 1 g0 r0)).Stands 1 (.done 1 g0 r0) 0 0 att0 th0 ∧
    th0.Guarded g0 ∧ (th0.sr 0).toNat % 2 ^ 16 = 0 := by
  unfold State.Stands State.Works Thread.Guarded; decide +kernel
/-- The address in s1, aligned for every access and open to reads, writes and atomics; 1 past it nothing is aligned. -/
theorem witness_access : ∀ l, l = 0xFFF * 2 ^ 52 + 0x1F000 → ∀ d, d = (atInstr (.nop 0 g0)).dev → (th0.sr 1).toNat = l ∧ l % 512 = 0 ∧ (l + 1) % 2 ≠ 0 ∧
    d.isLocal l = true ∧ l % 2 ^ 52 < mediaBase ∧ (∀ n ∈ [1, 2, 4, 8, 64, 128, 512], ∀ k < 3, (Cx.mk d 0 att0 0 th0).access (l % 2 ^ 52) n k = St.ok) ∧
    (d.write (l % 2 ^ 52) (List.replicate 128 5)).inCode 0 0 4 = true ∧ d.det = false := by
  rintro l rfl d rfl; decide +kernel
theorem witness_draw : fld (dThr.thrCfg 0 0) 0x30 8 ≤ 0xFFFFFFFF ∧ 0xFFFFFFFF ≤ fld (dThr.thrCfg 0 0) 0x30 8 + 0xFFFFFFFF ∧
    fld (dThr.thrCfg 0 0) 0x30 8 + 0xFFFFFFFF < 0x100000000 := by decide +kernel
theorem witness_formats : (fmtOf 1).isSome = true ∧ (fmtOf 2).isSome = true ∧ (decode fp32 0x7FC00000).isNan = true ∧ (decode fp32 0x3F800000).isNan = false := by decide +kernel
theorem witness_tensor : ∀ b : Bytes, b = List.replicate 64 0 → ∀ d, d = (atInstr (.nop 0 g0)).dev →
    (Cx.mk d 0 att0 0 th0).load (0xFFF * 2 ^ 52 + 0x1F000) 64 = .data b ∧ (0xFFF * 2 ^ 52 + 0x1F000) % 64 = 0 := by
  rintro b rfl d rfl; decide +kernel
/-- Thread 0 waits for the word in s1, which is 0, to differ from s0, which is 0. -/
def waiting : State :=
  let i := Instr.wait 0 g0 ⟨2, 1, 0, 1⟩
  let s := atInstr i
  on { s.dev with timers := [(.wait 0, 0)], thr := { s.dev.thr with atts := [(0, { att0 with threads := [{ th0 with st := 3 }, th0] })] } }
theorem witness_wait : waiting.dev.waiter 0 = some (0, 0, { att0 with threads := [{ th0 with st := 3 }, th0] }, { th0 with st := 3 }, ⟨2, 1, 0, 1⟩) ∧
    waiting.dev.expired (.wait 0) = true ∧ waiting.dev.readLe 0x1F000 8 = 0 ∧ (th0.sr 0).toNat = 0 := by decide +kernel
/-- A sample of seven bytes at the queue's input; an item that waits for core 0. -/
def item0 : ThrItem := ⟨some 0, 0, 1, 0, 7, 0, [0], false, false, none, 0⟩
theorem witness_items : ∀ d, d = dThr.setInQ 1 [gran] → d.epOf 9 0 false 0 = some (0, ⟨1, 9, false, 0, 0, 0⟩) ∧ d.halted 0 = false ∧ d.mayBegin 0 9 0 0 = true ∧
    d.slotCount 0 0 = 4 ∧ d.inSlot 0 0 = 16 ∧ (d.thrQ 0).items = [] ∧ d.fatal = false ∧ d.owner 9 0 = some 0 := by
  rintro d rfl; decide +kernel
theorem witness_attempts : ∀ d, d = dThr.setThrQ 0 ⟨1, [item0]⟩ → d.groupFree 0 0 0 = true ∧ d.groupFree 0 0 1 = false ∧
    (d.unbegun 0).find? (fun e => e.core = 0) = some item0 ∧ d.det = false ∧ d.thrThreads 0 0 = 2 ∧
    findNat (fun g => !d.thr.atts.any (fun e => e.1 = 16 * 0 + 2 * g)) (16 / 2) 0 = some 0 ∧
    ((d.set (R.THR_CORE_STATE 1) 1).unbegun 0).find? (fun e => e.core ≠ 1 && ((d.set (R.THR_CORE_STATE 1) 1).liveCores 0).contains e.core) = some item0 := by
  rintro d rfl; decide +kernel
theorem witness_cores : 0 < dThr.get R.GLB_UNITS_THR_CORES ∧ dThr.get (R.THR_CORE_STATE 0) = 1 ∧ (dThr.liveCores 0).length = 1 ∧
    ((dThr.set (R.THR_CORE_STATE 1) 1).liveCores 0).length = 2 ∧ (dThr.set (R.THR_CORE_STATE 1) 2).get (R.THR_CORE_STATE 1) = 2 ∧ dThr.coreBusy 0 = false ∧
    (atInstr (.nop 0 g0)).dev.coreBusy 0 = true := by decide +kernel

/-! The fabric -/

/-- Node 5 with port 0 of width 8 in a state of R358; port 0's octet may run Ethernet. -/
def dPort (st : Nat) : Dev := ((d0.set R.FAB_NODE_ID_NODE 5).setLink 0 { d0.link 0 with width := 8 }).set (R.FAB_PORT_STATE_STATE 0) st
def dEth (st : Nat) : Dev := (dPort st).set (R.FAB_OCTET_MODE 0) 1
/-- The packet header from node 3 to a node with a hop count, TYPE 1, and 32 bytes of payload; the frame that carries it on lane 0 with SEQ 0. -/
def pktTo (dst hops : Nat) : Bytes := le 2 dst ++ le 2 3 ++ le 1 0 ++ le 1 hops ++ le 1 1 ++ [0] ++ le 2 32 ++ List.replicate 22 0 ++ List.replicate 32 0
def frame0 : Bytes :=
  let b := [1, 0] ++ le 2 2 ++ le 4 0 ++ le 4 0 ++ le 4 0 ++ pktTo 5 1 ++ List.replicate 40 0
  b ++ le 4 (crc32c b) ++ le 4 0
theorem witness_frames : (dPort 3).gfUp 0 = true ∧ (dPort 2).gfUp 0 = false ∧ dataWf [] = false ∧ dataWf frame0 = true ∧ fld frame0 4 4 = ((dPort 3).link 0).rxSeq ∧
    frame0.length = 128 ∧ fld frame0 120 4 = crc32c (frame0.take 120) ∧ (0 : Nat) ≠ 0 ^^^ 0xFFFFFFFF := by decide +kernel
theorem witness_routing : ∀ d, d = dPort 3 → (∀ n ∈ [5, 4095, 6], fld (pktTo n 0) 0 2 = n) ∧ fld (pktTo 6 1) 5 1 = 1 ∧ unitsOf (32 + 32) = 2 ∧ d.node = 5 ∧ d.fenced 3 0 = false ∧
    ((d.set (R.FAB_FENCE_VALID 3) 1).fenced 3 0) = true ∧ d.fab.vlOf 0 = 0 ∧ d.routePort 6 3 0 0 = none := by
  rintro d rfl; decide +kernel
/-- A CONTROL frame with a given FLAGS byte from node 3, port 1. -/
def ctl (flags : Nat) : Bytes :=
  let b : Bytes := [2, 0] ++ le 2 1 ++ List.replicate 8 0 ++ le 1 flags ++ [0, 0, 0] ++ List.replicate 32 0 ++ le 2 3 ++ [1] ++ List.replicate 5 0
  b ++ le 4 (crc32c b) ++ le 4 0
theorem witness_control : ∀ f ∈ [0, 1, 2], (ctl f).length = 64 ∧ fld (ctl f) 0x38 4 = crc32c ((ctl f).take 56) ∧ fld (ctl f) 0 1 = 2 ∧ fld (ctl f) 1 1 = 0 ∧ fld (ctl f) 2 2 = 1 ∧
    fld (ctl f) 0xC 1 = f ∧ (2 : Nat).testBit 1 = true ∧ (1 : Nat).testBit 0 = true ∧ (1 : Nat).testBit 1 = false := by decide +kernel
theorem witness_link_states : ∀ st ∈ [0, 1, 2, 3, 4, 5], (dPort st).pstate 0 = st ∧ (dPort st).isGf 0 = true ∧ (dPort st).isPort 0 = true ∧ (dEth st).isEth 0 = true ∧
    (dEth st).isGf 0 = false ∧ (dEth st).isPort 0 = true ∧ (dEth st).pstate 0 = st := by decide +kernel
theorem witness_link_timers : ∀ t ∈ [Timer.replay 0, .linkRx 0, .retrain 0, .down 0, .exchange 0], (dPort 3).expired t = false ∧
    ({ dPort 3 with timers := [(t, 0)] } : Dev).expired t = true := by decide +kernel
theorem witness_transmit : ∀ d, d = dPort 3 → (d.link 0).freeAt ≤ d.clk ∧ (d.countWaits 0).pickFrom 0 8 0 = none := by
  rintro d rfl; decide +kernel
/-- A packet of 64 bytes waits in queue 0, with credit for it. -/
def dSend : Dev := (dPort 3).setLink 0 { (dPort 3).link 0 with
  queues := [(0, [⟨0, 0, pktTo 6 1, none, 0, false, 0, 0⟩])]
  credit := [4, 4, 4, 4, 4, 4, 4, 4]
  replay := [(0, 0, [])] }
theorem witness_send : ((dSend.countWaits 0).pickFrom 0 8 0).map (fun x => x.1) = some 0 ∧ (dSend.link 0).replay ≠ [] := by decide +kernel
theorem witness_ethernet : ∀ f ∈ [eth, { eth with fcsOk := false }, { eth with pause := true }, { eth with pfc := some (1, 1) }, { eth with inSubset := true },
    { eth with bytes := 63 }, { eth with bytes := 9217 }], f.fcsOk = false ∨ f.pause = true ∨ f.pfc.isSome = true ∨ f.pfc = none := by decide
theorem witness_ethernet_room : eth.fcsOk = true ∧ eth.pause = false ∧ eth.pfc = none ∧ 64 ≤ eth.bytes ∧ eth.bytes ≤ 9216 ∧ (dEth 3).ethBuf 0 0 < 0 + cdiv 9216 64 ∧
    (∀ d : Dev, d = { dEth 3 with fab := { (dEth 3).fab with vls := [⟨1, true, 0⟩] } } → (d.fab.vl 0).lossy = true ∧ 0 + 1 ≤ d.ethBuf 0 0 ∧ d.ethBuf 0 0 < 0 + 9) := by
  refine ⟨by decide, by decide, by decide, by decide, by decide, by decide +kernel, ?_⟩
  rintro d rfl; decide +kernel
theorem witness_port_config : (dPort 3).fatal = false ∧ ((dPort 0).set (R.FAB_PORT_CFG_ENABLE 0) 0).has (R.FAB_PORT_CFG_ENABLE 0) = false ∧
    (dPort 0).portFits 0 1 = true ∧ (dPort 0).portFits 0 3 = false ∧
    ((dPort 3).set (R.FAB_PORT_CFG_ENABLE 0) 1).has (R.FAB_PORT_CFG_ENABLE 0) = true ∧ (0x108 : Word).getLsbD 8 = true ∧ getBits (0x108 : Word) 3 0 = 8 := by decide +kernel
theorem witness_routes : d0.has R.FAB_ROUTE_CTRL_PENDING = false ∧ (d0.set R.FAB_ROUTE_CTRL_PENDING 1).has R.FAB_ROUTE_CTRL_PENDING = true ∧
    ((d0.setWord R.FAB_ROUTE_TICK 9).word R.FAB_ROUTE_TICK).toNat = 9 ∧ (d0.word R.SEQ_TICK).toNat < 9 ∧ 9 ≤ ((d0.setWord R.SEQ_TICK 9).word R.SEQ_TICK).toNat := by
  decide +kernel
/-- A shadow list of one entry that opens every queue for 1 ms. -/
def dGate : Dev := (dPort 3).setW (R.TSH_GATE_SHADOW 0 0) (1000000 * 2 ^ 32 + (2 ^ 32 - 1))
theorem witness_gates : dGate.gateValid 0 (dGate.shadowList 0 1) = true ∧ dGate.gateValid 0 (dGate.shadowList 0 2) = false ∧
    dGate.has (R.TSH_GATE_CTRL_PENDING 0) = false ∧ (dGate.set (R.TSH_GATE_CTRL_PENDING 0) 1).has (R.TSH_GATE_CTRL_PENDING 0) = true ∧
    (dGate.setWord (R.TSH_GATE_ADMIN 0) 5).ftNs < (dGate.setWord (R.TSH_GATE_ADMIN 0) 5).gateForce 0 ∧ dGate.ftNs = 0 := by decide +kernel
theorem witness_gate_force : ∀ d, d = (dGate.gateSet 0 [(1, 10)] 0).set (R.TSH_GATE_CTRL_ACTIVE 0) 1 → d.has (R.TSH_GATE_CTRL_ACTIVE 0) = true ∧
    (d.gateList 0).foldl (fun n e => n + e.2) 0 ≠ 0 := by
  rintro d rfl; decide +kernel

/-! Remote memory access -/

/-- The setup record of a GF queue pair to node 3 with domain 1 of owner 16. -/
def dSetup : Dev := ((((dPort 3).setW (R.XPT_QP_SETUP 0) (3 * 2 ^ 32 + 2 ^ 16)).set (R.XPT_PD_VALID 1) 1).set (R.XPT_PD_OWNER 1) 16)
theorem witness_create : dSetup.createCheck 7 = 0 ∧ dSetup.qpRecordOk dSetup.qpRecord = true ∧ dSetup.qpOwner 7 = 16 ∧ dSetup.tcOk 16 0 = true ∧
    d0.createCheck 7 = 0x0133 ∧ (dSetup.set R.LGR_STATUS_FATAL 1).createCheck 7 = 0x0F04 ∧
    (dSetup.set R.LGR_STATUS_SELF_FENCED 1).createCheck 7 = 0x0502 := by decide +kernel
/-- Queue pair 7, READY and on die. -/
def qp0 : Qp := dSetup.qpFresh (qpSetupOf dSetup.qpRecord)
def dQp (x : Qp) : Dev := (dSetup.setQp 7 x).modXpt (fun t => { t with cached := [7] })
theorem witness_queue_pairs : (dQp qp0).qp 7 = some qp0 ∧ (dQp qp0).createCheck 7 = 0x0532 ∧ (dQp qp0).onDie 7 = true ∧ ((dQp qp0).bringIn 7).isSome = true ∧
    dSetup.has R.XPT_QP_CMD_BUSY = false ∧ (dSetup.set R.XPT_QP_CMD_BUSY 1).has R.XPT_QP_CMD_BUSY = true ∧ dSetup.qp 7 = none ∧ qp0.reqs = [] ∧ dSetup.fatal = false := by
  decide +kernel
/-- A window to be opened: domain 1, 4,096 bytes from 0x3000. -/
def dWin : Dev := (dSetup.setWord R.XPT_WIN_SIZE 4096).set R.XPT_WIN_BASE_BASE 3
theorem witness_windows : dWin.windowRangeOk 9 1 0x3000 4096 = true ∧ dWin.windowRangeOk 9 1 0x3001 4096 = false ∧ dWin.winSt 9 = 0 ∧ dWin.has R.XPT_WIN_STATUS_BUSY = false ∧
    dWin.has (R.XPT_PD_VALID 1) = true ∧ dWin.has (R.XPT_PD_VALID 2) = false ∧ (∀ st ∈ [1, 2], (dWin.set (R.XPT_WIN_STATE_STATE 9) st).winSt 9 = st) ∧
    dWin.get (R.XPT_WIN_STATE_ADMITTED 9) = 0 ∧ (dWin.modXpt (fun t => { t with revoking := some 9 })).xpt.revoking = some 9 := by decide +kernel
theorem witness_domains : (∃ e ∈ (dQp qp0).xpt.qps, e.2.setup.pd = 1) ∧ (∀ e ∈ dSetup.xpt.qps, e.2.setup.pd ≠ 1) ∧ dSetup.creditClass 0 = false ∧ (1 : Word).getLsbD 0 = true ∧
    dSetup.qpOwner (getBits (7 : Word) 19 0) = 16 := by decide +kernel
/-- A request of function-less software: 8 bytes from 0x100. -/
def part0 : Part := ⟨true, 0, 0x2000, BitVec.ofNat 64 (0xFFF * 2 ^ 52 + 0x100), 8⟩
theorem witness_requests : ∀ d, d = (dQp qp0).setW (R.XPT_PEER 16 3) (2 ^ 63 + 7) → d.bufCheck 16 (0xFFF * 2 ^ 52 + 0x100) 8 false = 0 ∧ d.node = 5 ∧
    2 ^ 63 ≤ d.get ⟨R.XPT_PEER 16 3, 63, 0⟩ ∧ d.get ⟨R.XPT_PEER 16 3, 63, 0⟩ % 2 ^ 20 = 7 ∧ d.qp 7 = some qp0 ∧ qp0.st ≠ 2 ∧ d.has R.LGR_STATUS_SELF_FENCED = false ∧
    [part0].length ≤ 16 ∧ d.get ⟨R.XPT_PEER 16 4, 63, 0⟩ < 2 ^ 63 ∧ d0.node = 0xFFF ∧ d.bufCheck 16 (6 * 2 ^ 52) 8 false ≠ 0 := by
  rintro d rfl; decide +kernel
/-- A WRITE of 4 bytes at PSN 0 to queue pair 7, addressed by address 0x3000. -/
def wr (psn : Nat) : Bytes := [1, 1] ++ le 2 0 ++ le 4 7 ++ le 4 psn ++ le 4 0 ++ le 8 0x3000 ++ le 4 4 ++ le 4 0 ++ [1, 2, 3, 4]
theorem witness_packets : xptWf (wr 0) = true ∧ (xptHdr (wr 0)).op = 1 ∧ (xptHdr (wr 0)).qp = 7 ∧ (xptHdr (wr 0)).flags.testBit 1 = false ∧ xptWf [] = false ∧
    (xptHdr (wr 0)).psn = qp0.psnRx ∧ psnBefore qp0 0 1 = true ∧ psnBefore qp0 5 4 = false ∧ qp0.st = 1 ∧ qp0.setup.mode = 0 ∧ qp0.setup.peerNode = 3 ∧
    0 < (dQp qp0).missFree ∧ qp0.rnrAt = none := by decide +kernel
theorem witness_served : ∀ d, d = ((dQp qp0).modXpt (fun t => { t with windows := [(9, ⟨0x3000, 4096, 1, 7⟩)] })).set (R.XPT_WIN_STATE_STATE 9) 1 →
    d.xptCheck qp0 1 true 0 0x3000 4 false = (0, 9, 0x3000) ∧ (d.xptCheck qp0 1 true 0 0x5000 4 false).1 ≠ 0 ∧ d.classOf 0x3000 = .hbm ∧ 0x3000 + 3 < hbmSize := by
  rintro d rfl; decide +kernel
theorem witness_transport_timers : ∀ t ∈ [Timer.retransmit 7, .rnr 7, .roceAck 7], (dQp qp0).expired t = false ∧ ({ dQp qp0 with timers := [(t, 0)] } : Dev).expired t = true := by
  decide +kernel
theorem witness_roce : ∀ d : Dev, d = { dEth 3 with fab := { (dEth 3).fab with ethRx := [(0, eth)] } } → d.fab.ethRx = [(0, eth)] ∧ eth.cnp = false ∧ d.roceQp 0 eth = none ∧
    { eth with cnp := true }.cnp = true ∧ eth.pkt.ecnCe = false ∧ eth.pkt.op = .ack := by
  rintro d rfl; decide +kernel

/-! Fabric time and barriers -/

/-- Time on: the node's upstream port is 0, with a VALID delay, and a message waits. -/
def dTim (msg : Bytes) : Dev :=
  let d := ((dPort 3).set R.TIM_CTRL_ENABLE 1).set (R.TIM_PORT_DELAY_VALID 0) 1
  { d with fab := { d.fab with timRx := [⟨0, 70 * 65536, 3, 0, 0, 0, msg⟩] } }
def msgOf (d : Dev) (kind : Nat) : Option Bytes := ((d.takeTim kind).1).map (fun m => m.payload)
theorem witness_time_messages : ∀ k ∈ [1, 2, 3, 0x10, 0x11], msgOf (dTim (ctlPayload k 0 0 0 0 0 0)) k = some (ctlPayload k 0 0 0 0 0 0) ∧
    msgOf (dTim (ctlPayload 0x20 0 0 0 0 0 0)) k = none ∧ ((dTim (ctlPayload k 0 0 0 0 0 0)).takeTim k).2.has R.TIM_CTRL_ENABLE = true ∧
    ((dTim (ctlPayload k 0 0 0 0 0 0)).takeTim k).2.delayValid 0 = true := by decide +kernel
theorem witness_time_states : (dTim []).upstream 0 = true ∧ (dTim []).upstream 1 = false ∧ (dTim []).delayValid 1 = false ∧ d0.has R.TIM_CTRL_ENABLE = false ∧
    (∀ st ∈ [0, 1, 2, 3], ((dTim []).set R.TIM_STATUS_STATE st).get R.TIM_STATUS_STATE = st) ∧
    (∀ p : PTime, p = ⟨some (0, 0), some 5, 15, 7, 0, false⟩ → (((dTim []).setPtime 0 p).ptime 0) = p ∧ ((dTim []).setPtime 0 p).offsetOf 0 = some 0) := by
  refine ⟨by decide +kernel, by decide +kernel, by decide +kernel, by decide +kernel, by decide +kernel, ?_⟩
  rintro p rfl; decide +kernel
theorem witness_time_timers : ∀ t ∈ [Timer.syncLoss, .accurate], d0.expired t = false ∧ ({ d0 with timers := [(t, 0)] } : Dev).expired t = true := by decide +kernel
theorem witness_fabric_time : d0.has R.TIM_CTRL_ROOT = false ∧ (d0.set R.TIM_CTRL_ROOT 1).has R.TIM_CTRL_ROOT = true ∧ dTicks.has R.SEQ_TICK_CTRL_RUNNING = true ∧
    d0.tim.ppsAt = none ∧ ((d0.set R.TIM_PPS_ENABLE 1).has R.TIM_PPS_ENABLE) = true ∧ getBits (3 : Word) 1 1 = 1 ∧ getBits (3 : Word) 0 0 ≠ 0 ∧
    getBits (BitVec.ofNat 64 (2 ^ 48)) 63 48 ≠ d0.get R.TIM_CTRL_DOMAIN := by decide +kernel
/-- Barrier 0 with a local member, and its release in progress. -/
def dBar : Dev := (dTim []).set (R.TIM_BAR_CFG_LOCAL 0) 1
theorem witness_arrivals : dBar.has (R.TIM_BAR_CFG_LOCAL 0) = true ∧ d0.has (R.TIM_BAR_CFG_LOCAL 0) = false ∧ (dBar.bar 0).loc = false ∧ 0 ∉ (dBar.bar 0).ports ∧
    dBar.get (R.TIM_BAR_STATUS_GEN 0) = 0 ∧ (dBar.bar 0).ports.length + 1 = dBar.get (R.TIM_BAR_CFG_EXPECT 0) + dBar.get (R.TIM_BAR_CFG_LOCAL 0) ∧
    dBar.gfUp (dBar.get (R.TIM_BAR_CFG_PARENT 0)) = true ∧ dBar.has (R.TIM_BAR_CFG_ROOT 0) = false := by decide +kernel
theorem witness_releases : (dBar.bar 0).countdown = none ∧ ((dBar.setBar 0 ⟨[], true, some 0, 9⟩).bar 0).countdown = some 0 ∧ (0 : Int) ≤ 0 ∧
    ((d0.set R.SEQ_TICK_CTRL_ARM 1).set R.SEQ_TICK_CTRL_SRC 1).has R.SEQ_TICK_CTRL_SRC = true ∧ (d0.set R.SEQ_TICK_CTRL_SRC 1).get R.SEQ_TICK_CTRL_BARRIER = 0 := by
  decide +kernel

/-! Collectives -/

/-- Group 1 of function 0: inputs LOCAL of rank 0 and REMOTE of rank 1, parent node 3; and a packet for it. -/
def grp0 : ColGroup := ⟨0, 0, 1, 0, false, 4, 0, 0, 1, 3, 2, 8, 0x12000, 256, 0, [⟨1, 0, 0, 0, 0, 0x13000⟩, ⟨3, 4, 1, 1, 1, 0⟩], 0, []⟩
def colPkt (kind flags status seq lo hi : Nat) : RxPkt :=
  ⟨0, 0, 3, 0, 0, 0, le 1 kind ++ le 1 flags ++ le 2 1 ++ le 2 1 ++ le 2 status ++ le 8 seq ++ le 4 lo ++ le 4 hi ++ le 4 0 ++ le 2 0 ++ le 2 0⟩
def dCol (m : RxPkt) : Dev :=
  let d := (fn0 (run img0) 3).modCol (fun c => { c with groups := [(1, grp0)] })
  { d with fab := { d.fab with colRx := [m] } }
theorem witness_contrib : ∀ m, m = colPkt 1 1 0 3 1 1 → (dCol m).fab.colRx = [m] ∧ fld m.payload 0 1 = 1 ∧ m.payload.length = 32 ∧ fld m.payload 1 1 = 1 ∧
    fld m.payload 2 2 = 1 ∧ (dCol m).grp 1 = some grp0 ∧ inputOf grp0 m = some 1 ∧ fld m.payload 4 2 = grp0.gen ∧ fld m.payload 8 8 < grp0.next + 4 ∧
    contribEntries [] false 0 [] = some [] ∧ grp0.run 3 = none ∧ (dCol m).grp 2 = none := by
  rintro m rfl; decide +kernel
theorem witness_contrib_late : grp0.next + 4 ≤ fld (colPkt 1 1 0 4 1 1).payload 8 8 ∧ fld (colPkt 1 1 0 3 1 1).payload 8 8 < { grp0 with next := 4 }.next := by decide
theorem witness_result : ∀ m, m = colPkt 2 1 0 0 0 1 → fromParent grp0 m = true ∧ grp0.next ≤ fld m.payload 8 8 ∧ (cutEntries (fun _ _ => some 4) 0 0 []) = some [] ∧
    ((((dCol m).colBegin 1 grp0 0).grp 1).bind (fun y => y.run 0)).isSome = true := by
  rintro m rfl; decide +kernel
theorem witness_fail : ∀ m, m = colPkt 3 0 0x0801 0 1 1 → fld m.payload 6 2 = 0x0801 ∧ fromParent grp0 m = false ∧ inputOf grp0 m = some 1 := by rintro m rfl; decide +kernel
/-- An execution whose two inputs have ended, the second with a failure. -/
def run0 : ColRun := ⟨0, [⟨[], some 0, 0, 0⟩, ⟨[], none, 0x0801, 0⟩], [0, 1], false, ⟨[], none, 0, 0⟩, false⟩
theorem witness_instances : run0.up = false ∧ run0.ins.all (·.ended) = true ∧ grp0.parentNode ≠ 0xFFF ∧
    inputsFail [] grp0 run0 ≠ 0 ∧ { grp0 with runs := [run0] }.run 0 = some run0 ∧ bytesOf [] ≤ grp0.workBytes := by decide +kernel
theorem witness_local_input : ∀ d, d = dCol (colPkt 1 1 0 3 1 1) → awaited grp0 0 = 0 ∧ d.readLe 0x13000 8 = 0 ∧ awaited grp0 0 < (d.write 0x13000 [1]).readLe 0x13000 8 ∧
    awaited { grp0 with next := 1 } 0 = 1 := by
  rintro d rfl; decide +kernel
theorem witness_group_commands : d0.has R.COL_GRP_CMD_PENDING = false ∧ (d0.set R.COL_GRP_CMD_PENDING 1).has R.COL_GRP_CMD_PENDING = true ∧
    ((d0.setWord R.COL_GRP_TICK 9).word R.COL_GRP_TICK).toNat = 9 ∧ d0.grpCheck 1 0 = 0x0514 ∧ (fn0 (run img0) 3).grpCheck 1 0x11000 = 0x0136 ∧ d0.grp 1 = none := by
  decide +kernel
theorem witness_group_timeout : ∀ d : Dev, d = { dCol (colPkt 1 1 0 3 1 1) with timers := [(colTimer 1 0, 0)] } → d.expired (colTimer 1 0) = true ∧ d.expired (colTimer 1 1) = false := by
  rintro d rfl; decide +kernel

/-! Faults and recovery -/

theorem witness_errors : (fn0 (run img0) 3).loaded 0 = true ∧ d0.fatal = false ∧ 0 < d0.get R.GLB_UNITS_THR_CORES ∧ ¬ d0.get R.GLB_UNITS_THR_CORES ≤ 1023 - 1023 ∧
    (0x9FFFFFFFFF : Nat) < 0xA000000000 := by decide +kernel
/-- What a fatal cause latches. -/
def latch0 : Latch := ⟨d0.regs, 0, [], d0.irq, d0.tim, d0.fab, []⟩
theorem witness_dump : d0.lgr.latch = none ∧ ({ d0 with lgr := { d0.lgr with latch := some latch0 } } : Dev).lgr.latch = some latch0 ∧ d0.get R.MGT_FW_STATUS_STATE ≠ 3 := by
  decide +kernel
theorem witness_node_id : getBits (7 : Word) 11 0 ≠ (dPort 3).node ∧ d0.node = 0xFFF ∧ (fn0 (run img0) 3).loadedFns ≠ [] ∧ ((fn0 (run img0) 3).set R.FAB_NODE_ID_NODE 5).node = 5 := by
  decide +kernel
theorem witness_fences : d0.has (R.FAB_FENCE_VALID 3) = false ∧ ((d0.set (R.FAB_FENCE_VALID 3) 1).set (R.FAB_FENCE_EPOCH 3) 4).get (R.FAB_FENCE_EPOCH 3) = 4 ∧
    getBits (4 : Word) 31 0 ≤ 4 ∧ 4 < getBits (5 : Word) 31 0 ∧ (BitVec.ofNat 64 (2 ^ 63)).getLsbD 63 = true := by decide +kernel
theorem witness_lease : d0.expired .lease = false ∧ ({ d0 with timers := [(.lease, 0)] } : Dev).expired .lease = true ∧ d0.has R.LGR_STATUS_SELF_FENCED = false ∧
    (d0.set R.LGR_STATUS_SELF_FENCED 1).has R.LGR_STATUS_SELF_FENCED = true := by decide +kernel
/-- A heartbeat of 32 bytes. -/
def beat : Bytes := [0x20, 1] ++ List.replicate 26 0 ++ le 4 7
theorem witness_heartbeats : msgOf (dTim beat) 0x20 = some beat ∧ msgOf (dTim []) 0x20 = none ∧ (dPort 3).gfUp 0 = true ∧ (dPort 3).node ≠ 0xFFF ∧
    ∀ t ∈ [Timer.heartbeat 0, .heartbeatSend 0], (dPort 3).expired t = false ∧ ({ dPort 3 with timers := [(t, 0)] } : Dev).expired t = true := by decide +kernel
/-- RFC 8032 test vector 1: seed, public key and the signature of the empty message. -/
def seed1 : Bytes := le 32 0x607FAE1C03AC3B701969327B69C54944C42CEC92F44A84BA605AFDEF9DB1619D
theorem test_ed25519 : edPublic seed1 = le 32 0x1A5107F7681A02AF2523A6DAF372E10E3A0764C9D3FE4BD5B70AB18201985AD7 ∧
    (edSign seed1 []).take 8 = [0xE5, 0x56, 0x43, 0x00, 0xC3, 0x60, 0xAC, 0x72] := by decide +kernel
/-- A recovery record of RSN 1 with one action, and the device whose OWNER record names the signer. -/
def recOf1 (code node epoch : Nat) : Bytes :=
  [0x47, 0x4C, 0x52, 0x52] ++ le 2 1 ++ le 2 1 ++ le 8 1 ++ List.replicate 16 0 ++ le 1 code ++ [0] ++ le 2 node ++ le 4 epoch ++ le 8 0 ++ le 8 0 ++ le 8 0
def dOwned : Dev := { d0 with sec := { d0.sec with
  inForce := [(4, 0)]
  records := [(8, List.replicate 96 0 ++ edPublic seed1)] } }
theorem witness_recovery_signed : dOwned.recSigned (recOf1 1 3 9 ++ edSign seed1 (recOf1 1 3 9)) = true ∧ dOwned.recSigned (recOf1 1 3 9) = false := by decide +kernel
theorem witness_recovery_checks : d0.recCheck (recOf1 1 3 9) = 0 ∧ dFatal.recCheck (recOf1 1 3 9) = 0x0F04 ∧ d0.recCheck [] = 0x0138 ∧ d0.recCheck (recOf1 7 3 9) = 0x0138 ∧
    fld (recOf1 1 3 9) 8 8 = 1 ∧ (d0.word R.LGR_RSN).toNat < 1 ∧ 1 ∉ d0.lgr.accepted ∧ d0.lgr.queue.length < 16 ∧
    d0.recCheck (patch (recOf1 1 3 9) 6 [0xFF, 0xFF]) = 0x0202 ∧ d0.recCheck (patch (recOf1 1 3 9) 6 [65, 0]) = 0x0201 ∧ d0.recCheck (recOf1 1 3 9 ++ [0]) = 0x0138 := by
  decide +kernel
/-- A record at the head of the queue whose first action is next. -/
def rec0 (a : Sys2Proof.Machine.Action) : RecoveryRec := ⟨1, [a], [], false, []⟩
theorem witness_actions : ∀ k ∈ ([1, 2, 3, 4, 5, 6] : List Nat), ∀ a, a = (⟨k, 0, 3, 1, 0, 0, 0⟩ : Sys2Proof.Machine.Action) → ∀ d : Dev, d = { dPort 3 with lgr := { d0.lgr with queue := [rec0 a] } } →
    d.lgr.queue = [rec0 a] ∧ (rec0 a).waiting = false ∧ (rec0 a).actions[(rec0 a).stats.length]? = some a ∧ a.code = k ∧ d.fatal = false ∧
    d.get R.LGR_LEASE_FENCE_EPOCH < a.epoch ∧ d.get R.FAB_NODE_ID_ADMIT_EPOCH ≤ a.epoch ∧ a.epoch ≠ d.get R.FAB_NODE_ID_ADMIT_EPOCH ∧ a.node ≠ d.node ∧ d.loaded a.fn = false ∧
    (d.fn 0).staged = none ∧ (d.fn 0).memb = none ∧ a.arg2 < 0xFFFF ∧ d.startCheck 0 0 false 0 ≠ 0 := by
  rintro k hk a rfl d rfl; revert k; decide +kernel
theorem witness_recovery_end : (rec0 ⟨1, 0, 3, 1, 0, 0, 0⟩).stats.length ≠ (rec0 ⟨1, 0, 3, 1, 0, 0, 0⟩).actions.length ∧
    { rec0 ⟨1, 0, 3, 1, 0, 0, 0⟩ with stats := [0] }.stats.length = (rec0 ⟨1, 0, 3, 1, 0, 0, 0⟩).actions.length := by decide

/-! Management, the host, firmware and security -/

/-- Source 19 is pending; target 2 takes it. -/
def dIrq : Dev :=
  let d := ((d0.set (R.INT_SRC_CTRL_TARGETS 19) 4).set (R.INT_SRC_CTRL_PRIORITY 19) 3).set (R.INT_TGT_CTRL_ENABLE 2) 1
  { d with irq := { d.irq with pend := [19] } }
theorem witness_interrupts : dIrq.irq.pend = [19] ∧ 0 < dIrq.srcPrio 19 ∧ dIrq.pickTarget 19 [] = some 2 ∧ dIrq.pickTarget 19 [2] = none ∧ dIrq.irq.hostPend = [] ∧ dIrq.irq.rot < 16 ∧
    d0.irq.pend = [] ∧ d0.mgt.hostUp = false ∧ d0.mgt.relayPort = none ∧ dIrq.current 2 < 3 := by decide +kernel
theorem witness_host_interrupts : ∀ d : Dev, d = { dHost with irq := { dHost.irq with hostPend := [19] } } → d.irq.hostPend = [19] ∧ 19 ∉ d.irq.hostService ∧ d.irq.pend = [] ∧
    d.has (R.INT_SRC_CTRL_HOST 19) = false ∧ (d.set (R.INT_SRC_CTRL_HOST 19) 1).has (R.INT_SRC_CTRL_HOST 19) = true := by
  rintro d rfl; decide +kernel
theorem witness_watchdogs : (d0.set R.MGT_FW_STATUS_STATE 3).get R.MGT_FW_STATUS_STATE = 3 ∧ d0.armed (.watchdogAgain 0) = false ∧ 0 ∉ d0.mgt.netUp ∧
    (∀ d : Dev, d = { d0 with timers := [(.watchdogAgain 0, 5)] } → d.armed (.watchdogAgain 0) = true ∧ d.expired (.watchdogAgain 0) = false) := by
  refine ⟨by decide +kernel, by decide +kernel, by decide +kernel, ?_⟩
  rintro d rfl; decide +kernel
/-- Host requests of each KIND with an aligned address and 8 bytes. -/
theorem witness_host_requests : ∀ k ∈ [1, 2, 3, 4, 5, 6], ∀ t, t = txn (BitVec.ofNat 8 k) 0x8000 8 → t.rsv = false ∧ t.kind.toNat = k ∧ t.index.toNat = dHost.get R.MGT_HOST_INDEX ∧
    t.addr.toNat = 0x8000 ∧ t.len.toNat = 8 ∧ (dHost.hrwTarget 0x8000).isSome = true ∧ dHost.hrwTarget 0x2000 = none ∧ dHost.memStatus 0x8000 8 = 0 ∧
    dHost.memStatus 0x9DC0000000 8 = 0x0404 ∧ dHost.memStatus 0xA000000000 8 = 0x0104 ∧ dHost.get R.LGR_DUMP_LENGTH < 8 ∧ dHost.mgt.completions = [] ∧
    dHost.relayTo 1 = none := by
  rintro k hk t rfl; revert k; decide +kernel
theorem witness_relay : ∀ d : Dev, d = { d0 with fab := { d0.fab with relayRx := [(0, txn 9 0 0)] } } → d.fab.relayRx = [(0, txn 9 0 0)] ∧ (txn 9 0 0).kind = 9 ∧
    d.mgt.hostUp = false ∧ d.mgt.relayPort = none ∧ d.has R.MGT_HOST_VALID = false ∧ (2 ^ 56 : Nat).testBit 56 = true ∧
    (d.isGf 0 = false ∨ (d.link 0).relay = false ∨ (d.link 0).relay = true) := by
  rintro d rfl; decide +kernel
/-- A firmware image of VERSION 3 without a body, signed with the key of seed 1, which the device holds as root key. -/
def fwBody : Bytes := [0x47, 0x4C, 0x46, 0x57, 0x49, 0x4D, 0x47, 0x31] ++ le 2 1 ++ List.replicate 6 0 ++ le 8 3 ++ le 8 256 ++ List.replicate 32 0 ++ sha512 [] ++
  List.replicate 64 0
def fw0 : Bytes := fwBody ++ edSign seed1 fwBody
def dRoot : Dev := { d0 with sec := { d0.sec with rootKey := edPublic seed1 } }
theorem witness_write_slot : (dRoot.write 0x1000 fw0).writeSlotCheck 256 0x1000 = 0 ∧ ((dRoot.setW R.SEC_MIN_VERSION 4).write 0x1000 fw0).writeSlotCheck 256 0x1000 = 0x0117 ∧
    fwVerified (edPublic seed1) fw0 = true ∧ fwVerified (edPublic seed1) [] = false ∧ dRoot.writeSlotCheck 256 0x1000 = 0x0710 ∧
    dRoot.writeSlotCheck 256 0xA000000000 = 0x0104 ∧ dRoot.writeSlotCheck 0x1C000001 0 = 0x0201 := by decide +kernel
theorem witness_firmware_states : d0.mgt.fwWait = false ∧ d0.has R.SEC_REC_STATUS_BUSY = false ∧ (d0.set R.SEC_REC_STATUS_BUSY 1).has R.SEC_REC_STATUS_BUSY = true ∧
    (∀ st ∈ [0, 1, 2, 3], (d0.set R.MGT_FW_STATUS_STATE st).get R.MGT_FW_STATUS_STATE = st) ∧ d0.runSlot = 0 ∧
    ((d0.setSlot 0 ⟨fw0, true⟩).setSlot 1 ⟨fw0, true⟩).updateCheck = 0 ∧ (d0.setSlot 1 ⟨[], false⟩).updateCheck = 0x0710 ∧ ((d0.setSlot 1 ⟨fw0, true⟩).slotOf 1).verified = true := by decide +kernel
theorem witness_old_firmware : ∀ d, d = (d0.setSlot 1 ⟨fw0, true⟩).setW R.SEC_MIN_VERSION 4 → fwVersion (d.slotOf 1).bytes < d.minVersion ∧ d.slotStarts 1 = false ∧
    d.updateCheck = 0x0117 := by
  rintro d rfl; decide +kernel
/-- A UNITS record of SEQ 9 for this device, signed with the key of seed 1. -/
def unitsRec : Bytes :=
  let b := [0x47, 0x4C, 0x53, 0x52, 0x45, 0x43, 0x30, 0x31] ++ le 2 1 ++ [3, 1] ++ le 4 184 ++ le 8 9 ++ le 8 d0.keyId ++ List.replicate 32 0 ++ List.replicate 184 0
  b ++ edSign seed1 b
theorem witness_records : recFormed unitsRec = true ∧ recType unitsRec = 3 ∧ recSigner unitsRec = 1 ∧ recDevice unitsRec = d0.keyId ∧ recSignerOk 3 1 = true ∧
    recSeq unitsRec = 9 ∧ unitsRec.length = 312 ∧ recFormed [] = false := by decide +kernel
theorem witness_record_write : ∀ d, d = (dRoot.set R.SEC_REC_SRC_SRC 1).write 0x1000 unitsRec → d.recWriteCheck 312 = 0 ∧ d.recWriteCheck 0 = 0 ∧ d.recWriteCheck 0x100001 = 0x0201 ∧
    (d.set R.LGR_STATUS_FATAL 1).recWriteCheck 312 = 0x0F04 ∧ (d.set R.MGT_FW_STATUS_STATE 1).recWriteCheck 312 = 0x0510 := by
  rintro d rfl; decide +kernel
theorem witness_quote : hbmRange 0 32 = none ∧ hbmRange 0x9DC0000000 32 = some 0x0404 ∧ hbmRange 0xA000000000 32 = some 0x0104 ∧ d0.inRegion 0 32 = false ∧
    (fn0 (run img0) 1).inRegion 0x10000 32 = true ∧ d0.has R.SEC_QUOTE_CTRL_BUSY = false ∧ d0.sec.quote = none ∧ d0.sec.recOp = none := by decide +kernel

/-! Power, clocks, reset and boot -/

theorem witness_phases : ∀ p ∈ [Phase.running, .dead, .tripped, .clockFault, .inReset 1, .inReset 2], ({ d0 with pwr := { d0.pwr with phase := p } } : Dev).pwr.phase = p ∧
    (p = .running ∨ p ≠ .running) := by decide +kernel
/-- The device without records. -/
def dBare : Dev := { d0 with sec := { d0.sec with records := [] } }
theorem witness_boot : (∀ x ∈ dBare.copies 1, recSignedBy dBare.sec.rootKey x.2 = false) ∧ dBare.recOf 3 = [] ∧ (dBare.bootSelect none).pwr.phase = .dead ∧
    d0.recOf 3 ≠ [] ∧ d0.recOf 5 ≠ [] ∧ d0.slotStarts 0 = true ∧ (d0.setW R.SEC_MIN_VERSION (2 ^ 49)).slotStarts 0 = false := by decide +kernel
theorem witness_sensors : (100 : Int) < 1840 ∧ (1840 : Int) ≤ (1840 : BitVec 16).toInt ∧ d0.get R.GLB_THERMAL_LEVEL ≤ min 16 (max 4 (d0.get R.GLB_LIMITS_LEVEL_CAP)) ∧
    sext 16 (d0.get R.GLB_THERMAL_TJ) < 1680 ∧ d0.pwr.cool < 100 ∧ 6 ≤ (6 : Byte).toNat ∧ (0 : BitVec 16).toNat + 50 ≤ (d0.set R.GLB_AVS_TARGET_MV 700).get R.GLB_AVS_TARGET_MV := by
  decide +kernel

end Sys2Proof.Tests
end

section
/-! SUPPORT. Control-space accesses by register writes, reads and the host's register window (R14, R23, R500, R503). -/

namespace Sys2Proof.Machine

/-! ## The status of an access -/

theorem ctlStatus_beyond {off : Nat} (size : Nat) (h : 0x100000000 ≤ off) : ctlStatus off size = St.addressUnmapped := by
  unfold ctlStatus; rw [if_pos h]

theorem ctlStatus_misshapen {off size : Nat} (h : off < 0x100000000) (hs : size ≠ 8 ∨ off % 8 ≠ 0) :
    ctlStatus off size = St.accessSize := by
  unfold ctlStatus; rw [if_neg (Nat.not_le.2 h), if_pos hs]

theorem ctlStatus_aligned {off : Nat} (h : off < 0x100000000) (ha : off % 8 = 0) : ctlStatus off 8 = 0 := by
  unfold ctlStatus; rw [if_neg (Nat.not_le.2 h), if_neg (by simp [ha])]

/-! ## Offsets without a register -/

theorem Dev.ctlRead_of_regAt_none (d : Dev) {off : Nat} (h : regAt off = none) : d.ctlRead off = (0, d) := by
  unfold Dev.ctlRead; rw [h]

theorem Dev.ctlWrite_of_regAt_none (d : Dev) {off : Nat} (v : Word) (h : regAt off = none) : d.ctlWrite off v = d := by
  unfold Dev.ctlWrite; rw [h]

/-! ## REGISTER_WRITE -/

theorem exec_registerWrite (off size : Nat) (v : Word) (s : State) : exec (.registerWrite off size v) s = execRegisterWrite off size v s := rfl

/-- A write whose access is refused gives the status of the refusal and has no effect. -/
theorem registerWrite_refused {s : State} {off size : Nat} {st : Status} (v : Word) (hl : s.Live) (hst : ctlStatus off size = st)
    (hne : st ≠ 0) : Becomes (.registerWrite off size v) s (s.dev.reply st) := by
  refine becomes_live (exec_registerWrite off size v s) hl ?_
  simp only [hst]
  rw [if_pos hne]

/-- A write whose access passes completes with OK and writes control space. -/
theorem registerWrite_passed {s : State} {off size : Nat} (v : Word) (hl : s.Live) (hst : ctlStatus off size = 0) :
    Becomes (.registerWrite off size v) s ((s.dev.ctlWrite off v).reply St.ok) := by
  refine becomes_live (exec_registerWrite off size v s) hl ?_
  simp only [hst]
  rw [if_neg (not_not.2 rfl)]

/-! ## The host's register window -/

theorem exec_regRead (h : HostSrc) (s : State) : exec (.regRead h) s = execRegRead h s := rfl
theorem exec_regWrite (h : HostSrc) (s : State) : exec (.regWrite h) s = execRegWrite h s := rfl

theorem hrwStatus_misaligned {o : Nat} (h : o < 0x10000) (ha : o % 8 ≠ 0) : hrwStatus o = St.accessSize := by
  unfold hrwStatus; rw [if_neg (Nat.not_le.2 h), if_pos ha]

theorem lenCheck_host_passed {n : Nat} (h : n ≤ 4096) : lenCheck 32 n 4096 = none := by
  unfold lenCheck; rw [if_neg (by omega), if_neg (Nat.not_lt.2 h)]

/-- The LENGTH of a window request within the bound is 8 or of the wrong size. -/
theorem Dev.txnLength_window (d : Dev) {n : Nat} (h0 : 0 < n) (h : n ≤ 4096) :
    d.txnLength n true = (if n = 8 then none else some St.accessSize, d) := by
  unfold Dev.txnLength
  rw [lenCheck_host_passed h, if_neg (Nat.ne_of_gt h0), if_pos rfl]

/-- A window request at a refused offset completes with the refusal's status, a read as a write. -/
theorem Dev.txnRun_window_refused (d : Dev) {t : Txn} {k : Nat} (hk : k = 1 ∨ k = 2) (hst : hrwStatus t.addr.toNat ≠ 0) :
    d.txnRun t k = d.complete t (hrwStatus t.addr.toNat) [] := by
  rcases hk with rfl | rfl
  · unfold Dev.txnRun; exact if_pos hst
  · unfold Dev.txnRun; exact if_pos hst

/-- A window request of LENGTH other than 8, or at an offset that is not aligned, completes with ACCESS_SIZE. -/
theorem Dev.hostRun_window_misshapen (d : Dev) {t : Txn} (src : HostSrc) (hk : t.kind.toNat = 1 ∨ t.kind.toNat = 2) (hr : t.rsv = false)
    (hi : t.index.toNat < 64) (h0 : 0 < t.len.toNat) (hn : t.len.toNat ≤ 4096)
    (hs : t.len.toNat ≠ 8 ∨ t.addr.toNat < 0x10000 ∧ t.addr.toNat % 8 ≠ 0) :
    d.hostRun t src = d.complete t St.accessSize [] := by
  have hform : ¬ (t.kind.toNat = 0 ∨ 6 < t.kind.toNat ∨ t.rsv = true ∨ 64 ≤ t.index.toNat) := by
    simp only [hr, Bool.false_eq_true, false_or]; omega
  have h6 : t.kind.toNat ≠ 6 := by omega
  have hreg : decide (t.kind.toNat ≤ 2) = true := decide_eq_true (by omega)
  unfold Dev.hostRun
  simp only [if_neg hform, if_neg h6, hreg, Dev.txnLength_window d h0 hn]
  by_cases h8 : t.len.toNat = 8
  · obtain ⟨hlt, ha⟩ := hs.resolve_left (not_not.2 h8)
    have hst := hrwStatus_misaligned hlt ha
    rw [if_pos h8]
    simp only [if_neg (Nat.ne_of_gt h0)]
    rw [Dev.txnRun_window_refused d hk (by rw [hst]; decide), hst]
  · rw [if_neg h8]

/-- A request on the host link with the device's own INDEX is carried out at once outside a handover. -/
theorem Dev.hostIn_own (d : Dev) {t : Txn} {want : Txn → Bool} (hup : d.mgt.hostUp = true) (hw : want t = true) (hi : t.index.toNat < 64)
    (hown : t.index.toNat = d.get R.MGT_HOST_INDEX) (hst : d.get R.MGT_FW_STATUS_STATE ≠ 3) :
    d.hostIn (.link t) want = d.hostRun t (.link t) := by
  have hx : t.index.toNat % 64 = d.get R.MGT_HOST_INDEX := by rw [Nat.mod_eq_of_lt hi, hown]
  have hgo : (!d.mgt.hostUp || !want t) = false := by rw [hup, hw]; rfl
  unfold Dev.hostIn Dev.hostTake
  simp only [hgo, hx]
  rw [if_neg Bool.false_ne_true, if_pos trivial, if_neg (fun h => hst h.1)]

theorem isReq_of_kind {t : Txn} {k : Nat} (hk : t.kind.toNat = k) (hr : t.rsv = false) (hi : t.index.toNat < 64) : isReq k t = true := by
  simp [isReq, hk, hr, hi]

/-- The request of the own host whose width or alignment is wrong passes the link and the order of R500 up to its refusal. -/
theorem Dev.hostIn_window_misshapen (d : Dev) {t : Txn} {k : Nat} (hk : t.kind.toNat = k) (hk12 : k = 1 ∨ k = 2) (hup : d.mgt.hostUp = true)
    (hr : t.rsv = false) (hown : t.index.toNat = d.get R.MGT_HOST_INDEX) (hi : t.index.toNat < 64) (hst : d.get R.MGT_FW_STATUS_STATE ≠ 3)
    (h0 : 0 < t.len.toNat) (hn : t.len.toNat ≤ 4096) (hs : t.len.toNat ≠ 8 ∨ t.addr.toNat < 0x10000 ∧ t.addr.toNat % 8 ≠ 0) :
    d.hostIn (.link t) (isReq k) = d.complete t St.accessSize [] := by
  rw [Dev.hostIn_own d hup (isReq_of_kind hk hr hi) hi hown hst,
    Dev.hostRun_window_misshapen d (.link t) (hk ▸ hk12) hr hi h0 hn hs]

/-- Settles O9: the checks of width and alignment come before any effect, on both ways into control space, and an offset outside the register
table neither takes a write nor holds a value. -/
theorem controlSpaceAccesses : Obligations.ControlSpaceAccesses := by
  intro s off size v hl
  refine ⟨fun hb => ?beyond, fun hlt hs => ?misshapen, fun hlt h8 ha hnone => ?unimplemented,
    fun hnone => s.dev.ctlRead_of_regAt_none hnone, ?window⟩
  case beyond => exact registerWrite_refused v hl (ctlStatus_beyond size hb) (by decide)
  case misshapen => exact registerWrite_refused v hl (ctlStatus_misshapen hlt hs) (by decide)
  case unimplemented =>
    subst h8
    have h := registerWrite_passed v hl (ctlStatus_aligned hlt ha)
    rwa [s.dev.ctlWrite_of_regAt_none v hnone] at h
  case window =>
    rintro t n hup hr hown hi hst rfl h0 hn hs
    refine ⟨fun hk => ?_, fun hk => ?_⟩
    · exact becomes_live (exec_regRead (.link t) s) hl
        (congrArg Dev.settle (s.dev.hostIn_window_misshapen (by rw [hk]; rfl) (.inl rfl) hup hr hown hi hst h0 hn hs))
    · exact becomes_live (exec_regWrite (.link t) s) hl
        (congrArg Dev.settle (s.dev.hostIn_window_misshapen (by rw [hk]; rfl) (.inr rfl) hup hr hown hi hst h0 hn hs))

end Sys2Proof.Machine
end

section
/-! SUPPORT. STAGE: its checks in order, what a refused and what an accepted one leaves (R109). -/

namespace Sys2Proof.Machine

/-! ## Checks in order -/

/-- One check of a chain: failed, it decides the status; passed, the rest of the chain does. -/
theorem status_of_check {c : Prop} [Decidable c] {st code rest : Status} {Fails Passes Rest : Prop} (h : st = if c then code else rest)
    (hfail : c → Fails) (hpass : ¬ c → Passes) (hrest : st = rest → Rest) : st = code ∧ Fails ∨ Passes ∧ Rest := by
  by_cases hc : c
  · exact .inl ⟨h.trans (if_pos hc), hfail hc⟩
  · exact .inr ⟨hpass hc, hrest (h.trans (if_neg hc))⟩

/-! ## STAGE -/

@[simp] theorem Dev.setSt_read (d : Dev) (r : FRef) (st : Status) (a n : Nat) : (d.setSt r st).read a n = d.read a n := by
  rw [Dev.read_mem, Dev.read_mem, Dev.setSt_mem]

/-- A refused STAGE only shows its status. -/
theorem Dev.stageMemb_refused {d : Dev} {f epoch steep table n : Nat} (h : d.stageCheck f epoch steep table n ≠ 0) :
    (d.stageMemb f epoch steep table n).2 = d.setSt (R.SEQ_FN_MEMB_CUR_STATUS f) (d.stageCheck f epoch steep table n) := by
  simp only [Dev.stageMemb, if_pos h]

/-- An accepted STAGE shows status 0, replaces any staged epoch by its own with the consumer table as memory holds it, and sets
MEMB_STAGED. -/
theorem Dev.stageMemb_accepted {d : Dev} {f epoch steep table n : Nat} (h : d.stageCheck f epoch steep table n = 0) :
    (d.stageMemb f epoch steep table n).2 = (((d.setSt (R.SEQ_FN_MEMB_CUR_STATUS f) 0).modFn f (fun r => { r with
      staged := some ⟨epoch, steep, n, d.read table (32 * n)⟩ })).set (R.SEQ_FN_STATUS_MEMB_STAGED f) 1) := by
  simp only [Dev.stageMemb, h, ne_eq, not_true_eq_false, if_false, Dev.setSt_read]

theorem exec_stage (f : FnId) (n : BitVec 16) (s : State) : exec (.stage f n) s = execStage f n s := rfl

/-- Settles O15: each check of R109 is one link of the chain that `Dev.stageCheck` runs through. -/
theorem stageAppliesItsChecks : Obligations.StageAppliesItsChecks := by
  rintro s f n d epoch steep table hl hd rfl rfl rfl
  generalize hst : d.stageCheck f _ _ _ n.toNat = st
  refine ⟨st, ?chain, fun hne => ?refused, fun h0 => ?accepted⟩
  case chain =>
    have h := hst.symm
    unfold Dev.stageCheck at h
    -- the function is loaded
    refine status_of_check h (by simp) (by simp) fun h => ?_
    -- CONSUMERS is not all-ones, and is 1 to 4,096
    refine status_of_check h (fun hc => by bv_omega) (fun hc => by bv_omega) fun h => ?_
    refine status_of_check h (fun hc => by bv_omega) (fun hc => by bv_omega) fun h => ?_
    -- the table lies inside the plan-and-tables region
    refine status_of_check h (fun hc g hg => by simpa [hg] using hc) (fun hc => ?inside) fun h => ?_
    case inside =>
      cases hg : (d.img f).region 2 with
      | none => simp [hg] at hc
      | some g => exact ⟨g, rfl, by simpa [hg] using hc⟩
    -- EPOCH is above the epoch in force and any staged epoch
    refine status_of_check h (fun hc => by simpa [Option.any_eq_true] using hc)
      (fun hc => by simpa [Option.any_eq_true] using hc) fun h => ?_
    -- STEEP is above the current steep, unless the function is STOPPED
    exact (status_of_check h id (fun hc => (not_and_or.1 hc).imp not_not.1 Nat.lt_of_not_le) id).imp_right And.symm
  case refused =>
    subst hd hst
    exact becomes_live (exec_stage f n s) hl (congrArg (Dev.reply · St.ok) (Dev.stageMemb_refused hne))
  case accepted =>
    subst hd h0
    exact becomes_live (exec_stage f n s) hl (congrArg (Dev.reply · St.ok) (Dev.stageMemb_accepted hst))

end Sys2Proof.Machine
end

section
/-! SUPPORT. MIN_FW_VERSION: what the boot ROM may start, and the bound in the checks of WRITE_SLOT and UPDATE (R506, R519). -/

namespace Sys2Proof.Machine

/-! ## The boot ROM's choice of a slot -/

theorem Dev.slotStarts_iff {d : Dev} {n : Nat} :
    d.slotStarts n = true ↔ (d.slotOf n).verified = true ∧ d.minVersion ≤ fwVersion (d.slotOf n).bytes := by
  simp only [Dev.slotStarts, Bool.and_eq_true, decide_eq_true_eq]

/-- An image below the bound is not started. -/
theorem Dev.slotStarts_of_below {d : Dev} {n : Nat} (h : fwVersion (d.slotOf n).bytes < d.minVersion) : d.slotStarts n = false :=
  Bool.eq_false_iff.2 fun hs => Nat.not_le.2 h (Dev.slotStarts_iff.1 hs).2

/-- No slot's standing rests on the slot-select word. -/
theorem Dev.slotStarts_slotSelect (d : Dev) (m n : Nat) :
    ({ d with mgt := { d.mgt with slotSelect := m } } : Dev).slotStarts n = d.slotStarts n := rfl

@[simp] theorem Dev.selectRec_mgt (d : Dev) (t : Nat) (ok : Bytes → Bool) : (d.selectRec t ok).mgt = d.mgt := by
  unfold Dev.selectRec
  split <;> rfl

@[simp] theorem Dev.bootStop_phase (d : Dev) (code : Nat) : (d.bootStop code).pwr.phase = .dead := rfl

@[simp] theorem Dev.firmwareBoot_phase (d : Dev) (n : Nat) (fb : Bool) (e : Option Bytes) : (d.firmwareBoot n fb e).pwr.phase = .running := rfl

/-- All that steps 3 to 6 of the boot ROM can do: stop, or start a slot that qualifies, with both slots as they were. -/
theorem Dev.bootSelect_cases (d : Dev) (e : Option Bytes) :
    (∃ (y : Dev) (code : Nat), d.bootSelect e = y.bootStop code) ∨
    ∃ (y : Dev) (k : Nat) (fb : Bool), d.bootSelect e = y.firmwareBoot k fb e ∧ y.mgt.slotA = d.mgt.slotA ∧
      y.mgt.slotB = d.mgt.slotB ∧ y.slotStarts k = true := by
  unfold Dev.bootSelect
  extract_lets d₃ d₄ d₅ n
  have hmgt : d₅.mgt = d.mgt := by simp [d₅, d₄, d₃]
  have hA : d₅.mgt.slotA = d.mgt.slotA := congrArg Mgt.slotA hmgt
  have hB : d₅.mgt.slotB = d.mgt.slotB := congrArg Mgt.slotB hmgt
  clear_value d₅
  by_cases hunits : d₄.recOf 3 = []
  · exact .inl ⟨d₄, 3, if_pos hunits⟩
  rw [if_neg hunits]
  by_cases hmin : d₄.recOf 5 = []
  · exact .inl ⟨d₄, 4, if_pos hmin⟩
  rw [if_neg hmin]
  by_cases hnamed : d₅.slotStarts n = true
  · exact .inr ⟨d₅, n, false, if_pos hnamed, hA, hB, hnamed⟩
  rw [if_neg hnamed]
  by_cases hother : d₅.slotStarts (1 - n) = true
  · exact .inr ⟨_, 1 - n, true, if_pos hother, hA, hB, (d₅.slotStarts_slotSelect _ _).trans hother⟩
  · exact .inl ⟨d₅, _, if_neg hother⟩

/-! ## The checks of WRITE_SLOT and UPDATE -/

theorem lenCheck_passed {w n bound : Nat} (hn : n ≤ bound) (hw : bound < 2 ^ w - 1) : lenCheck w n bound = none := by
  unfold lenCheck
  rw [if_neg (by omega), if_neg (by omega)]

/-- A source range that ends in HBM below the fixed region passes. -/
theorem srcRange_passed {a n : Nat} (h : a + n ≤ fixedBase) : srcRange a n = none := by
  have hfixed : fixedBase < ctlBase := by decide
  unfold srcRange hbmRange
  rw [if_neg (by omega), if_pos h]

/-- A WRITE_SLOT whose length and source pass is judged by its image alone: the signature, then the bound. -/
theorem Dev.writeSlotCheck_of_range (d : Dev) {l a : Nat} (h0 : 0 < l) (hl : l ≤ 0x1C000000) (ha : a + l ≤ fixedBase) :
    d.writeSlotCheck l a = if !fwSigned d.sec.rootKey (d.read a l) then St.signatureInvalid
      else if fwVersion (d.read a l) < d.minVersion then St.targetMismatch else 0 := by
  unfold Dev.writeSlotCheck
  simp only [lenCheck_passed (w := 32) hl (by decide), if_neg (Nat.ne_of_gt h0), srcRange_passed ha]

/-- An UPDATE outside loads, to a verified image below the bound, does not match the target. -/
theorem Dev.updateCheck_of_below {d : Dev} (hbusy : d.has R.SEQ_IMG_STATUS_BUSY = false) (hpend : d.has R.SEQ_IMG_STATUS_PENDING = false)
    (hver : (d.slotOf (1 - d.runSlot)).verified = true) (hold : fwVersion (d.slotOf (1 - d.runSlot)).bytes < d.minVersion) :
    d.updateCheck = St.targetMismatch := by
  unfold Dev.updateCheck
  simp [hbusy, hpend, hver, hold]

/-- Settles O59: what the boot ROM starts has passed `Dev.slotStarts`, and the checks of WRITE_SLOT and UPDATE apply the same bound. -/
theorem oldFirmwareIsNotStarted : Obligations.OldFirmwareIsNotStarted := by
  intro d n l a e
  refine ⟨Dev.slotStarts_of_below, fun _ => ?boot, fun h0 hl ha hsig hold => ?writeSlot, Dev.updateCheck_of_below⟩
  case boot =>
    obtain ⟨y, code, hstop⟩ | ⟨y, k, fb, hstart, hA, hB, hk⟩ := d.bootSelect_cases e
    · exact .inl (by rw [hstop, Dev.bootStop_phase])
    · obtain ⟨hver, hmin⟩ := Dev.slotStarts_iff.1 hk
      exact .inr ⟨by rw [hstart, Dev.firmwareBoot_phase], y, k, fb, hstart, hA, hB, hver, hmin⟩
  case writeSlot =>
    rw [d.writeSlotCheck_of_range h0 hl ha, hsig, if_neg (by decide), if_pos hold, St.targetMismatch]

end Sys2Proof.Machine
end

section
/-! SUPPORT. The machine as a whole: steps, the invariant that they keep, reset, memory and register fields. -/

namespace Sys2Proof.Machine

/-! ## Steps -/

/-- Settles O1: it is the definition of a step. -/
theorem stepRunsTheFrontCommand : Obligations.StepRunsTheFrontCommand := fun _ _ => rfl

theorem step_idle {s : State} (h : s.pending = []) : step s = .next { s with dev := s.dev.idle.commit } := by
  unfold step; rw [h]

theorem Dev.idle_live {d : Dev} (h : d.pwr.phase = .running) : d.idle = d.cycle := if_pos h

theorem Dev.idle_dead {d : Dev} (h : d.pwr.phase ≠ .running) : d.idle = { d with clk := d.clk + 5 } := if_neg h

/-- Settles O2: an idle step is one cycle, whose only writes are to the clock and TIM. -/
theorem idleStepPassesOneCycle : Obligations.IdleStepPassesOneCycle := by
  rintro s n hp rfl
  refine ⟨fun hl => ?live, fun hl => ?dead, fun t ht => ?frame⟩
  case live => rw [step_idle hp, Dev.idle_live hl]; rfl
  case dead => rw [step_idle hp, Dev.idle_dead hl]
  case frame =>
    rw [step_idle hp] at ht
    cases ht
    have hmem : Mem.wf s.dev.mem = true → Mem.norm s.dev.mem = s.dev.mem := Mem.norm_of_wf
    by_cases hl : s.dev.pwr.phase = .running
    · simpa [Dev.idle_live hl, Dev.cycle] using hmem
    · simpa [Dev.idle_dead hl] using hmem

theorem Dev.open_of_not_always {d : Dev} {g : Domain} (hg : g ≠ .always) (h : d.pwr.phase ≠ .running) : d.open g = false := by
  cases g with
  | always => exact absurd rfl hg
  | live => simp [Dev.open, h]
  | engine => simp [Dev.open, h]

theorem Dev.open_engine_of_fatal {d : Dev} (h : d.fatal = true) : d.open .engine = false := by
  simp [Dev.open, h]

/-- Settles O3: every command acts within its domain, and a closed domain keeps the state. -/
theorem everyCommandAnswersNext : Obligations.EveryCommandAnswersNext := by
  refine ⟨fun c s => ?answers, fun c s hc => ?closed⟩
  case answers =>
    obtain ⟨-, d, hd⟩ | ⟨-, hs⟩ := exec_cases c s
    · exact ⟨d.commit, hd⟩
    · exact ⟨s.dev, hs⟩
  case closed =>
    have hclosed : s.dev.open (domainOf c) = false := by
      obtain ⟨hg, hp⟩ | ⟨hg, hf⟩ := hc
      · exact Dev.open_of_not_always hg hp
      · rw [hg, Dev.open_engine_of_fatal hf]
    obtain ⟨hopen, -⟩ | ⟨-, hs⟩ := exec_cases c s
    · rw [hclosed] at hopen; exact absurd hopen Bool.false_ne_true
    · exact hs

/-! ## The invariant -/

/-- The end of a command makes any device good. -/
theorem State.good_commit (d : Dev) (l : List Instr) : State.Good ⟨d.commit, l⟩ :=
  ⟨Dev.commit_wf d, fun h => Dev.commit_sig (by rwa [Dev.commit_pwr] at h)⟩

/-- The queue has no part in the invariant. -/
theorem State.Good.of_dev {s t : State} (h : s.Good) (hd : t.dev = s.dev) : t.Good := by
  unfold State.Good; rw [hd]; exact h

/-- Settles O4: a step either ends in `Dev.commit`, which makes the state good, or leaves the device as it was. -/
theorem everyStepKeepsGood : Obligations.EveryStepKeepsGood := by
  intro s t hs ht
  obtain ⟨-, hidle⟩ | ⟨c, r, hp, hrun⟩ := step_cases s
  · rw [hidle] at ht; cases ht
    exact State.good_commit _ _
  · rw [hrun] at ht
    obtain ⟨-, d, hd⟩ | ⟨-, hsame⟩ := exec_cases c { s with pending := r }
    · rw [hd] at ht; cases ht
      exact State.good_commit _ _
    · rw [hsame] at ht; cases ht
      exact hs.of_dev rfl

/-! ## Reset -/

/-- Settles O5: memory is empty and no register that boot has set drives a signal. -/
theorem resetIsGood : Obligations.ResetIsGood := by
  refine ⟨rfl, fun _ => ?_⟩
  have hsignals : State.reset.dev.signals = [] := by decide
  rw [hsignals]; rfl

theorem findSpec_mem {l : List RegSpec} {o : Nat} {x : RegSpec × Nat × Nat} (h : findSpec l o = some x) : x.1 ∈ l := by
  induction l with
  | nil => cases h
  | cons r l ih =>
    unfold findSpec at h
    split at h
    · cases h; exact List.mem_cons_self
    · exact List.mem_cons_of_mem _ (ih h)

/-- The reset value that the fields of a table row spell. -/
def RegSpec.resetWord (r : RegSpec) : Word := r.fields.foldl (fun w f => setBits w f.hi f.lo f.rst) 0

/-- Outside the interrupt controller a register's reset value is 0 or that of a row of its block's table. -/
theorem regReset_cases {off : Nat} (h : off / 0x1000000 ≠ 14) :
    regReset off = 0 ∨ ∃ r ∈ regTable (off / 0x1000000), regReset off = r.resetWord := by
  unfold regReset
  cases hr : regAt off with
  | none => exact .inl rfl
  | some x => exact .inr ⟨x.1, findSpec_mem hr, if_neg (fun hc => h hc.1)⟩

theorem Dev.word_of_unlisted {d : Dev} {off : Nat} (h : Map.find d.regs off = none) : d.word off = regReset off := by
  unfold Dev.word; rw [h]

/-- A VALID bit that boot has not set is 0 where no row of the block's table resets bit 63 to 1. -/
theorem Dev.has_bit63_of_unlisted {d : Dev} {r : FRef} {b : Nat} (hr : r.hi = 63 ∧ r.lo = 63) (hu : Map.find d.regs r.off = none)
    (hb : r.off / 0x1000000 = b) (h14 : b ≠ 14) (hrows : ∀ x ∈ regTable b, getBits x.resetWord 63 63 = 0) : d.has r = false := by
  have hw : getBits (regReset r.off) 63 63 = 0 := by
    obtain h0 | ⟨x, hx, hw⟩ := regReset_cases (hb ▸ h14)
    · rw [h0]; rfl
    · rw [hw]; exact hrows x (hb ▸ hx)
  unfold Dev.has Dev.get
  rw [Dev.word_of_unlisted hu, hr.1, hr.2, hw]; rfl

theorem Regs.find_reset_of_above {off : Nat} (h : 0x2000000 ≤ off) (hf : off < 0xF000000) : Map.find Regs.reset off = none := by
  simp only [Regs.reset, Map.find, R.GLB_ID, R.GLB_UNITS, R.GLB_RESET_CAUSE, R.GLB_BOOT, R.MGT_FW_VERSION, R.SEC_STATUS, R.SEC_DEVICE_KEY]
  iterate 10 rw [if_neg (by omega)]

/-- Settles O6: fields of single registers by evaluation, the VALID bits of the fence and domain tables for every index. -/
theorem resetValues : Obligations.ResetValues := by
  rintro d n rfl
  have hfns : ∀ n < 16, State.reset.dev.fnState n = 0 ∧ State.reset.dev.has (R.STC_TASK_STATUS_BUSY (n % 8)) = false := by decide +kernel
  have htables : n < 4096 → State.reset.dev.has (R.FAB_FENCE_VALID n) = false ∧ State.reset.dev.has (R.XPT_PD_VALID n) = false := by
    intro hn
    have hfence : R.FAB_FENCE n / 0x1000000 = 8 ∧ 0x2000000 ≤ R.FAB_FENCE n ∧ R.FAB_FENCE n < 0xF000000 := by unfold R.FAB_FENCE; omega
    have hpd : R.XPT_PD n / 0x1000000 = 9 ∧ 0x2000000 ≤ R.XPT_PD n ∧ R.XPT_PD n < 0xF000000 := by unfold R.XPT_PD; omega
    exact ⟨Dev.has_bit63_of_unlisted ⟨rfl, rfl⟩ (Regs.find_reset_of_above hfence.2.1 hfence.2.2) hfence.1 (by decide) (by decide +kernel),
      Dev.has_bit63_of_unlisted ⟨rfl, rfl⟩ (Regs.find_reset_of_above hpd.2.1 hpd.2.2) hpd.1 (by decide) (by decide +kernel)⟩
  refine ⟨by decide +kernel, by decide +kernel, by decide +kernel, by decide +kernel, by decide +kernel, by decide +kernel, by decide +kernel,
    by decide +kernel, by decide +kernel, rfl, by decide +kernel, by decide +kernel, by decide +kernel, by decide +kernel, rfl, rfl,
    by decide +kernel, rfl, rfl, rfl, rfl, hfns n, htables⟩

/-! ## Memory and register fields -/

@[simp] theorem Dev.zero_mem (d : Dev) (a n : Nat) : (d.zero a n).mem = Mem.zero d.mem a n := rfl

/-- A zeroed range reads 0. -/
theorem Dev.read_zero_same {d : Dev} (h : Mem.wf d.mem = true) (a n : Nat) : (d.zero a n).read a n = List.replicate n 0 := by
  rw [Dev.read_mem, Dev.zero_mem, Mem.readFrom_eq (Mem.wf_zero h a n), List.eq_replicate_iff]
  refine ⟨by simp, fun b hb => ?_⟩
  obtain ⟨i, hi, rfl⟩ := List.mem_map.1 hb
  rw [Mem.at_zero h, if_pos (by rw [List.mem_range] at hi; omega)]

/-- Zeroing a range leaves the bytes apart from it. -/
theorem Dev.read_zero_apart {d : Dev} (h : Mem.wf d.mem = true) {a n b m : Nat} (hab : b + m ≤ a ∨ a + n ≤ b) :
    (d.zero a n).read b m = d.read b m := by
  rw [Dev.read_mem, Dev.read_mem, Dev.zero_mem, Mem.readFrom_eq (Mem.wf_zero h a n), Mem.readFrom_eq h]
  refine List.map_congr_left (fun i hi => ?_)
  rw [Mem.at_zero h, if_neg (by rw [List.mem_range] at hi; omega)]

/-- Settles O7: the laws of memory, put together. -/
theorem memoryReadsWhatWasWritten : Obligations.MemoryReadsWhatWasWritten := fun _ a b h =>
  ⟨Dev.read_write_same h a b, fun _ _ => Dev.read_write_apart h, Mem.wf_write h a b, Dev.read_zero_same h a,
    fun _ _ _ => Dev.read_zero_apart h⟩

/-- Settles O8: the laws of register fields, put together. -/
theorem registerFieldsReadBack : Obligations.RegisterFieldsReadBack := by
  intro d r q v hr h64 hq
  refine ⟨Dev.get_set_same d r v hr h64, fun hne => ?_, fun _ => Dev.word_set_other d v, Dev.get_add d r v hr h64⟩
  obtain hoff | hapart := hne
  · exact Dev.get_set_off d r q v hoff
  · exact Dev.get_set_apart d r q v hr h64 hq hapart

end Sys2Proof.Machine
end

section
/-! SUPPORT. GTC words: the fields of a word read back what its encoder put there (R319, R320). -/

namespace Sys2Proof

/-! ## Operand fields -/

theorem gtcField_eq {w lo n : Nat} {v : BitVec n} (h : w / 2 ^ lo % 2 ^ n = v.toNat) : gtcField w lo n = v :=
  BitVec.eq_of_toNat_eq (by rw [gtcField, BitVec.toNat_ofNat, h])

theorem testBit_eq {w i : Nat} {b : Bool} (h : w / 2 ^ i % 2 = b.toNat) : w.testBit i = b := by
  rw [Nat.testBit_eq_decide_div_mod_eq, h]
  cases b <;> rfl

theorem FmtR.bits_lt (o : FmtR) : o.bits < 2 ^ 21 := by
  have := o.d.isLt; have := o.a.isLt; have := o.b.isLt; have := o.fn.isLt
  unfold FmtR.bits; omega
theorem FmtI.bits_lt (o : FmtI) : o.bits < 2 ^ 21 := by
  have := o.d.isLt; have := o.a.isLt; have := o.imm.isLt
  unfold FmtI.bits; omega
theorem FmtU.bits_lt (o : FmtU) : o.bits < 2 ^ 21 := by
  have := o.d.isLt; have := o.imm.isLt
  unfold FmtU.bits; omega
theorem FmtB.bits_lt (o : FmtB) : o.bits < 2 ^ 21 := o.imm.isLt
theorem FmtA.bits_lt (o : FmtA) : o.bits < 2 ^ 21 := by
  have := o.d.isLt; have := o.a.isLt; have := o.aop.isLt; have := o.ord.isLt; have := o.scope.isLt; have := o.sz.isLt
  unfold FmtA.bits; omega
theorem FmtX.bits_lt (o : FmtX) : o.bits < 2 ^ 21 := by
  have := o.d.isLt; have := o.a.isLt; have := o.fmt.isLt; have := o.ord.isLt; have := o.scope.isLt
  unfold FmtX.bits; omega
theorem FmtV.bits_lt (o : FmtV) : o.bits < 2 ^ 21 := by
  have := o.vd.isLt; have := o.va.isLt; have := o.vb.isLt; have := o.ty.isLt; have := o.fn.isLt
  unfold FmtV.bits; omega
theorem FmtC.bits_lt (o : FmtC) : o.bits < 2 ^ 21 := by
  have := o.d.isLt; have := o.a.isLt; have := o.src.isLt; have := o.dst.isLt; have := o.sr.toNat_lt
  unfold FmtC.bits; omega
theorem FmtT.bits_lt (o : FmtT) : o.bits < 2 ^ 21 := by
  have := o.td.isLt; have := o.a.isLt; have := o.b.isLt; have := o.fn.isLt
  unfold FmtT.bits; omega
theorem FmtS.bits_lt (o : FmtS) : o.bits < 2 ^ 21 := by
  have := o.stats.toNat_lt; have := o.scope.isLt; have := o.kind.isLt
  unfold FmtS.bits; omega

/-! ## Words -/

section
variable (g : Guard) (op : Nat)

theorem gtcWord_lt {op b : Nat} (ho : op < 64) (hb : b < 2 ^ 21) : gtcWord g op b < 2 ^ 32 := by
  have := g.pred.isLt; have := g.neg.toNat_lt
  unfold gtcWord; omega

/-- Bits 26:21 are the opcode. -/
theorem gtcWord_op {op b : Nat} (ho : op < 64) (hb : b < 2 ^ 21) : gtcWord g op b / 2 ^ 21 % 64 = op := by
  have := g.neg.toNat_lt
  unfold gtcWord; omega

theorem gtcGuard_gtcWord {op b : Nat} (ho : op < 64) (hb : b < 2 ^ 21) : gtcGuard (gtcWord g op b) = g := by
  have := g.pred.isLt; have := g.neg.toNat_lt
  unfold gtcGuard
  congr 1
  · exact gtcField_eq (by unfold gtcWord; omega)
  · exact testBit_eq (by unfold gtcWord; omega)

@[simp] theorem fmtR_gtcWord (o : FmtR) : fmtR (gtcWord g op o.bits) = o := by
  have := o.d.isLt; have := o.a.isLt; have := o.b.isLt; have := o.fn.isLt
  unfold fmtR gtcWord FmtR.bits
  congr 1 <;> exact gtcField_eq (by omega)

@[simp] theorem fmtI_gtcWord (o : FmtI) : fmtI (gtcWord g op o.bits) = o := by
  have := o.d.isLt; have := o.a.isLt; have := o.imm.isLt
  unfold fmtI gtcWord FmtI.bits
  congr 1 <;> exact gtcField_eq (by omega)

@[simp] theorem fmtU_gtcWord (o : FmtU) : fmtU (gtcWord g op o.bits) = o := by
  have := o.d.isLt; have := o.imm.isLt
  unfold fmtU gtcWord FmtU.bits
  congr 1 <;> exact gtcField_eq (by omega)

@[simp] theorem fmtB_gtcWord (o : FmtB) : fmtB (gtcWord g op o.bits) = o := by
  have := o.imm.isLt
  unfold fmtB gtcWord FmtB.bits
  congr 1; exact gtcField_eq (by omega)

@[simp] theorem fmtA_gtcWord (o : FmtA) : fmtA (gtcWord g op o.bits) = o := by
  have := o.d.isLt; have := o.a.isLt; have := o.aop.isLt; have := o.ord.isLt; have := o.scope.isLt; have := o.sz.isLt
  unfold fmtA gtcWord FmtA.bits
  congr 1 <;> exact gtcField_eq (by omega)

@[simp] theorem fmtX_gtcWord (o : FmtX) : fmtX (gtcWord g op o.bits) = o := by
  have := o.d.isLt; have := o.a.isLt; have := o.fmt.isLt; have := o.ord.isLt; have := o.scope.isLt
  unfold fmtX gtcWord FmtX.bits
  congr 1 <;> exact gtcField_eq (by omega)

@[simp] theorem fmtV_gtcWord (o : FmtV) : fmtV (gtcWord g op o.bits) = o := by
  have := o.vd.isLt; have := o.va.isLt; have := o.vb.isLt; have := o.ty.isLt; have := o.fn.isLt
  unfold fmtV gtcWord FmtV.bits
  congr 1 <;> exact gtcField_eq (by omega)

@[simp] theorem fmtC_gtcWord (o : FmtC) : fmtC (gtcWord g op o.bits) = o := by
  have := o.d.isLt; have := o.a.isLt; have := o.src.isLt; have := o.dst.isLt; have := o.sr.toNat_lt
  unfold fmtC gtcWord FmtC.bits
  congr 1
  iterate 4 exact gtcField_eq (by omega)
  exact testBit_eq (by omega)

@[simp] theorem fmtT_gtcWord (o : FmtT) : fmtT (gtcWord g op o.bits) = o := by
  have := o.td.isLt; have := o.a.isLt; have := o.b.isLt; have := o.fn.isLt
  unfold fmtT gtcWord FmtT.bits
  congr 1 <;> exact gtcField_eq (by omega)

@[simp] theorem fmtS_gtcWord (o : FmtS) : fmtS (gtcWord g op o.bits) = o := by
  have := o.stats.toNat_lt; have := o.scope.isLt; have := o.kind.isLt
  unfold fmtS gtcWord FmtS.bits
  congr 1
  · exact testBit_eq (by omega)
  iterate 2 exact gtcField_eq (by omega)

end

/-! ## Decode of encode -/

/-- An instruction's word names its opcode, guard and operands, and is 32 bits long. -/
theorem gtcRaw_of_gtcEncode {i : Instr} {w : Nat} (h : gtcEncode i = some w) : w < 2 ^ 32 ∧ ∃ t, gtcRaw t w = some i := by
  cases i <;> simp only [gtcEncode, Option.some.injEq, reduceCtorEq] at h
  all_goals
    subst h
    refine ⟨gtcWord_lt _ (by decide) ?_, ?_⟩
    · simp only [FmtR.bits_lt, FmtI.bits_lt, FmtU.bits_lt, FmtB.bits_lt, FmtA.bits_lt, FmtX.bits_lt, FmtV.bits_lt, FmtC.bits_lt, FmtT.bits_lt, FmtS.bits_lt, Nat.two_pow_pos]
    unfold gtcRaw
    rw [gtcWord_op, gtcGuard_gtcWord]
    · simp only [fmtR_gtcWord, fmtI_gtcWord, fmtU_gtcWord, fmtB_gtcWord, fmtA_gtcWord, fmtX_gtcWord, fmtV_gtcWord, fmtC_gtcWord,
        fmtT_gtcWord, fmtS_gtcWord]
      exact ⟨_, rfl⟩
    all_goals simp only [FmtR.bits_lt, FmtI.bits_lt, FmtU.bits_lt, FmtB.bits_lt, FmtA.bits_lt, FmtX.bits_lt, FmtV.bits_lt, FmtC.bits_lt, FmtT.bits_lt, FmtS.bits_lt, Nat.two_pow_pos, Nat.reduceLT]

/-- Settles O31: the opcode picks the arm of the decoder whose format reads the operands back, and R321's conditions are the hypotheses. -/
theorem gtcDecodeOfEncode : Obligations.GtcDecodeOfEncode := by
  intro i w he ho hg
  obtain ⟨hw, t, hraw⟩ := gtcRaw_of_gtcEncode he
  exact ⟨t, by simp only [gtcDecode, hraw]; rw [if_pos ⟨hw, he, ho, hg⟩]⟩

/-- Settles O32: the decoder evaluates on each word. -/
theorem gtcWordsSpellInstructions : Obligations.GtcWordsSpellInstructions := by
  unfold Obligations.GtcWordsSpellInstructions
  decide +kernel

end Sys2Proof
end

section
/-! SUPPORT. GTC instructions that write scalar registers, retire unguarded, or end and order an attempt (R319, R324, R325, R333, R336). -/

namespace Sys2Proof.Machine

/-! ## Instructions of a thread -/

/-- What a word decodes to is an instruction of its thread under the word's guard. -/
theorem exec_of_gtcDecode {t w : Nat} {i : Instr} (h : Sys2Proof.gtcDecode t w = some i) (s : State) :
    ∃ body, exec i s = gtcStep t i (Sys2Proof.gtcGuard w) body s := by
  have hraw : Sys2Proof.gtcRaw t w = some i := by
    unfold Sys2Proof.gtcDecode at h
    split at h
    · next j hj =>
      split at h
      · rw [hj, ← h]
      · cases h
    · cases h
  unfold Sys2Proof.gtcRaw at hraw
  split at hraw <;> cases hraw <;> exact ⟨_, rfl⟩

/-- An instruction whose guard does not hold only retires. -/
theorem gtcStep_not_guarded {s : State} {t : Nat} {i : Instr} {g : Guard} {f k : Nat} {a : Attempt} {th : Thread} {body : Cx → Eff}
    (hi : exec i s = gtcStep t i g body s) (h : s.Stands t i f k a th) (hg : ¬th.Guarded g) (hc : s.dev.inCode f a.q (th.pc + 4) = true) :
    Becomes i s (s.dev.retired t k a th (th.pc + 4)) := by
  unfold Becomes
  rw [hi, gtcStep, State.act_open _ (Dev.open_engine h.1.1 h.1.2), gtcRun_of_not_guarded h hg, Dev.thrGoOn_of_inCode hc]

/-- An instruction that raises an exception. -/
theorem gtcStep_exc {s : State} {t : Nat} {i : Instr} {g : Guard} {f k : Nat} {a : Attempt} {th : Thread} {body : Cx → Eff} {st : Status}
    {addr : Nat} (hi : exec i s = gtcStep t i g body s) (h : s.Stands t i f k a th) (hg : th.Guarded g)
    (hb : body ⟨s.dev, f, a, t - k, th⟩ = .exc st addr) :
    Becomes i s (s.dev.thrExc f k a (t - k) st addr th.pc (s.dev.codeWord f th.pc)) := by
  have := gtcStep_of_stands hi h hg
  rwa [hb] at this

/-- Settles O33: an unguarded instruction goes on, and DONE, HALT and BAR have the effects of their arms. -/
theorem gtcRetiring : Obligations.GtcRetiring := by
  refine ⟨fun s t i w f k a th hw h hg hc => ?unguarded, ?ends⟩
  case unguarded =>
    obtain ⟨body, hi⟩ := exec_of_gtcDecode hw s
    exact gtcStep_not_guarded hi h hg hc
  case ends =>
    intro s t g o f k a th st hst
    refine ⟨fun h hg => ⟨?finish, ?refused⟩, fun h hg => ⟨fun hk => ?halt, ?haltZero⟩, fun h hg => ?bar⟩
    case finish =>
      rintro rfl hok
      have := gtcStep_of_stands (i := .done t g o) rfl h hg
      simp only [← hst, Nat.sub_self] at this
      rwa [if_neg (by rcases hok with rfl | rfl <;> decide)] at this
    case refused =>
      intro hbad hk
      refine gtcStep_exc (i := .done t g o) rfl h hg ?_
      simp only [← hst]
      refine if_pos ?_
      obtain ht | ⟨h0, h7⟩ := hbad
      · simp [show t - k ≠ 0 by omega]
      · simp [h0, h7]
    case halt =>
      have := gtcStep_of_stands (i := .halt t g) rfl h hg
      rwa [if_neg (show ¬ t - k = 0 by omega)] at this
    case haltZero =>
      rintro rfl
      have := gtcStep_exc (i := .halt t g) rfl h hg (if_pos (Nat.sub_self t))
      rwa [Nat.sub_self] at this
    case bar => exact gtcStep_of_stands (i := .bar t g) rfl h hg

/-! ## Integer results -/

theorem bitLen_eq {x r : Nat} (h1 : 2 ^ r ≤ x) (h2 : x < 2 ^ (r + 1)) : bitLen x = r + 1 := by
  have h0 : x ≠ 0 := (Nat.lt_of_lt_of_le (Nat.two_pow_pos r) h1).ne'
  rw [bitLen, if_neg h0, (Nat.log2_eq_iff h0).2 ⟨h1, h2⟩]

/-- The first 1 bit is the number of trailing zeros. -/
theorem ctz64_eq {x r : Nat} (hr : r < 64) (h1 : x.testBit r = true) (h0 : ∀ n < r, x.testBit n = false) : ctz64 x = r := by
  have hfind : (List.range 64).find? (fun i => x.testBit i) = some r :=
    List.find?_range_eq_some.2 ⟨h1, List.mem_range.2 hr, fun n hn => by rw [h0 n hn]; rfl⟩
  rw [ctz64, hfind]; rfl

theorem popCount_eq (w v : Nat) : popCount w v = ((List.range w).filter (fun n => v.testBit n)).length := by
  induction w generalizing v with
  | zero => rfl
  | succ w ih =>
    have hshift : ((List.range w).map (· + 1)).filter (fun n => v.testBit n) = ((List.range w).filter (fun n => (v / 2).testBit n)).map (· + 1) := by
      rw [List.filter_map]
      simp only [Function.comp_def, Nat.testBit_add_one]
    rw [popCount, ih, List.range_succ_eq_map, List.filter_cons]
    simp only [hshift, Nat.testBit_zero]
    rcases Nat.mod_two_eq_zero_or_one v with h | h <;> simp [h, Nat.add_comm]

/-- The quotient and remainder of the one division that overflows (R325). -/
theorem overflowing_division : BitVec.ofInt 64 ((BitVec.ofInt 64 (-2 ^ 63)).toInt.tdiv (BitVec.ofInt 64 (-1)).toInt) = BitVec.ofInt 64 (-2 ^ 63) ∧
    BitVec.ofInt 64 ((BitVec.ofInt 64 (-2 ^ 63)).toInt.tmod (BitVec.ofInt 64 (-1)).toInt) = 0 := by decide

/-- An instruction that writes one scalar register. -/
theorem gtcStep_setSr {s : State} {t n : Nat} {i : Instr} {g : Guard} {f k : Nat} {a : Attempt} {th : Thread} {body : Cx → Eff} {v r : Word}
    (hi : exec i s = gtcStep t i g body s) (h : s.Ready t i g f k a th) (hb : body ⟨s.dev, f, a, t - k, th⟩ = .retire (th.setSr n v)) (hv : v = r) :
    Becomes i s (s.dev.retired t k a (th.setSr n r) (th.pc + 4)) := hv ▸ gtcStep_retire hi h hb

theorem eq_of_toInt_min {x y r : Word} (h : r.toInt = min x.toInt y.toInt) : (if x.toInt ≤ y.toInt then x else y) = r :=
  BitVec.eq_of_toInt_eq (by split <;> omega)

theorem eq_of_toInt_max {x y r : Word} (h : r.toInt = max x.toInt y.toInt) : (if x.toInt ≤ y.toInt then y else x) = r :=
  BitVec.eq_of_toInt_eq (by split <;> omega)

theorem eq_of_toNat_min {x y r : Word} (h : r.toNat = min x.toNat y.toNat) : (if x.toNat ≤ y.toNat then x else y) = r :=
  BitVec.eq_of_toNat_eq (by split <;> omega)

theorem eq_of_toNat_max {x y r : Word} (h : r.toNat = max x.toNat y.toNat) : (if x.toNat ≤ y.toNat then y else x) = r :=
  BitVec.eq_of_toNat_eq (by split <;> omega)

theorem ofNat_eq_of_toNat {n : Nat} {r : Word} (h : r.toNat = n) : BitVec.ofNat 64 n = r := by
  rw [← h, BitVec.ofNat_toNat, BitVec.setWidth_eq]

/-- Leading zeros, from the place of the highest 1 bit. -/
theorem clz_eq {x r : Word} (hr : r.toNat < 64) (h1 : 2 ^ (63 - r.toNat) ≤ x.toNat) (h2 : x.toNat < 2 ^ (64 - r.toNat)) :
    BitVec.ofNat 64 (64 - bitLen x.toNat) = r := by
  rw [bitLen_eq h1 (by rwa [show 63 - r.toNat + 1 = 64 - r.toNat by omega])]
  exact BitVec.eq_of_toNat_eq (by rw [BitVec.toNat_ofNat]; omega)

theorem ofNat_ctz64_eq {x r : Word} (h1 : x.getLsbD r.toNat = true) (h0 : ∀ n, n < r.toNat → x.getLsbD n = false) :
    BitVec.ofNat 64 (ctz64 x.toNat) = r := by
  rw [ctz64_eq (BitVec.lt_of_getLsbD h1) h1 h0, ofNat_eq_of_toNat rfl]

/-- Settles O34: one arm of `alu0`, `alu1`, `alu2` or `shiftImm` for each FN. -/
theorem gtcIntegers : Obligations.GtcIntegers := by
  refine ⟨?registers, ?immediates⟩
  case registers =>
    rintro s t g o f k a th x y r rfl rfl
    refine ⟨fun h hr => gtcStep_setSr rfl h rfl ?alu0, fun h hr => gtcStep_setSr rfl h rfl ?alu1, fun h hr => gtcStep_setSr rfl h rfl ?alu2⟩
    case alu0 => rcases hr with ⟨hf, rfl⟩ | ⟨hf, rfl⟩ | ⟨hf, rfl⟩ | ⟨hf, rfl⟩ | ⟨hf, rfl⟩ | ⟨hf, rfl⟩ | ⟨hf, rfl⟩ | ⟨hf, rfl⟩ <;> rw [hf] <;> rfl
    case alu1 =>
      dsimp only
      rcases hr with ⟨hf, rfl⟩ | ⟨hf, rfl⟩ | ⟨hf, rfl⟩ | ⟨hf, hy, rfl⟩ | ⟨hf, hy, rfl⟩ | ⟨hf, hx, hy, rfl⟩ | ⟨hf, hy, hr⟩ | ⟨hf, hy, rfl⟩ | ⟨hf, hy, rfl⟩ |
        ⟨hf, hy, rfl⟩ | ⟨hf, hx, hy, rfl⟩ | ⟨hf, hy, hr⟩ | ⟨hf, hy, rfl⟩ <;> rw [hf]
      · rfl
      · rfl
      · rfl
      · exact if_neg hy
      · exact if_pos hy
      · rw [hx, hy]; exact overflowing_division.1
      · exact (if_neg hy).trans (ofNat_eq_of_toNat hr)
      · exact if_pos hy
      · exact if_neg hy
      · exact if_pos hy
      · rw [hx, hy]; exact overflowing_division.2
      · exact (if_neg hy).trans (ofNat_eq_of_toNat hr)
      · exact if_pos hy
    case alu2 =>
      dsimp only
      rcases hr with ⟨hf, -, hm⟩ | ⟨hf, -, hm⟩ | ⟨hf, hm⟩ | ⟨hf, hm⟩ | ⟨hf, -, h1, h2, hr⟩ | ⟨hf, hx, rfl⟩ | ⟨hf, h1, h0⟩ | ⟨hf, hx, rfl⟩ | ⟨hf, hr⟩ <;>
        rw [hf]
      · exact eq_of_toInt_min hm
      · exact eq_of_toInt_max hm
      · exact eq_of_toNat_min hm
      · exact eq_of_toNat_max hm
      · exact clz_eq hr h1 h2
      · rw [hx]; rfl
      · exact ofNat_ctz64_eq h1 h0
      · rw [hx]; rfl
      · exact ofNat_eq_of_toNat (hr.trans (popCount_eq 64 _).symm)
  case immediates =>
    rintro s t g o u f k a th x m rfl rfl
    refine ⟨fun h => gtcStep_setSr rfl h rfl rfl, fun h => gtcStep_setSr rfl h rfl rfl, fun h => gtcStep_setSr rfl h rfl rfl,
      fun h => gtcStep_setSr rfl h rfl rfl, fun h r hr => gtcStep_setSr rfl h rfl ?shift, fun h => gtcStep_setSr rfl h rfl rfl,
      fun h => gtcStep_setSr rfl h rfl rfl⟩
    case shift => rcases hr with ⟨hk, rfl⟩ | ⟨hk, rfl⟩ | ⟨hk, rfl⟩ <;> simp only [shiftImm, hk]

end Sys2Proof.Machine
end

section
/-! SUPPORT. GTC instructions on predicates, special registers, floating values, vector lanes and tiles (R322 to R326, R330 to R332). -/

namespace Sys2Proof.Machine

/-! ## Predicates, special registers and floating values -/

/-- An instruction that retires with registers equal to `y`. -/
theorem gtcStep_retire_eq {s : State} {t : Nat} {i : Instr} {g : Guard} {f k : Nat} {a : Attempt} {th x y : Thread} {body : Cx → Eff}
    (hi : exec i s = gtcStep t i g body s) (h : s.Ready t i g f k a th) (hb : body ⟨s.dev, f, a, t - k, th⟩ = .retire x) (hx : x = y) :
    Becomes i s (s.dev.retired t k a y (th.pc + 4)) := hx ▸ gtcStep_retire hi h hb

theorem decide_eq_of_iff {r : Bool} {p : Prop} [Decidable p] (h : r = true ↔ p) : decide p = r :=
  Bool.eq_iff_iff.2 (decide_eq_true_iff.trans h.symm)

/-- The relation of CMP, by its FN (R324). -/
theorem cmpRel_eq {fn : BitVec 3} {x y : Word} {r : Bool}
    (h : fn = 0 ∧ (r = true ↔ x = y) ∨ fn = 1 ∧ (r = true ↔ x ≠ y) ∨ fn = 2 ∧ (r = true ↔ x.toInt < y.toInt) ∨
      fn = 3 ∧ (r = true ↔ y.toInt ≤ x.toInt) ∨ fn = 4 ∧ (r = true ↔ x.toNat < y.toNat) ∨ fn = 5 ∧ (r = true ↔ y.toNat ≤ x.toNat)) :
    cmpRel fn.toNat x y = r := by
  rcases h with ⟨rfl, hr⟩ | ⟨rfl, hr⟩ | ⟨rfl, hr⟩ | ⟨rfl, hr⟩ | ⟨rfl, hr⟩ | ⟨rfl, hr⟩
  · exact Bool.eq_iff_iff.2 (beq_iff_eq.trans hr.symm)
  · exact Bool.eq_iff_iff.2 (bne_iff_ne.trans hr.symm)
  all_goals exact decide_eq_of_iff hr

/-- A relation with a NaN: EQ is false, LT and LE are false and INVALID, UNORD is true (R325). -/
theorem floatRel_nan {m : Fmt} {x y : Nat} (h : (decode m x).isNan = true ∨ (decode m y).isNan = true) :
    (floatRel m 0 x y).val = false ∧ floatRel m 1 x y = ⟨false, flInvalid⟩ ∧ floatRel m 2 x y = ⟨false, flInvalid⟩ ∧ (floatRel m 3 x y).val = true := by
  have hn : ((decode m x).isNan || (decode m y).isNan) = true := by simpa using h
  simp [floatRel, hn]

/-- One draw is in range when its number lies in the stage's 2^32 draws (R326). -/
theorem Cx.drawsOk_one (c : Cx) (i : Nat) : c.drawsOk i 1 = true ↔ c.drawBase ≤ i ∧ i ≤ c.drawBase + 0xFFFFFFFF := by
  simp only [Cx.drawsOk, Bool.and_eq_true, decide_eq_true_eq]
  omega

/-- The format of an FCMP, by its FN (R325). -/
theorem fcmp_fmt {fn : BitVec 3} {m : Fmt} (h : fn.toNat < 4 ∧ m = fp32 ∨ 4 ≤ fn.toNat ∧ m = fp64) : (if fn.toNat < 4 then fp32 else fp64) = m := by
  rcases h with ⟨hf, rfl⟩ | ⟨hf, rfl⟩
  · exact if_pos hf
  · exact if_neg (by omega)

/-- FCVT without stochastic rounding (R325). -/
theorem Cx.fcvt_eq {c : Cx} {o : FmtC} {m n : Fmt} (hm : fmtOf o.src.toNat = some m) (hn : fmtOf o.dst.toNat = some n) (hs : o.sr = false) :
    c.fcvt o = .retire ((c.th.setSr o.d.toNat (scalarOf n (convertBits n m ((c.th.sr o.a.toNat).toNat % 2 ^ m.width)).val)).raiseFlags
      (convertBits n m ((c.th.sr o.a.toNat).toNat % 2 ^ m.width)).fl) := by
  simp only [Cx.fcvt, hm, hn, hs, Cx.withRandom, convertEl, Bool.not_false, if_true]

/-- VCVT without stochastic rounding (R331). -/
theorem Cx.vcvt_eq {c : Cx} {o : FmtC} {n p : Fmt} {r : Num (List Nat)} (hn : fmtOf o.src.toNat = some n) (hp : fmtOf o.dst.toNat = some p) (hs : o.sr = false)
    (hr : r = joinNums ((List.range (vcvtCount p n)).map (fun j => convertBits p n (elemAt n (vbytes (c.th.vr o.a.toNat)) j)))) :
    c.vcvt o = .retire ((c.th.setVr o.d.toNat (unle (packRow p r.val))).raiseFlags r.fl) := by
  simp only [Cx.vcvt, hn, hp, hs, hr, Cx.withRandom, convertEl, Bool.not_false, if_true]

/-- The operation of FP32 and FP64, by its FN (R324, R325). -/
theorem floatOp_eq {m : Fmt} {fn : BitVec 3} {x y z : Nat} {r : Num Nat}
    (h : fn = 0 ∧ r = addF m x y ∨ fn = 1 ∧ r = subF m x y ∨ fn = 2 ∧ r = mulF m x y ∨ fn = 3 ∧ r = fmaF m x y z ∨
      fn = 4 ∧ r = minMaxF m false x y ∨ fn = 5 ∧ r = minMaxF m true x y ∨ fn = 6 ∧ r = divF m x y ∨ fn = 7 ∧ r = sqrtF m x) :
    floatOp m fn.toNat x y z = r := by
  rcases h with ⟨rfl, rfl⟩ | ⟨rfl, rfl⟩ | ⟨rfl, rfl⟩ | ⟨rfl, rfl⟩ | ⟨rfl, rfl⟩ | ⟨rfl, rfl⟩ | ⟨rfl, rfl⟩ | ⟨rfl, rfl⟩ <;> rfl

/-- Settles O35: one arm of `cmpRel`, `predLogic`, `special`, `floatOp` or `floatRel` for each FN. -/
theorem gtcPredicatesAndFloats : Obligations.GtcPredicatesAndFloats := by
  refine ⟨?scalars, ?floats⟩
  case scalars =>
    rintro s t g o i f k a th x y c rfl rfl -
    refine ⟨fun h r hr => ?cmp, fun h r p q hp hq hr => ?plog, ⟨rfl, rfl, rfl⟩, fun h v hv => ?srd, fun h => ⟨fun hi => ?flags, fun hi => ?drawptr⟩,
      fun h => ⟨fun hx => ?draw, fun hx => ?noDraw⟩⟩
    case cmp => exact gtcStep_retire_eq (i := .cmp t g o) rfl h rfl (by rw [cmpRel_eq hr])
    case plog =>
      refine gtcStep_retire_eq (i := .plog t g o) rfl h rfl (congrArg _ ?_)
      subst hp hq
      rcases hr with ⟨hf, rfl⟩ | ⟨hf, rfl⟩ | ⟨hf, rfl⟩ | ⟨hf, rfl⟩ | ⟨hf, rfl⟩ | ⟨hf, rfl⟩ <;> rw [hf] <;> rfl
    case srd =>
      refine gtcStep_retire_eq (i := .srd t g i) rfl h rfl (congrArg _ ?_)
      rcases hv with ⟨hf, rfl⟩ | ⟨hf, rfl⟩ | ⟨hf, rfl⟩ | ⟨hf, rfl⟩ | ⟨hf, rfl⟩ | ⟨hf, rfl⟩ | ⟨hf, rfl⟩ | ⟨hf, rfl⟩ <;> rw [hf] <;> rfl
    case flags => exact gtcStep_retire_eq (i := .swr t g i) rfl h rfl (if_pos hi)
    case drawptr => exact gtcStep_retire_eq (i := .swr t g i) rfl h rfl (if_neg (by rw [hi]; decide))
    case draw => exact gtcStep_retire (i := .draw t g o) rfl h (if_pos ((Cx.drawsOk_one _ _).2 hx))
    case noDraw =>
      refine gtcStep_exc (i := .draw t g o) rfl h.1 h.2.1 (if_neg fun hd => ?_)
      have := (Cx.drawsOk_one _ _).1 hd
      dsimp only [Cx.drawBase, Cx.cfg] at this
      omega
  case floats =>
    intro s t g o c f k a th
    refine ⟨?fp32, ?fp64, ?fcmp, ?fcvt, fun m x y => floatRel_nan⟩
    case fp32 =>
      rintro h x y z r rfl rfl rfl hr
      exact gtcStep_retire_eq (i := .fp32 t g o) rfl h rfl (by rw [floatOp_eq hr]; rfl)
    case fp64 =>
      rintro h x y z r rfl rfl rfl hr
      exact gtcStep_retire_eq (i := .fp64 t g o) rfl h rfl (by rw [floatOp_eq hr]; rfl)
    case fcmp =>
      rintro h m x y r hm rfl rfl rfl
      exact gtcStep_retire_eq (i := .fcmp t g o) rfl h rfl (by dsimp only; rw [fcmp_fmt hm])
    case fcvt =>
      rintro h m n r hm hn hs rfl
      exact gtcStep_retire (i := .fcvt t g c) rfl h (Cx.fcvt_eq hm hn hs)

/-! ## Vector lanes -/

theorem joinNums_map {α : Type} (l : List α) (v : α → Nat) (fl : α → Nat) :
    joinNums (l.map (fun x => ⟨v x, fl x⟩)) = ⟨l.map v, l.foldl (fun n x => n ||| fl x) 0⟩ := by
  simp only [joinNums, List.map_map, List.foldl_map, Function.comp_def]

/-- Broadcasts: the number of lanes of a register (R331). -/
theorem lanes_per_register (n : Nat) : 1024 / (8 * 2 ^ n) = 128 / 2 ^ n := by
  rw [← Nat.div_div_eq_div_mul]

/-- VMOVE, by its FN (R331). -/
theorem Cx.vmove_eq {c : Cx} {m : FmtR} {x : Thread} {n : Nat} (hn : n = (c.th.sr m.b.toNat).toNat)
    (h : m.fn.toNat < 4 ∧ x = c.th.setVr m.d.toNat (unlanes (8 * 2 ^ m.fn.toNat) (List.replicate (128 / 2 ^ m.fn.toNat)
            ((c.th.sr m.a.toNat).toNat % 2 ^ (8 * 2 ^ m.fn.toNat)))) ∨
          m.fn = 4 ∧ x = c.th.setNat m.d.toNat ((lanes 64 (c.th.vr m.a.toNat)).getD (n % 16) 0) ∨
          m.fn = 5 ∧ x = c.th.setVr m.d.toNat (unlanes 64 (setNth (lanes 64 (c.th.vr m.d.toNat)) (n % 16) (c.th.sr m.a.toNat).toNat)) ∨
          m.fn = 6 ∧ x = c.th.setVr m.d.toNat (unle (((vbytes (c.th.vr m.a.toNat) ++ vbytes (c.th.vr m.d.toNat)).drop (n % 128)).take 128)) ∨
          m.fn = 7 ∧ x = c.th.setVr m.d.toNat (c.th.vr m.a.toNat)) :
    c.vmove m = .retire x := by
  subst hn
  rcases h with ⟨hf, rfl⟩ | ⟨hf, rfl⟩ | ⟨hf, rfl⟩ | ⟨hf, rfl⟩ | ⟨hf, rfl⟩
  · unfold Cx.vmove
    rw [← lanes_per_register m.fn.toNat]
    split
    case h_5 => rfl
    all_goals omega
  all_goals unfold Cx.vmove; rw [hf]; rfl

/-! ## Tiles -/

/-- An empty tensor makes a tile instruction retire without effect (R316, R332). -/
theorem Cx.withTensor_empty {c : Cx} {l : Nat} {b : Bytes} {k : Tensor → Eff} (ha : l % 64 = 0) (hm : l % 2 ^ 52 < mediaBase)
    (hb : c.load l 64 = .data b) (hst : c.tensorSt (tensorOf b) false = (0, 0)) (h0 : (tensorOf b).dims.any (· == 0) = true) :
    c.withTensor l false k = .retire c.th := by
  unfold Cx.withTensor
  rw [if_neg (not_not.2 ha), if_neg (fun h => absurd h.2 (by omega)), Cx.withBytes, hb]
  dsimp only
  rw [hst]
  exact (if_neg (not_not.2 rfl)).trans (if_pos h0)

theorem all_isLocal {d : Dev} {ws : List (Nat × Bytes)} (h : ∀ p ∈ ws, d.isLocal p.1 = true) : ws.all (fun w => d.isLocal w.1) = true :=
  List.all_eq_true.2 h

/-- An instruction whose stores are all local carries them out and retires. -/
theorem gtcStep_store {s : State} {t : Nat} {i : Instr} {g : Guard} {f k : Nat} {a : Attempt} {th x : Thread} {body : Cx → Eff} {ws : List (Nat × Bytes)}
    (hi : exec i s = gtcStep t i g body s) (h : s.Stands t i f k a th) (hg : th.Guarded g) (hb : body ⟨s.dev, f, a, t - k, th⟩ = .store x ws)
    (hl : ∀ p ∈ ws, s.dev.isLocal p.1 = true) (hc : (s.dev.thrStores ws).inCode f a.q (th.pc + 4) = true) :
    Becomes i s ((s.dev.thrStores ws).retired t k a x (th.pc + 4)) := by
  have := gtcStep_of_stands hi h hg
  rw [hb] at this
  simpa only [Dev.thrDo, all_isLocal hl, if_true, Dev.thrGoOn_of_inCode hc] using this

/-- Settles O36: the vector forms are their lane functions, the tile forms what their descriptors compute. -/
theorem gtcVectorsAndTiles : Obligations.GtcVectorsAndTiles := by
  refine ⟨?vectors, ?tiles⟩
  case vectors =>
    rintro s t g o c m f k a th w rfl
    refine ⟨?varith, ?vlogic, ?vcmp, ?vred, ?vcvt, ?vmove⟩
    case varith =>
      rintro h r rfl
      exact gtcStep_retire (i := .varith t g o) rfl h rfl
    case vlogic => exact fun h => gtcStep_retire (i := .vlogic t g o) rfl h rfl
    case vcmp =>
      rintro h r rfl
      refine gtcStep_retire_eq (i := .vcmp t g o) rfl h rfl ?_
      rw [joinNums_map, List.map_map, List.foldl_map]
      rfl
    case vred =>
      rintro h r rfl
      exact gtcStep_retire (i := .vred t g o) rfl h rfl
    case vcvt =>
      rintro h n p r hn hp hs hr
      exact gtcStep_retire (i := .vcvt t g c) rfl h (Cx.vcvt_eq hn hp hs hr)
    case vmove => exact fun h x n hn hx => gtcStep_retire (i := .vmove t g m) rfl h (Cx.vmove_eq hn hx)
  case tiles =>
    rintro s t g o f k a th x c rfl
    refine ⟨fun h => gtcStep_retire (i := .tzero t g o) rfl h rfl, fun h hx => gtcStep_retire (i := .tload t g o) rfl h hx,
      fun h hx => gtcStep_retire (i := .tmma t g o) rfl h hx, fun h ws hx hl hc => gtcStep_store (i := .tstore t g o) rfl h.1 h.2.1 hx hl hc, ?empty⟩
    case empty => exact fun b ha _ hm hb hst h0 => ⟨Cx.withTensor_empty ha hm hb hst h0, Cx.withTensor_empty ha hm hb hst h0⟩

end Sys2Proof.Machine
end

section
/-! SUPPORT. GTC loads, stores, atomic operations, branches and waits (R312 to R314, R322, R324, R327 to R329, R333 to R335). -/

namespace Sys2Proof.Machine

/-! ## Loads and stores -/

theorem length_le (n v : Nat) : (le n v).length = n := by
  induction n generalizing v with
  | zero => rfl
  | succ n ih => exact congrArg (· + 1) (ih _)

theorem Dev.write_read_apart {d : Dev} {a n y m : Nat} {b : Bytes} (hb : b.length = n) (hw : Mem.wf d.mem = true) (h : y + m ≤ a ∨ a + n ≤ y) :
    (d.write a b).read y m = d.read y m := Dev.read_write_apart hw (by rwa [hb])

/-- A read of local memory outside the media window gives the bytes there (R327). -/
theorem Cx.load_local {c : Cx} {l n : Nat} (hl : c.d.isLocal l = true) (hm : l % 2 ^ 52 < mediaBase) (ha : c.access (l % 2 ^ 52) n 0 = St.ok) :
    c.load l n = .data (c.d.read (l % 2 ^ 52) n) := by
  unfold Cx.load
  simp only [hl, ha, Bool.not_true, Bool.false_eq_true, if_false]
  rw [if_neg (fun h : St.ok ≠ 0 => h rfl), if_neg (by omega)]

theorem Cx.withBytes_local {c : Cx} {l n : Nat} (hl : c.d.isLocal l = true) (hm : l % 2 ^ 52 < mediaBase) (ha : c.access (l % 2 ^ 52) n 0 = St.ok)
    (k : Bytes → Eff) : c.withBytes l n k = k (c.d.read (l % 2 ^ 52) n) := by
  rw [Cx.withBytes, Cx.load_local hl hm ha]

/-- A load of the bytes of local memory, zero-extended. -/
theorem Cx.loadOp_unsigned {c : Cx} {o : FmtI} {n l : Nat} (hla : l = c.th.memAddr o n) (h0 : l % n = 0) (hl : c.d.isLocal l = true)
    (hm : l % 2 ^ 52 < mediaBase) (ha : c.access (l % 2 ^ 52) n 0 = St.ok) :
    c.loadOp o n false = .retire (c.th.setNat o.d.toNat (c.d.readLe (l % 2 ^ 52) n)) := by
  subst hla
  rw [Cx.loadOp, if_neg (not_not.2 h0), Cx.withBytes_local hl hm ha]
  rfl

/-- A load of the bytes of local memory, sign-extended. -/
theorem Cx.loadOp_signed {c : Cx} {o : FmtI} {n l : Nat} (hla : l = c.th.memAddr o n) (h0 : l % n = 0) (hl : c.d.isLocal l = true)
    (hm : l % 2 ^ 52 < mediaBase) (ha : c.access (l % 2 ^ 52) n 0 = St.ok) :
    c.loadOp o n true = .retire (c.th.setSr o.d.toNat (BitVec.ofInt 64 (sext (8 * n) (c.d.readLe (l % 2 ^ 52) n)))) := by
  subst hla
  rw [Cx.loadOp, if_neg (not_not.2 h0), Cx.withBytes_local hl hm ha]
  rfl

theorem Cx.vldOp_eq {c : Cx} {o : FmtI} {l : Nat} (hla : l = c.th.memAddr o 128) (h0 : l % 128 = 0) (hl : c.d.isLocal l = true)
    (hm : l % 2 ^ 52 < mediaBase) (ha : c.access (l % 2 ^ 52) 128 0 = St.ok) :
    c.vldOp o = .retire (c.th.setVr o.d.toNat (c.d.readLe (l % 2 ^ 52) 128)) := by
  subst hla
  rw [Cx.vldOp, if_neg (not_not.2 h0), Cx.withBytes_local hl hm ha]
  rfl

/-- The status of a store to local memory is that of its access. -/
theorem Cx.storeSt_local {c : Cx} {l n : Nat} (hl : c.d.isLocal l = true) (ha : c.access (l % 2 ^ 52) n 1 = St.ok) : c.storeSt l n = 0 := by
  rw [Cx.storeSt, hl, if_pos rfl, ha]; rfl

theorem Cx.storeOp_eq {c : Cx} {o : FmtI} {n l : Nat} (hla : l = c.th.memAddr o n) (h0 : l % n = 0) (hl : c.d.isLocal l = true)
    (ha : c.access (l % 2 ^ 52) n 1 = St.ok) : c.storeOp o n = .store c.th [(l, le n (c.th.sr o.d.toNat).toNat)] := by
  subst hla
  rw [Cx.storeOp, if_neg (not_not.2 h0), Cx.storeSt_local hl ha]
  rfl

theorem Cx.vstOp_eq {c : Cx} {o : FmtI} {l : Nat} (hla : l = c.th.memAddr o 128) (h0 : l % 128 = 0) (hl : c.d.isLocal l = true)
    (ha : c.access (l % 2 ^ 52) 128 1 = St.ok) : c.vstOp o = .store c.th [(l, le 128 (c.th.vr o.d.toNat))] := by
  subst hla
  rw [Cx.vstOp, if_neg (not_not.2 h0), Cx.storeSt_local hl ha]
  rfl

/-- One store to local memory is one write. -/
theorem Dev.thrStores_one {d : Dev} {l : Nat} {b : Bytes} (hl : d.isLocal l = true) : d.thrStores [(l, b)] = d.write (l % 2 ^ 52) b := if_pos hl

/-- An instruction with one store to local memory writes it and retires. -/
theorem gtcStep_store_one {s : State} {t l : Nat} {i : Instr} {g : Guard} {f k : Nat} {a : Attempt} {th : Thread} {body : Cx → Eff} {b : Bytes}
    (hi : exec i s = gtcStep t i g body s) (h : s.Ready t i g f k a th) (hb : body ⟨s.dev, f, a, t - k, th⟩ = .store th [(l, b)])
    (hl : s.dev.isLocal l = true) (hc : (s.dev.write (l % 2 ^ 52) b).inCode f a.q (th.pc + 4) = true) :
    Becomes i s ((s.dev.write (l % 2 ^ 52) b).retired t k a th (th.pc + 4)) := by
  have := gtcStep_store hi h.1 h.2.1 hb (List.forall_mem_singleton.2 hl)
  rw [Dev.thrStores_one hl] at this
  exact this hc

/-! ## Misaligned accesses (R327) -/

theorem Cx.loadOp_misaligned {c : Cx} {o : FmtI} {n l : Nat} (hla : l = c.th.memAddr o n) (h : l % n ≠ 0) (sign : Bool) :
    c.loadOp o n sign = .exc 0x0106 l := by
  subst hla; exact if_pos h

theorem Cx.storeOp_misaligned {c : Cx} {o : FmtI} {n l : Nat} (hla : l = c.th.memAddr o n) (h : l % n ≠ 0) : c.storeOp o n = .exc 0x0106 l := by
  subst hla; exact if_pos h

theorem Cx.vldOp_misaligned {c : Cx} {o : FmtI} {l : Nat} (hla : l = c.th.memAddr o 128) (h : l % 128 ≠ 0) : c.vldOp o = .exc 0x0106 l := by
  subst hla; exact if_pos h

theorem Cx.vstOp_misaligned {c : Cx} {o : FmtI} {l : Nat} (hla : l = c.th.memAddr o 128) (h : l % 128 ≠ 0) : c.vstOp o = .exc 0x0106 l := by
  subst hla; exact if_pos h

theorem Cx.atomOp_misaligned {c : Cx} {kind aop sz fmt r a l n : Nat} (hn : atomAlign kind sz fmt = n) (hla : l = (c.th.sr a).toNat) (h : l % n ≠ 0) :
    c.atomOp kind aop sz fmt r a = .exc 0x0106 l := by
  subst hla hn; exact if_pos h

/-- The bytes that an ATOM touches, by its SZ (R328). -/
theorem atomSize_atom {sz : BitVec 2} {n : Nat} (h : sz = 0 ∧ n = 4 ∨ sz = 1 ∧ n = 8) : atomSize 0 sz.toNat 0 = n := by
  rcases h with ⟨rfl, rfl⟩ | ⟨rfl, rfl⟩ <;> rfl

/-- The bytes that a FATOM touches, by its SZ (R329). -/
theorem atomSize_fatom {sz : BitVec 2} {n : Nat} (h : sz = 0 ∧ n = 4 ∨ sz ≠ 0 ∧ n = 2) : atomSize 1 sz.toNat 0 = n := by
  rcases h with ⟨rfl, rfl⟩ | ⟨hs, rfl⟩
  · rfl
  · have : ∀ x : BitVec 2, x ≠ 0 → atomSize 1 x.toNat 0 = 2 := by decide
    exact this sz hs

theorem atomAlign_xadd (z : FmtX) : atomAlign 2 0 z.fmt.toNat = if z.fmt = 0x0E then 512 else 64 :=
  if_congr (by rw [← BitVec.toNat_inj]; rfl) rfl rfl

/-- Settles O37: a load is one read of memory, a store one write, and the alignment is checked before anything else. -/
theorem gtcMemory : Obligations.GtcMemory := by
  refine ⟨?loads, ?stores, ?misaligned⟩
  case loads =>
    intro s t g o f k a th n l hla h0 hl hm ha
    refine ⟨?unsigned, ?signed, ?vector⟩
    case unsigned =>
      rintro c (⟨rfl, rfl⟩ | ⟨rfl, rfl⟩ | ⟨rfl, rfl⟩ | ⟨rfl, rfl⟩) h
      all_goals exact gtcStep_retire rfl h (Cx.loadOp_unsigned hla h0 hl hm ha)
    case signed =>
      rintro c (⟨rfl, rfl⟩ | ⟨rfl, rfl⟩ | ⟨rfl, rfl⟩) h
      all_goals exact gtcStep_retire rfl h (Cx.loadOp_signed hla h0 hl hm ha)
    case vector =>
      rintro rfl h
      exact gtcStep_retire (i := .vld t g o) rfl h (Cx.vldOp_eq hla h0 hl hm ha)
  case stores =>
    intro s t g o f k a th n l b c hla h0 hl ha hcn hb h hc
    have hlen : b.length = n := by
      subst hb
      split
      · next h128 => rw [length_le, h128]
      · exact length_le n _
    refine ⟨?_, hlen, fun y m hw hy => Dev.write_read_apart hlen hw hy⟩
    rcases hcn with ⟨rfl, rfl⟩ | ⟨rfl, rfl⟩ | ⟨rfl, rfl⟩ | ⟨rfl, rfl⟩ | ⟨rfl, rfl⟩ <;> subst hb
    case inr.inr.inr.inr => exact gtcStep_store_one rfl h (Cx.vstOp_eq hla h0 hl ha) hl hc
    all_goals exact gtcStep_store_one rfl h (Cx.storeOp_eq hla h0 hl ha) hl hc
  case misaligned =>
    rintro s t g o x z f k a th n l c (⟨hla, h0, hcn⟩ | ⟨rfl, hla, hn⟩ | ⟨rfl, hla, hn⟩ | ⟨rfl, hla, h0⟩) h hg
    · rcases hcn with ⟨rfl, rfl⟩ | ⟨rfl, rfl⟩ | ⟨rfl, rfl⟩ | ⟨rfl, rfl⟩ | ⟨rfl, rfl⟩ | ⟨rfl, rfl⟩ | ⟨rfl, rfl⟩ | ⟨rfl, rfl⟩ | ⟨rfl, rfl⟩ | ⟨rfl, rfl⟩
      iterate 5 exact gtcStep_exc rfl h hg (Cx.loadOp_misaligned hla h0 _)
      iterate 3 exact gtcStep_exc rfl h hg (Cx.storeOp_misaligned hla h0)
      · exact gtcStep_exc rfl h hg (Cx.vldOp_misaligned hla h0)
      · exact gtcStep_exc rfl h hg (Cx.vstOp_misaligned hla h0)
    · obtain ⟨n, hs, h0⟩ : ∃ n, (x.sz = 0 ∧ n = 4 ∨ x.sz = 1 ∧ n = 8) ∧ l % n ≠ 0 := by
        rcases hn with ⟨hs, h0⟩ | ⟨hs, h0⟩
        · exact ⟨4, .inl ⟨hs, rfl⟩, h0⟩
        · exact ⟨8, .inr ⟨hs, rfl⟩, h0⟩
      exact gtcStep_exc (i := .atom t g x) rfl h hg (Cx.atomOp_misaligned (atomSize_atom hs) hla h0)
    · obtain ⟨n, hs, h0⟩ : ∃ n, (x.sz = 0 ∧ n = 4 ∨ x.sz ≠ 0 ∧ n = 2) ∧ l % n ≠ 0 := by
        rcases hn with ⟨hs, h0⟩ | ⟨hs, h0⟩
        · exact ⟨4, .inl ⟨hs, rfl⟩, h0⟩
        · exact ⟨2, .inr ⟨hs, rfl⟩, h0⟩
      exact gtcStep_exc (i := .fatom t g x) rfl h hg (Cx.atomOp_misaligned (atomSize_fatom hs) hla h0)
    · exact gtcStep_exc (i := .xadd t g z) rfl h hg (Cx.atomOp_misaligned (atomAlign_xadd z) hla h0)

/-! ## Atomic operations -/

/-- An atomic on local memory that is aligned, admitted and not forbidden. -/
theorem Cx.atomOp_local {c : Cx} {kind aop sz fmt r a l new : Nat} {dst : Option Nat} (hla : l = (c.th.sr a).toNat) (h0 : l % atomAlign kind sz fmt = 0)
    (hdet : kind = 1 → c.d.det = false) (hl : c.d.isLocal l = true) (ha : c.access (l % 2 ^ 52) (atomSize kind sz fmt) 2 = St.ok)
    (hnew : (if kind = 0 ∧ aop = 7 then (c.th.sr (r + 1)).toNat else 0) = new) (hdst : (if kind = 2 then none else some r) = dst) :
    c.atomOp kind aop sz fmt r a = .atom l kind aop sz fmt (c.th.sr r).toNat new dst := by
  subst hla hnew hdst
  unfold Cx.atomOp
  rw [if_neg (not_not.2 h0), if_neg (fun h => by rw [hdet h.1] at h; exact absurd h.2 (by decide))]
  simp only [hl, ha, if_true]
  exact if_neg (not_not.2 rfl)

/-- The registers after an atomic: the old value, where it names a register for it. -/
def Thread.setOld (th : Thread) (dst : Option Nat) (old : Nat) : Thread :=
  match dst with
  | some r => th.setNat r old
  | none => th

/-- An atomic on local memory is performed and its instruction retires. -/
theorem gtcStep_atom {s : State} {t l : Nat} {i : Instr} {g : Guard} {f k : Nat} {a : Attempt} {th : Thread} {body : Cx → Eff} {d : Dev}
    {kind aop sz fmt opd new old : Nat} {dst : Option Nat} (hi : exec i s = gtcStep t i g body s) (h : s.Ready t i g f k a th)
    (hb : body ⟨s.dev, f, a, t - k, th⟩ = .atom l kind aop sz fmt opd new dst) (hl : s.dev.isLocal l = true)
    (hat : s.dev.atomicAt kind aop sz fmt opd new (l % 2 ^ 52) = (old, d)) (hc : d.inCode f a.q (th.pc + 4) = true) :
    Becomes i s (d.retired t k a (th.setOld dst old) (th.pc + 4)) := by
  have := gtcStep_of_stands hi h.1 h.2.1
  rw [hb] at this
  simp only [Dev.thrDo, hl, if_true, hat] at this
  exact Dev.thrGoOn_of_inCode (th := th.setOld dst old) hc ▸ this

/-- An integer atomic returns the old word and stores what its AOP makes of it (R312, R328). -/
theorem atomicAt_integer (d : Dev) (l opd new : Nat) {sz n : Nat} (hn : atomSize 0 sz 0 = n) (aop : Nat) :
    d.atomicAt 0 aop sz 0 opd new l = (d.readLe l n, d.write l (le n (atomNew (8 * n) aop (d.readLe l n) opd new))) := by subst hn; rfl

/-- Settles O38: the three instructions are their atomics, and `atomNew` has one arm for each AOP. -/
theorem gtcAtomicOperations : Obligations.GtcAtomicOperations := by
  refine ⟨fun s t g o z f k a th l old d hl hc => ⟨?atom, ?fatom, ?xadd⟩, ?values⟩
  case atom =>
    intro hla hs ha hat h
    have hsz : atomSize 0 o.sz.toNat 0 = 4 * 2 ^ o.sz.toNat := by rcases hs with ⟨hs, _⟩ | ⟨hs, _⟩ <;> rw [hs] <;> rfl
    have h0 : l % atomAlign 0 o.sz.toNat 0 = 0 := by rcases hs with ⟨hs, h0⟩ | ⟨hs, h0⟩ <;> rw [hs] <;> exact h0
    have haop : ((0 : Nat) = 0 ∧ o.aop.toNat = 7) ↔ o.aop = 7 := by rw [← BitVec.toNat_inj]; exact ⟨And.right, And.intro rfl⟩
    exact gtcStep_atom (i := .atom t g o) (dst := some o.d.toNat) (old := old) rfl h (Cx.atomOp_local hla h0 nofun hl (by rwa [hsz]) (if_congr haop rfl rfl) (if_neg (by decide))) hl hat hc
  case fatom =>
    intro hla hs hdet ha hat h
    have hsz : atomSize 1 o.sz.toNat 0 = if o.sz = 0 then 4 else 2 := by
      split
      · next h0 => exact atomSize_fatom (.inl ⟨h0, rfl⟩)
      · next h0 => exact atomSize_fatom (.inr ⟨h0, rfl⟩)
    have h0 : l % atomAlign 1 o.sz.toNat 0 = 0 := by
      rcases hs with ⟨hs, h0⟩ | ⟨hs, h0⟩
      · rw [hs]; exact h0
      · rwa [show atomAlign 1 o.sz.toNat 0 = 2 from atomSize_fatom (.inr ⟨hs, rfl⟩)]
    exact gtcStep_atom (i := .fatom t g o) (dst := some o.d.toNat) (old := old) rfl h (Cx.atomOp_local hla h0 (fun _ => hdet) hl (by rwa [hsz]) (if_neg fun h => absurd h.1 (by decide))
      (if_neg (by decide))) hl hat hc
  case xadd =>
    intro hla h0 ha hat h
    exact gtcStep_atom (i := .xadd t g z) (dst := none) (old := old) rfl h (Cx.atomOp_local hla (by rwa [atomAlign_xadd]) nofun hl ha (if_neg fun h => absurd h.1 (by decide))
      (if_pos rfl)) hl hat hc
  case values =>
    rintro d sz l opd new n old x hn rfl rfl
    have hat := atomicAt_integer d l opd new (sz := sz) (n := n) (by rcases hn with ⟨rfl, rfl⟩ | ⟨rfl, rfl⟩ <;> rfl)
    exact ⟨hat 0, hat 1, hat 2, hat 3, hat 4, hat 5, hat 6, fun h => (hat 7).trans (congrArg (fun v => (_, d.write l (le n v))) (if_pos h)),
      fun h => (hat 7).trans (congrArg (fun v => (_, d.write l (le n v))) (if_neg h))⟩

/-! ## Branches and waits -/

/-- An instruction that branches to a word of its kernel. -/
theorem gtcStep_jump {s : State} {t x : Nat} {i : Instr} {g : Guard} {f k : Nat} {a : Attempt} {th y : Thread} {body : Cx → Eff}
    (hi : exec i s = gtcStep t i g body s) (h : s.Stands t i f k a th) (hg : th.Guarded g) (hb : body ⟨s.dev, f, a, t - k, th⟩ = .jump y x)
    (hc : s.dev.inCode f a.q x = true) : Becomes i s (s.dev.retired t k a y x) := by
  have := gtcStep_of_stands hi h hg
  rw [hb] at this
  simpa only [Dev.thrDo, Dev.thrGoOn_of_inCode hc] using this

/-- The target of a branch, from its distance in words (R335). -/
theorem Cx.target_eq {c : Cx} {o : FmtB} {x : Nat} (h : (x : Int) = c.th.pc + 4 * o.imm.toInt) : c.target o = x := by
  rw [Cx.target, ← h, Int.toNat_natCast]

/-- A WAIT whose relation holds retires (R334). -/
theorem waitRel_holds {fn : BitVec 3} {v y : Nat} (h : fn = 0 ∧ v = y ∨ fn = 1 ∧ v ≠ y ∨ fn = 2 ∧ y ≤ v ∨ fn = 3 ∧ v < y) :
    waitRel fn.toNat v y = true := by
  rcases h with ⟨rfl, h⟩ | ⟨rfl, h⟩ | ⟨rfl, h⟩ | ⟨rfl, h⟩
  · exact beq_iff_eq.2 h
  · exact bne_iff_ne.2 h
  all_goals exact decide_eq_true h

theorem waitRel_fails {fn : BitVec 3} {v y : Nat} (h : fn = 0 ∧ v ≠ y ∨ fn = 1 ∧ v = y ∨ fn = 2 ∧ v < y ∨ fn = 3 ∧ y ≤ v) :
    waitRel fn.toNat v y = false := by
  rcases h with ⟨rfl, h⟩ | ⟨rfl, h⟩ | ⟨rfl, h⟩ | ⟨rfl, h⟩
  · exact beq_eq_false_iff_ne.2 h
  · exact bne_eq_false_iff_eq.2 h
  all_goals exact decide_eq_false (by omega)

/-- A WAIT on a word of local memory tests its relation (R334). -/
theorem Cx.waitOp_local {c : Cx} {o : FmtR} {l v : Nat} (hla : l = (c.th.sr o.a.toNat).toNat) (h0 : l % 8 = 0) (hl : c.d.isLocal l = true)
    (hm : l % 2 ^ 52 < mediaBase) (ha : c.access (l % 2 ^ 52) 8 0 = St.ok) (hv : v = c.d.readLe (l % 2 ^ 52) 8) :
    c.waitOp o = if waitRel o.fn.toNat v (c.th.sr o.b.toNat).toNat then .retire c.th else .watch := by
  subst hla hv
  unfold Cx.waitOp
  rw [if_neg (not_not.2 h0), if_neg (fun h => absurd h.1 (by omega)), Cx.withBytes_local hl hm ha]
  rfl

/-- The register that a WAIT's word names for its timeout. -/
theorem wait_timeout_register {t w : Nat} {g : Guard} {o : FmtR} (h : Sys2Proof.gtcEncode (.wait t g o) = some w) : bits w 20 15 = o.d.toNat := by
  have hw : fmtR w = o := by
    rw [← Option.some.inj h]; exact fmtR_gtcWord g _ o
  rw [← hw]
  simp only [fmtR, gtcField, bits, BitVec.toNat_ofNat, Nat.shiftRight_eq_div_pow]

/-- A thread whose WAIT retires goes on, and its timer stops (R334). -/
theorem Dev.waitMet_of_holds {d : Dev} {t f k : Nat} {a : Attempt} {th x : Thread} {o : FmtR} (hw : d.waiter t = some (f, k, a, th, o)) (ho : th.out = 0)
    (hb : (Cx.mk d f a (t - k) th).waitOp o = .retire x) (hc : d.inCode f a.q (th.pc + 4) = true) :
    d.waitMet t = (d.disarm (.wait t)).retired t k a th (th.pc + 4) := by
  unfold Dev.waitMet
  simp only [hw, ho, hb, ne_eq, not_true_eq_false, if_false]
  exact Dev.thrGoOn_of_inCode (d := d.disarm (.wait t)) hc

/-- A thread whose WAIT does not hold at its timeout raises 0x0801 (R19, R334). -/
theorem Dev.waitLate_of_fails {d : Dev} {t f k : Nat} {a : Attempt} {th : Thread} {o : FmtR} (hw : d.waiter t = some (f, k, a, th, o))
    (he : d.expired (.wait t) = true) (hb : (Cx.mk d f a (t - k) th).waitOp o = .watch) :
    d.waitLate t = d.thrExc f k a (t - k) 0x0801 (th.sr o.a.toNat).toNat th.pc (d.codeWord f th.pc) := by
  unfold Dev.waitLate
  simp only [hw, he, hb, Bool.not_true, Bool.false_eq_true, if_false]
  rfl

/-- A WAIT whose relation does not hold leaves its thread waiting, with its timer where sD is not 0 (R334). -/
theorem gtcStep_watch {s : State} {t : Nat} {g : Guard} {o : FmtR} {f k : Nat} {a : Attempt} {th : Thread} (h : s.Stands t (.wait t g o) f k a th)
    (hg : th.Guarded g) (hk : k ≤ t) (hb : (Cx.mk s.dev f a (t - k) th).waitOp o = .watch) {d : Dev}
    (hd : d = s.dev.setAtt k (a.setTh (t - k) { th with
      st := 3
      got := [] })) :
    Becomes (.wait t g o) s (if th.sr o.d.toNat = 0 then d else d.arm (.wait t) (cdiv (10 * (th.sr o.d.toNat).toNat) 3)) := by
  have := gtcStep_of_stands (i := .wait t g o) rfl h hg
  obtain ⟨-, -, -, -, -, -, -, -, henc, -⟩ := h
  have hzero : ((th.sr o.d.toNat).toNat = 0) ↔ th.sr o.d.toNat = 0 := BitVec.toNat_inj (y := 0)
  simp only [hb, Dev.thrDo, wait_timeout_register henc, ← hd, hzero, Nat.add_sub_cancel' hk] at this
  exact this

/-- Settles O39: a branch is a jump, and a WAIT tests its relation when it issues, when its word changes and when its time has come. -/
theorem gtcControl : Obligations.GtcControl := by
  refine ⟨?branches, ?waits⟩
  case branches =>
    intro s t g o r e f k a th x
    refine ⟨fun hx hc => ⟨fun h hg => ?br, fun h hg => ?call⟩, fun h hg => ⟨fun hc => ?jr, fun hc => ?leaves⟩,
      fun h => gtcStep_retire (i := .nop t g) rfl h rfl, fun h => gtcStep_retire (i := .fence t g e) rfl h rfl⟩
    case br => exact gtcStep_jump (i := .br t g o) rfl h hg (congrArg _ (Cx.target_eq hx)) hc
    case call => exact gtcStep_jump (i := .call t g o) rfl h hg (congrArg _ (Cx.target_eq hx)) hc
    case jr => exact gtcStep_jump (i := .jr t g r) rfl h hg (if_pos hc) hc
    case leaves => exact gtcStep_exc (i := .jr t g r) rfl h hg (if_neg (by rw [Bool.not_eq_true]; exact hc))
  case waits =>
    rintro s t g o f k a th l v y hla rfl h0 hl hm ha hv
    have hop := Cx.waitOp_local (c := ⟨s.dev, f, a, t - k, th⟩) hla h0 hl hm ha hv
    refine ⟨fun hr => ?holds, fun hr => ?fails⟩
    case holds =>
      rw [waitRel_holds hr, if_pos rfl] at hop
      exact ⟨fun h => gtcStep_retire (i := .wait t g o) rfl h hop,
        fun h hw ho hc => becomes_engine (f := (·.waitMet t)) rfl h (Dev.waitMet_of_holds hw ho hop hc)⟩
    case fails =>
      rw [waitRel_fails hr] at hop
      exact ⟨fun h hg hk d hd => gtcStep_watch h hg hk hop hd, fun h hw he => becomes_engine (f := (·.waitLate t)) rfl h (hla ▸ Dev.waitLate_of_fails hw he hop)⟩

end Sys2Proof.Machine
end

section
/-! SUPPORT. The image loader: what a GO starts or refuses, an abort, and the end of its checks (R73 to R79). -/

namespace Sys2Proof.Machine

/-! ## A GO of the loader -/

/-- A GO that nothing refuses and whose precondition holds starts a request (R74, R75). -/
theorem Dev.loadGo_starts {d : Dev} {op f : Nat} (hr : d.loadReject op = 0) (hp : d.loadPre op f = 0) (hop : op ≠ 4) :
    d.loadGo op f = ({ d with seq := { d.seq with
      req := some ⟨op, f, (d.word R.SEQ_IMG_SRC).toNat, (d.word R.SEQ_IMG_LEN).toNat⟩ } }.set R.SEQ_IMG_STATUS_BUSY 1).setW R.SEQ_IMG_PROGRESS 0 := by
  simp only [Dev.loadGo, hr, hp, hop, ne_eq, not_true_eq_false, if_false]

/-- UNLOAD_FUNCTION has no checks but its precondition (R74). -/
theorem Dev.loadGo_unloads {d : Dev} {f : Nat} (hr : d.loadReject 4 = 0) (hp : d.loadPre 4 f = 0) :
    d.loadGo 4 f = d.loadPassed { op := 4, fn := f, imageId := 0, steepNs := 0, det := false, fns := [], routes := [], shape := [], overflow := none } := by
  simp only [Dev.loadGo, hr, hp, ne_eq, not_true_eq_false, if_false, if_true]

/-- A GO that starts no request sets GO_REJECTED and REJECT_STATUS alone (R75). -/
theorem Dev.loadGo_rejected {d : Dev} {op f : Nat} {st : Status} (hr : d.loadReject op = st) (h0 : st ≠ 0) :
    d.loadGo op f = (d.set R.SEQ_IMG_STATUS_GO_REJECTED 1).setSt R.SEQ_IMG_STATUS_REJECT_STATUS st := by
  subst hr
  exact if_pos h0

/-- A request whose precondition fails ends at stage 1 (R74). -/
theorem Dev.loadGo_precondition {d : Dev} {op f : Nat} {st : Status} (hr : d.loadReject op = 0) (hp : d.loadPre op f = st) (h0 : st ≠ 0) :
    d.loadGo op f = d.loadEnd ⟨st, 1, 0xFF⟩ := by
  subst hp
  simp only [Dev.loadGo, hr, ne_eq, not_true_eq_false, if_false]
  exact if_pos h0

/-- A GO finds the loader free (R75, R201, R475). -/
theorem Dev.loadReject_free {d : Dev} {op : Nat} (hf : d.fatal = false) (hp : d.powerDown = false) (hb : d.has R.SEQ_IMG_STATUS_BUSY = false)
    (hw : d.has R.SEQ_IMG_STATUS_PENDING = false) (hu : d.updating = false) (hop : 0 < op ∧ op ≤ 4) : d.loadReject op = 0 := by
  simp only [Dev.loadReject, hf, hp, hb, hw, hu, Bool.or_false, Bool.false_eq_true, if_false]
  exact if_neg (by omega)

/-- The precondition of the three requests that load an image (R74, R75). -/
theorem Dev.loadPre_passed {d : Dev} {op f : Nat} (h1 : op = 1 → d.loadedFns = []) (hp : op ≠ 1 → d.fnPending f = false)
    (h2 : op = 2 → d.has R.SEQ_IMG_STATUS_DEVICE_LOADED = true ∧ d.loaded f = false) (h3 : op = 3 → d.loaded f = true) (hop : op = 1 ∨ op = 2 ∨ op = 3) :
    d.loadPre op f = 0 := by
  rcases hop with rfl | rfl | rfl
  · simp [Dev.loadPre, h1 rfl]
  · obtain ⟨hd, hl⟩ := h2 rfl
    simp [Dev.loadPre, hp, hd, hl]
  · simp [Dev.loadPre, hp, h3 rfl]

/-- The precondition of UNLOAD_FUNCTION (R74). -/
theorem Dev.loadPre_unload {d : Dev} {f : Nat} (hp : d.fnPending f = false) (hl : d.loaded f = true) (hs : d.fnState f = 1) : d.loadPre 4 f = 0 := by
  simp [Dev.loadPre, hp, hl, hs, stStopped]

/-- The status of the precondition that fails (R74, R75). -/
theorem Dev.loadPre_failed {d : Dev} {op f : Nat} {st : Status} (hop : op = 2 ∨ op = 3 ∨ op = 4)
    (h : d.fnPending f = true ∧ st = 0x0511 ∨ d.fnPending f = false ∧
        (op = 2 ∧ d.has R.SEQ_IMG_STATUS_DEVICE_LOADED = false ∧ st = 0x051C ∨
          op = 2 ∧ d.has R.SEQ_IMG_STATUS_DEVICE_LOADED = true ∧ d.loaded f = true ∧ st = 0x0513 ∨
          op = 3 ∧ d.loaded f = false ∧ st = 0x0514 ∨ op = 4 ∧ d.loaded f = false ∧ st = 0x0514 ∨
          op = 4 ∧ d.loaded f = true ∧ d.fnState f ≠ 1 ∧ st = 0x0515)) :
    d.loadPre op f = st ∧ st ≠ 0 := by
  have h1 : op ≠ 1 := by omega
  rcases h with ⟨hp, rfl⟩ | ⟨hp, ⟨rfl, hd, rfl⟩ | ⟨rfl, hd, hl, rfl⟩ | ⟨rfl, hl, rfl⟩ | ⟨rfl, hl, rfl⟩ | ⟨rfl, hl, hs, rfl⟩⟩
  · exact ⟨by rw [Dev.loadPre, if_neg h1, hp]; rfl, by decide⟩
  · exact ⟨by simp [Dev.loadPre, hp, hd]; rfl, by decide⟩
  · exact ⟨by simp [Dev.loadPre, hp, hd, hl]; rfl, by decide⟩
  · exact ⟨by simp [Dev.loadPre, hp, hl]; rfl, by decide⟩
  · exact ⟨by simp [Dev.loadPre, hp, hl]; rfl, by decide⟩
  · exact ⟨by simp [Dev.loadPre, hp, hl, stStopped, hs]; rfl, by decide⟩

/-- Why a GO is rejected, first cause first (R75, R201, R475). -/
theorem Dev.loadReject_cause {d : Dev} {op : Nat} {st : Status}
    (h : d.fatal = true ∧ st = 0x0F04 ∨
        d.fatal = false ∧ d.powerDown = true ∧ st = 0x0528 ∨
        d.fatal = false ∧ d.powerDown = false ∧ (d.has R.SEQ_IMG_STATUS_BUSY = true ∨ d.has R.SEQ_IMG_STATUS_PENDING = true ∨ d.updating = true) ∧ st = 0x0510 ∨
        d.fatal = false ∧ d.powerDown = false ∧ d.has R.SEQ_IMG_STATUS_BUSY = false ∧ d.has R.SEQ_IMG_STATUS_PENDING = false ∧ d.updating = false ∧
          (op = 0 ∨ 4 < op) ∧ st = 0x0116) :
    d.loadReject op = st ∧ st ≠ 0 := by
  unfold Dev.loadReject
  rcases h with ⟨hf, rfl⟩ | ⟨hf, hp, rfl⟩ | ⟨hf, hp, hb, rfl⟩ | ⟨hf, hp, hb, hw, hu, hop, rfl⟩
  · exact ⟨by rw [hf]; rfl, by decide⟩
  · exact ⟨by rw [hf, hp]; rfl, by decide⟩
  · refine ⟨?_, by decide⟩
    rw [hf, hp, show (d.has R.SEQ_IMG_STATUS_BUSY || d.has R.SEQ_IMG_STATUS_PENDING || d.updating) = true by simpa [or_assoc] using hb]
    rfl
  · refine ⟨?_, by decide⟩
    rw [hf, hp, hb, hw, hu]
    exact if_pos hop

/-- Why a GO is rejected does not depend on the fields of CTRL that it writes. -/
theorem Dev.loadReject_of_ctrl (d : Dev) (op f n : Nat) :
    ((d.set R.SEQ_IMG_CTRL_OP op).set R.SEQ_IMG_CTRL_FUNCTION f).loadReject n = d.loadReject n := by
  simp (disch := decide) only [Dev.loadReject, Dev.fatal, Dev.has, Dev.powerDown, Dev.updating, Dev.get_set_off]
  rfl

/-- Settles O11: a GO is rejected first, then its precondition is checked, and then it starts or, for UNLOAD_FUNCTION, commits or waits. -/
theorem loaderRequestsStart : Obligations.LoaderRequestsStart := by
  refine ⟨?starts, ?unload, ?refused⟩
  case starts =>
    rintro s op f c d h hc rfl hf hp hb hw hu h1 hpend h2 h3
    have hop : op = 1 ∨ op = 2 ∨ op = 3 := by
      rcases hc with ⟨_, hop, _⟩ | ⟨n, _, ⟨_, hop⟩ | ⟨_, hop⟩⟩ <;> simp [hop]
    have hgo := Dev.loadGo_starts (f := f) (Dev.loadReject_free hf hp hb hw hu (by omega)) (Dev.loadPre_passed h1 hpend h2 h3 hop) (by omega)
    rw [← hgo]
    rcases hc with ⟨rfl, rfl, rfl⟩ | ⟨n, rfl, ⟨rfl, rfl⟩ | ⟨rfl, rfl⟩⟩
    · exact becomes_live (f := fun d => (d.loadWrite 1 (d.get R.SEQ_IMG_CTRL_FUNCTION)).reply St.ok) rfl h rfl
    · exact becomes_live (f := fun d => (d.loadWrite 2 n).reply St.ok) rfl h rfl
    · exact becomes_live (f := fun d => (d.loadWrite 3 n).reply St.ok) rfl h rfl
  case unload =>
    rintro s f d c h rfl hr hp hl hs rfl
    have hgo := Dev.loadGo_unloads hr (Dev.loadPre_unload hp hl hs)
    have hb := becomes_live (c := .unloadFunction f) (f := fun d => (d.loadWrite 4 f).reply St.ok) rfl h (congrArg (fun d : Dev => d.reply St.ok) hgo)
    refine ⟨fun hrun => ?_, fun hrun => ?_⟩
    · have hruns : Dev.fnRuns ((s.dev.set R.SEQ_IMG_CTRL_OP 4).set R.SEQ_IMG_CTRL_FUNCTION f) f = false := by simp [Dev.fnRuns, hs, stRunning, stStopping]
      rwa [Dev.loadPassed, if_pos (by simp [Dev.commitsNow, hrun, hruns])] at hb
    · rwa [Dev.loadPassed, if_neg (by simp [Dev.commitsNow, hrun])] at hb
  case refused =>
    rintro s op f d st h rfl
    refine ⟨fun hst => ?_, fun c hc hr hst => ?_⟩
    · obtain ⟨hr, h0⟩ := Dev.loadReject_cause hst
      rw [← Dev.loadGo_rejected hr h0]
      refine becomes_live (f := fun d => if op.val = 0 ∨ 4 < op.val ∨ d.loadReject op ≠ 0 then (d.loadWrite op f).reply St.ok else d) rfl h
        (if_pos (.inr (.inr ?_)))
      rwa [← Dev.loadReject_of_ctrl s.dev op f, hr]
    · have hop : op.val = 2 ∨ op.val = 3 ∨ op.val = 4 := by
        rcases hc with ⟨_, rfl⟩ | ⟨_, rfl⟩ | ⟨_, rfl⟩ <;> decide
      have hst' := hst
      simp only [Fin.ext_iff] at hst'
      obtain ⟨hp, h0⟩ := Dev.loadPre_failed hop hst'
      rw [← Dev.loadGo_precondition hr hp h0]
      rcases hc with ⟨rfl, rfl⟩ | ⟨rfl, rfl⟩ | ⟨rfl, rfl⟩
      · exact becomes_live (f := fun d => (d.loadWrite 2 f).reply St.ok) rfl h rfl
      · exact becomes_live (f := fun d => (d.loadWrite 3 f).reply St.ok) rfl h rfl
      · exact becomes_live (f := fun d => (d.loadWrite 4 f).reply St.ok) rfl h rfl

/-! ## The end of a request -/

/-- An abort of a request under way (R79). -/
theorem Dev.loadAbort_of_request {d : Dev} (h : d.seq.req ≠ none ∨ d.seq.pend ≠ none) : d.loadAbort = d.loadEnd ⟨0x0516, 0, 0xFF⟩ :=
  if_pos (by rw [Bool.or_eq_true, Option.isSome_iff_ne_none, Option.isSome_iff_ne_none]; exact h)

/-- An abort without one. -/
theorem Dev.loadAbort_idle {d : Dev} (hr : d.seq.req = none) (hp : d.seq.pend = none) : d.loadAbort = d :=
  if_neg (by rw [hr, hp]; decide)

/-- The image's length and, where it stands in this device, its range come first (R76). -/
theorem Dev.loadChecks_length {d : Dev} {r : LoadReq} {st : Status} (src : Remote) (hr : d.seq.req = some r) (h : lenCheck 64 r.len 0x4000000000 = some st) :
    d.loadChecks src = d.loadEnd ⟨st, 2, 0xFF⟩ := by
  simp only [Dev.loadChecks, hr, h]; rfl

theorem Dev.loadChecks_empty {d : Dev} {r : LoadReq} (src : Remote) (hr : d.seq.req = some r) (h : r.len = 0) :
    d.loadChecks src = d.loadEnd ⟨0, 0, 0xFF⟩ := by
  simp only [Dev.loadChecks, hr, h, if_true]; rfl

/-- An image that stands in this device (R76). -/
theorem Dev.loadChecks_local {d : Dev} {r : LoadReq} (src : Remote) (hr : d.seq.req = some r) (h0 : 0 < r.len) (h1 : r.len ≤ 0x4000000000)
    (hl : d.isLocal r.src = true) :
    d.loadChecks src = match srcRange (r.src % 2 ^ 52) r.len with
      | some st => d.loadEnd ⟨st, 3, 0xFF⟩
      | none => d.loadImage r ⟨0xFF, 0, false, r.src % 2 ^ 52, r.len⟩ (d.read (r.src % 2 ^ 52) r.len) := by
  have hlen : lenCheck 64 r.len 0x4000000000 = none := lenCheck_passed h1 (by decide)
  simp only [Dev.loadChecks, hr, hlen, hl, if_true, if_neg h0.ne']; rfl

/-- An image whose header, signature, directory, digests, identity, layout or blends fail ends where they fail. -/
theorem Dev.loadImage_fails {d : Dev} {r : LoadReq} {g : Region} {img : Bytes} {e : LoadErr}
    (h : (d.setW R.SEQ_IMG_PROGRESS img.length).brqChecks r g img = .error e) :
    d.loadImage r g img = (d.setW R.SEQ_IMG_PROGRESS img.length).loadEnd e := by
  simp only [Dev.loadImage, h]

/-- An image whose sections all pass is committed or waits. -/
theorem Dev.loadImage_passes {d e : Dev} {r : LoadReq} {g : Region} {img : Bytes} {b : Brq} (he : e = d.setW R.SEQ_IMG_PROGRESS img.length)
    (h : e.brqChecks r g img = .ok b) (hh : e.regionHeld b = false)
    (hs : b.order.forM (fun k => at_ 0xD k.2.idx ((e.copySections b).sectCheck b k)) = .ok ()) :
    d.loadImage r g img = (e.copySections b).loadPassed (commitOf r b) := by
  subst he
  simp only [Dev.loadImage, h, hh, hs, Bool.false_eq_true, if_false]

/-- Settles O12: the request ends where its first failing check stands, and an image that passes them all is committed. -/
theorem loaderRequestsEnd : Obligations.LoaderRequestsEnd := by
  refine ⟨fun s h => ⟨fun hr => ?abort, fun hr hp => ?idle⟩, fun s r src h hr => ⟨fun hn => ?reserved, fun hn hm => ?long, fun hn => ?empty, ?fetched⟩⟩
  case abort => exact becomes_live (f := fun d => d.loadAbort.reply St.ok) rfl h (by rw [Dev.loadAbort_of_request hr]; rfl)
  case idle => exact becomes_live (f := fun d => d.loadAbort.reply St.ok) rfl h (by rw [Dev.loadAbort_idle hr hp]; rfl)
  case reserved => exact becomes_engine (f := (·.loadChecks src)) rfl h (Dev.loadChecks_length src hr (if_pos hn))
  case long => exact becomes_engine (f := (·.loadChecks src)) rfl h (Dev.loadChecks_length src hr ((if_neg (by omega)).trans (if_pos hn)))
  case empty => exact becomes_engine (f := (·.loadChecks src)) rfl h (Dev.loadChecks_empty src hr hn)
  case fetched =>
    rintro h0 h1 hl a d rfl
    have hc := Dev.loadChecks_local src hr h0 h1 hl
    refine ⟨fun st hst => ?_, fun hst hd hlen => ?_⟩
    · rw [hst] at hc
      exact becomes_engine (f := (·.loadChecks src)) rfl h hc
    · rw [hst] at hc
      rw [← hlen] at hd
      refine ⟨fun e he => ?_, fun b hb hheld hs => ?_⟩
      · subst hd
        exact becomes_engine (f := (·.loadChecks src)) rfl h (hc.trans (Dev.loadImage_fails he))
      · exact becomes_engine (f := (·.loadChecks src)) rfl h (hc.trans (Dev.loadImage_passes hd hb hheld hs))

end Sys2Proof.Machine
end

section
/-! SUPPORT. Device ticks, steep boundaries, and the requests of a function (R34 to R40, R82 to R107). -/

namespace Sys2Proof.Machine

/-! ## Ticks -/

theorem Dev.unlessFatal_of_works {d : Dev} (g : Dev → Dev) (h : d.fatal = false) : d.unlessFatal g = g d :=
  if_neg (by rw [h]; decide)

/-- A tick waits for its time. -/
theorem Dev.tickDue_early {d : Dev} {n : Nat} (hn : d.nextTick = some n) (ht : d.ftNs < d.tickAt n) : d.tickDue = d := by
  rw [Dev.tickDue, hn]
  exact if_neg (by omega)

theorem Dev.tickDue_falls {d : Dev} {n : Nat} (hn : d.nextTick = some n) (ht : d.tickAt n ≤ d.ftNs) : d.tickDue = d.tickFall n := by
  rw [Dev.tickDue, hn]
  exact if_pos ht

/-- With no KILL waiting, none acts. -/
theorem Dev.tickKills_none {d : Dev} (h : ∀ f, (d.fn f).pendKill = false) : d.tickKills = d :=
  List.foldl_fixed' (fun f => if_neg (by rw [h f]; decide)) _

/-- With no START waiting, none commits. -/
theorem Dev.tickStarts_none {d : Dev} (n : Nat) (h : ∀ f, (d.fn f).pendStart = none) : d.tickStarts n = d :=
  List.foldl_fixed' (fun f => if_neg (by rw [h f]; exact Bool.false_ne_true)) _

theorem Dev.tickLoad_none {d : Dev} (h : d.seq.pend = none) : d.tickLoad = d := by rw [Dev.tickLoad, h]

/-- A tick with nothing waiting but routes, collectives, threads, recovery and a handover (R35, R83). -/
theorem Dev.tickFall_quiet {d e : Dev} {n : Nat} (he : e = ((d.set R.SEQ_TICK_CTRL_RUNNING 1).set R.SEQ_TICK_CTRL_ARM 0).setW R.SEQ_TICK n)
    (hl : 16 ≤ e.get R.GLB_THERMAL_LEVEL) (hc : e.checkDev = e) (hf : e.fatal = false)
    (hw : ∀ f, (e.fn f).pendKill = false ∧ (e.fn f).pendStart = none) (hp : e.seq.pend = none) :
    d.tickFall n = ((((((e.tickRoutes n).colTick n).thrTick).recTick).handover).tickRetry.settle) := by
  unfold Dev.tickFall
  simp only [← he, if_neg (show ¬ e.get R.GLB_THERMAL_LEVEL < 16 by omega), hc, Dev.unlessFatal_of_works _ hf, Dev.tickKills_none (fun f => (hw f).1),
    Dev.tickStarts_none n (fun f => (hw f).2), Dev.tickLoad_none hp]

/-! ## Steep boundaries -/

/-- A boundary waits for its time and its steep's work (R96). -/
theorem Dev.boundary_waits {d : Dev} {f : Nat} (h : d.fnRuns f = false ∨ d.workDone f = false ∨ d.ftNs < d.boundaryAt f) : d.boundary f = d := by
  have : (d.fnRuns f && d.workDone f && decide (d.boundaryAt f ≤ d.ftNs)) = false := by
    rcases h with h | h | h
    · simp [h]
    · simp [h]
    · simp [show ¬ d.boundaryAt f ≤ d.ftNs by omega]
  unfold Dev.boundary
  simp only [this, Bool.not_false, Bool.true_or, if_true]

/-- A boundary that falls, its pools checked and nothing staged. -/
theorem Dev.boundary_falls {d e : Dev} {f : Nat} (hr : d.fnRuns f = true) (hw : d.workDone f = true) (ht : d.boundaryAt f ≤ d.ftNs)
    (hu : d.get R.MGT_FW_STATUS_STATE ≠ 3) (hc : d.checkAll f = d) (hfatal : d.fatal = false) (he : e = d.boundaryLag f (d.boundaryAt f - d.plannedEnd f))
    (hs : (e.fn f).staged = none) : d.boundary f = e.boundaryRequests f (d.boundaryAt f) := by
  unfold Dev.boundary
  simp only [hr, hw, ht, hu, decide_true, Bool.and_true, Bool.not_true, Bool.or_self, decide_false, Bool.false_eq_true, if_false, hc, Dev.unlessFatal_of_works _ hfatal, ← he, hs,
    Option.any_none]

/-- A boundary on time with no lag before it (R98). -/
theorem Dev.boundaryLag_zero {d : Dev} {f : Nat} (h : (d.fn f).lag = 0) :
    d.boundaryLag f 0 = (d.setW (R.SEQ_FN_LAG_MAX f) (d.lagMax f)).lagZero f := by
  simp only [Dev.boundaryLag, h, if_true]

/-- A record that is neither a quiesce point nor the last: the next steep starts at the next record. -/
theorem Dev.boundaryRequests_plain {d : Dev} {f : Nat} (b : Nat) (hp : (d.fn f).past = false) (hn : d.recordNo f + 1 < d.steepCount f)
    (hq : (d.record f (d.recordNo f)).2.2 = false) :
    d.boundaryRequests f b = (d.set (R.SEQ_FN_RECORD_RECORD f) (d.recordNo f + 1)).nextSteep f b := by
  simp [Dev.boundaryRequests, hp, hq, show ¬ d.steepCount f ≤ d.recordNo f + 1 by omega]

/-- A clean QUIESCE record at which a STOP waits (R103). -/
theorem Dev.boundaryRequests_stop {d : Dev} {f r : Nat} (b : Nat) (hr : r = d.recordNo f) (hp : (d.fn f).past = false) (hq : (d.record f r).2.2 = true)
    (hd : d.drained f = true) (hs : (d.fn f).pendStop = true) (hk : (d.fn f).pendKill = false) :
    d.boundaryRequests f b = ((d.modFn f (fun x => { x with cleanRecord := r + 1 })).stopAt f (r + 1) (decide (d.steepCount f ≤ r + 1))).fnDone f 0 := by
  subst hr
  simp [Dev.boundaryRequests, hp, hq, hd, hs, hk]

/-- A QUIESCE record with work in flight is ignored and counted (R103). -/
theorem Dev.boundaryRequests_miss {d : Dev} {f r : Nat} (b : Nat) (hr : r = d.recordNo f) (hp : (d.fn f).past = false) (hq : (d.record f r).2.2 = true)
    (hd : d.drained f = false) (hn : r + 1 < d.steepCount f) :
    d.boundaryRequests f b = ((d.inc (R.SEQ_FN_COUNTS_QUIESCE_MISS f)).set (R.SEQ_FN_RECORD_RECORD f) (r + 1)).nextSteep f b := by
  subst hr
  simp [Dev.boundaryRequests, hp, hq, hd, show ¬ d.steepCount f ≤ d.recordNo f + 1 by omega]

/-- Settles O13: a tick or boundary waits for its time, and then its parts act in their order. -/
theorem ticksAndSteeps : Obligations.TicksAndSteeps := by
  refine ⟨fun s n h hn => ⟨fun ht => ?early, fun ht => ?falls, fun ht d hd hl hc hf hw hp => ?quiet⟩, fun s f b d h hb => ⟨fun hw => ?waits, ?next⟩,
    fun d f b r hr hp hq => ⟨fun hd hs hk => Dev.boundaryRequests_stop b hr hp hq hd hs hk, fun hd hn _ => Dev.boundaryRequests_miss b hr hp hq hd hn⟩,
    fun s f h hr => ⟨fun hw ho he => ?overrun, fun ho => ?counted, fun hl hg => ?lost⟩⟩
  case early => exact becomes_engine (f := (·.tickDue)) rfl h (Dev.tickDue_early hn ht)
  case falls => exact becomes_engine (f := (·.tickDue)) rfl h (Dev.tickDue_falls hn ht)
  case quiet => exact becomes_engine (f := (·.tickDue)) rfl h ((Dev.tickDue_falls hn ht).trans (Dev.tickFall_quiet hd hl hc hf hw hp))
  case waits => exact becomes_engine (f := (·.boundary f.val)) rfl h (Dev.boundary_waits (hb ▸ hw))
  case next =>
    rintro hr hw ht hu hc hpl hlag hd hs hp hn hq
    subst hb hd
    refine becomes_engine (f := (·.boundary f.val)) rfl h ((Dev.boundary_falls hr hw ht hu hc h.2 ?_ hs).trans (Dev.boundaryRequests_plain _ hp hn hq))
    rw [Nat.sub_eq_zero_of_le hpl, Dev.boundaryLag_zero hlag]
  case overrun => exact becomes_engine (f := (·.overran f.val)) rfl h (if_pos (by simp [hr, hw, ho, he]))
  case counted => exact becomes_engine (f := (·.overran f.val)) rfl h (if_neg (by simp [ho]))
  case lost => exact becomes_engine (f := (·.schedLost f.val)) rfl h (if_pos (by simp [hr, hl, hg]))

/-! ## START, STOP and KILL -/

/-- A START as it is written: CMD, and the point that START_AT and FROM name (R101, R102). -/
def Dev.startWrite (d : Dev) (f : Nat) : Dev :=
  let d := d.set (R.SEQ_FN_CTRL_CMD f) 1
  (d.startFn f (d.word (R.SEQ_FN_START_AT f)).toNat (d.has (R.SEQ_FN_FROM_USE f)) (d.get (R.SEQ_FN_FROM_RECORD f))).2

/-- A START that passes its checks waits for its tick (R102). -/
theorem Dev.startFn_accepted {d : Dev} {f at_ rec_ : Nat} {use : Bool} (h : d.startCheck f at_ use rec_ = 0) :
    (d.startFn f at_ use rec_).2 = (d.modFn f (fun r => { r with
      pendStart := some (at_, (d.resumePoint f use rec_).1)
      pendUse := use })).setFnState f 2 := by
  simp only [Dev.startFn, h, ne_eq, not_true_eq_false, if_false]; rfl

theorem Dev.startFn_refused {d : Dev} {f at_ rec_ : Nat} {use : Bool} {st : Status} (h : d.startCheck f at_ use rec_ = st) (h0 : st ≠ 0) :
    (d.startFn f at_ use rec_).2 = d.fnDone f st := by
  simp only [Dev.startFn, h, ne_eq, h0, not_false_eq_true, if_true]

/-- START's checks up to the state of the node (R102, R201, R475, R481). -/
theorem Dev.startCheck_open {d : Dev} {f at_ rec_ : Nat} {use : Bool} (hf : d.fatal = false) (hs : d.has R.LGR_STATUS_SELF_FENCED = false)
    (hp : d.powerDown = false) :
    d.startCheck f at_ use rec_ =
      if !d.loaded f then St.functionNotLoaded
      else if d.fnPending f then St.requestPending
      else if d.fnState f ≠ stStopped then St.functionRunning
      else if !d.has R.SEQ_TICK_CTRL_RUNNING then St.ticksNotRunning
      else if at_ ≠ 0 ∧ at_ ≤ d.tickNo then St.tickPassed
      else if !(d.resumePoint f use rec_).2 then St.resumeInvalid
      else 0 := by
  simp only [Dev.startCheck, hf, hs, hp, Bool.false_eq_true, if_false]

/-- Writing CMD does not show as a fatal cause. -/
theorem Dev.fatal_set_of_fnCtrl (d : Dev) (f : FnId) (v : Nat) : (d.set (R.SEQ_FN_CTRL_CMD f) v).fatal = d.fatal := by
  have : R.LGR_STATUS_FATAL.off ≠ (R.SEQ_FN_CTRL_CMD f).off := by simp only [R.LGR_STATUS_FATAL, R.LGR_STATUS, R.SEQ_FN_CTRL_CMD, R.SEQ_FN_CTRL]; have := f.isLt; omega
  unfold Dev.fatal Dev.has
  rw [Dev.get_set_off _ _ _ _ this]

/-- The point that a START without FROM resumes at: the next record of a plan that has not ended (R102). -/
theorem Dev.resumePoint_next (d : Dev) (f rec_ : Nat) : (d.resumePoint f false rec_).2 = !d.has (R.SEQ_FN_STATUS_PLAN_END f) := rfl

/-- The point that FROM names: a record of the plan that is the first or follows a QUIESCE record (R102). -/
theorem Dev.resumePoint_from {d : Dev} {f rec_ : Nat} :
    (d.resumePoint f true rec_).2 = true ↔ rec_ < d.steepCount f ∧ (rec_ = 0 ∨ (d.record f (rec_ - 1)).2.2 = true) := by
  simp [Dev.resumePoint]

/-- Settles O14: START's checks decide in their order, and STOP, KILL and an invalid CMD check theirs. -/
theorem functionRequestsAreChecked : Obligations.FunctionRequestsAreChecked := by
  refine ⟨fun s f d at_ use rec_ h => ⟨?start, ?stop, ?invalid, ?kill⟩, fun d f at_ use rec_ hf hs hp => ?checks⟩
  case start =>
    rintro rfl rfl rfl rfl
    refine ⟨fun hc => ?_, fun st hc h0 => ?_⟩
    all_goals refine becomes_live (f := fun d => (d.startWrite f).reply St.ok) rfl h (congrArg (fun d : Dev => d.reply St.ok) ?_)
    · exact Dev.startFn_accepted hc
    · exact Dev.startFn_refused hc h0
  case stop =>
    rintro rfl hf
    refine ⟨fun hl => ?_, fun hl hp => ?_, fun hl hp hs => ?_, fun hl hp hs => ?_⟩
    all_goals refine becomes_live (f := fun d => (d.stopFn f).reply St.ok) rfl h (congrArg (fun d : Dev => d.reply St.ok) ?_)
    · simp only [Dev.stopFn, hf, hl, Bool.false_eq_true, Bool.not_false, if_false, if_true]; rfl
    · simp only [Dev.stopFn, hf, hl, hp, Bool.false_eq_true, Bool.not_true, if_false, if_true]; rfl
    · simp only [Dev.stopFn, hf, hl, hp, hs, stStopped, Bool.false_eq_true, Bool.not_true, if_false, if_true]; rfl
    · simp only [Dev.stopFn, hf, hl, hp, hs, stStopped, Bool.false_eq_true, Bool.not_true, if_false]; rfl
  case invalid =>
    rintro three rfl hf
    refine becomes_live (f := fun d => ((d.set (R.SEQ_FN_CTRL_CMD f) (if three then 3 else 0)).fnDone f (if d.fatal then St.deviceFatal else St.opInvalid)).reply St.ok)
      rfl h ?_
    rw [Dev.fatal_set_of_fnCtrl] at hf
    rw [hf]; rfl
  case kill =>
    intro hf
    refine ⟨fun hl => ?_, fun hl hs => ?_, fun hl hs => ?_⟩
    all_goals
      refine becomes_live (f := fun d => (if d.fatal then d.fnDone f St.deviceFatal else d.killWrite f).reply St.ok) rfl h ?_
      rw [hf]
      refine congrArg (fun d : Dev => d.reply St.ok) ?_
    · simp only [Dev.killWrite, hl, Bool.false_eq_true, Bool.not_false, if_false, if_true]; rfl
    · simp only [Dev.killWrite, hl, hs, stStopped, Bool.false_eq_true, Bool.not_true, if_false, if_true]; rfl
    · simp only [Dev.killWrite, hl, hs, stStopped, Bool.false_eq_true, Bool.not_true, if_false]
  case checks =>
    rw [Dev.startCheck_open hf hs hp]
    refine ⟨fun hl => ?_, fun hl hw => ?_, fun hl hw hst => ?_, fun hl hw hst => ⟨fun hr => ?_, fun hr => ⟨fun h0 h1 => ?_, fun hat => ?resume⟩⟩⟩
    · rw [hl]; rfl
    · rw [hl, hw]; rfl
    · rw [hl, hw]; exact if_pos hst
    · rw [hl, hw, hst, hr]; rfl
    · rw [hl, hw, hst, hr]
      simp only [Bool.not_true, Bool.false_eq_true, stStopped, ne_eq, not_true_eq_false, if_false]
      exact if_pos ⟨h0, h1⟩
    case resume =>
      rw [hl, hw, hst, hr, if_neg (show ¬ (at_ ≠ 0 ∧ at_ ≤ d.tickNo) by omega)]
      simp only [Bool.not_true, Bool.false_eq_true, stStopped, ne_eq, not_true_eq_false, if_false]
      refine ⟨fun hu he => ?_, fun hu he => ?_, fun hu hn => ?_, fun hu hn h0 hq => ?_, fun hu hn hq => ?_⟩ <;> subst hu
      · rw [Dev.resumePoint_next, he]; rfl
      · rw [Dev.resumePoint_next, he]; rfl
      · rw [Bool.eq_false_iff.2 (mt Dev.resumePoint_from.1 fun h => by omega)]; rfl
      · rw [Bool.eq_false_iff.2 (mt Dev.resumePoint_from.1 fun h => by rw [hq] at h; exact absurd h.2 (by simp [h0]))]; rfl
      · rw [Dev.resumePoint_from.2 ⟨hn, hq⟩]; rfl

end Sys2Proof.Machine
end

section
/-! SUPPORT. Channels, splices, the batch assembler, and the delivery of shards and manifests (R31, R32, R65, R94, R130 to R139). -/

namespace Sys2Proof.Machine

/-! ## Channels -/

/-- A producer that holds a credit writes its oldest granule (R32, R468). -/
theorem Dev.granuleWrite_writes {d : Dev} {ch f : Nat} {c : ChanRec} {g : Granule} {r : List Granule} (hc : d.chanRec ch = some (f, c))
    (hq : d.outQ c.prod = g :: r) (hx : (d.chan c).credits ≠ 0) (hh : d.halted f = false) :
    d.granuleWrite ch = (((d.setOutQ c.prod r).setChan c { credits := (d.chan c).credits - 1, q := (d.chan c).q ++ [g] }).issue (poolNo 1 f) 1).issue
      (poolNo 2 f) 1 := by
  simp only [Dev.granuleWrite, hc, hq, hx, hh, Bool.false_eq_true, or_self, if_false]

theorem Dev.granuleWrite_waits {d : Dev} {ch f : Nat} {c : ChanRec} (hc : d.chanRec ch = some (f, c)) (hx : (d.chan c).credits = 0) :
    d.granuleWrite ch = d := by
  simp only [Dev.granuleWrite, hc, hx, true_or, if_true]
  split <;> rfl

/-- The consumer takes the oldest granule, its credit returns, and both tokens retire (R32). -/
theorem Dev.creditReturn_takes {d : Dev} {ch f : Nat} {c : ChanRec} {g : Granule} {r : List Granule} (hc : d.chanRec ch = some (f, c))
    (hq : (d.chan c).q = g :: r) (hh : d.halted f = false) (hp : d.cacheEp f ≠ c.cons) (hk : ∀ e, (d.img f).ep c.cons = some e → e.kind ≠ 0xB) {e : Dev}
    (he : e = ((d.setChan c { credits := (d.chan c).credits + 1, q := r }).retire (poolNo 1 f) 1).retire (poolNo 2 f) 1) :
    d.creditReturn ch = e.setInQ c.cons (e.inQ c.cons ++ [g]) := by
  have hcache : e.cacheEp f = d.cacheEp f := by subst he; rfl
  have himg : e.img f = d.img f := by subst he; rfl
  have hkind : ((d.img f).ep c.cons).map (fun e => e.kind) ≠ some 0xB := by
    intro h
    obtain ⟨x, hx, hx'⟩ := Option.map_eq_some_iff.1 h
    exact hk x hx hx'
  simp only [Dev.creditReturn, hc, hq, hh, Bool.false_eq_true, if_false, ← he, hcache, hp, himg, hkind]

theorem Dev.creditReturn_waits {d : Dev} {ch f : Nat} {c : ChanRec} (hc : d.chanRec ch = some (f, c)) (h : (d.chan c).q = [] ∨ d.halted f = true) :
    d.creditReturn ch = d := by
  simp only [Dev.creditReturn, hc]
  split
  · rfl
  · next g r hq => rw [hq] at h; exact if_pos (h.resolve_left (List.cons_ne_nil g r))

/-! ## Splices -/

/-- A splice acts by the mode of its record (R65). -/
theorem Dev.splice_copy {d : Dev} {i f : Nat} (ho : d.owner 0xC i = some f) (hh : d.halted f = false) (hm : fld (d.config f 0xC i) 1 1 = 0) :
    d.splice i = d.copy f i ((d.img f).ports 0xC i false) ((d.img f).ports 0xC i true) := by
  simp only [Dev.splice, ho, hh, hm, Bool.false_eq_true, if_false]

theorem Dev.splice_merge {d : Dev} {i f : Nat} (ho : d.owner 0xC i = some f) (hh : d.halted f = false) (hm : fld (d.config f 0xC i) 1 1 = 1) :
    d.splice i = d.merge f i ((d.img f).ports 0xC i false) ((d.img f).ports 0xC i true) := by
  simp only [Dev.splice, ho, hh, hm, Bool.false_eq_true, if_false]

theorem Dev.splice_join {d : Dev} {i f : Nat} (ho : d.owner 0xC i = some f) (hh : d.halted f = false) (hm : fld (d.config f 0xC i) 1 1 = 2) :
    d.splice i = d.join f i ((d.img f).ports 0xC i false) ((d.img f).ports 0xC i true) := by
  simp only [Dev.splice, ho, hh, hm, Bool.false_eq_true, if_false]

/-- A splice in COPY mode with a sample in progress moves a granule of it. -/
theorem Dev.copy_active {d : Dev} {f i : Nat} {x : Endpoint} {r outs : List Endpoint} (h : (d.eng 0xC i).active = true) :
    d.copy f i (x :: r) outs = d.spliceMove f i x.ep outs (d.eng 0xC i) := by
  simp only [Dev.copy, h, if_true]

/-- A granule is forwarded only where every output holds a credit. -/
theorem Dev.spliceMove_eq {d d' : Dev} {f i ep : Nat} {outs : List Endpoint} {e : Eng} {g : Granule} (hs : e.skip = false)
    (ht : d.takeGranule ep e.pos e.tok = some (g, d')) :
    d.spliceMove f i ep outs e = if outs.all (fun o => d.hasRoom f o.ep) then d'.spliceOut f i outs e g else d.setEng 0xC i e := by
  simp only [Dev.spliceMove, ht, hs, Bool.false_eq_true, if_false]

/-- A granule without defect within the work cap is forwarded to every output (R94). -/
theorem Dev.spliceOut_eq {d p : Dev} {f i : Nat} {outs : List Endpoint} {e : Eng} {g : Granule} (hg : g.defect = 0)
    (hw : withinCap (d.workCap f 0xC i e.idx) (e.units + 1) = true) (hp : p = outs.foldl (fun d o => d.pushOut o.ep [g]) d) :
    d.spliceOut f i outs e g =
      if g.last then (p.setEng 0xC i Eng.idle).stageComplete f 0xC i e.pos e.tok else p.setEng 0xC i { e with units := e.units + 1 } := by
  subst hp
  simp only [Dev.spliceOut, hg, hw, ne_eq, not_true_eq_false, Bool.not_true, Bool.false_eq_true, if_false]

/-- A JOIN waits until its position is complete on every input. -/
theorem Dev.join_waits {d : Dev} {f i p t idx : Nat} {ins outs : List Endpoint} (ha : (d.eng 0xC i).active = false)
    (hl : lowest (ins.flatMap (fun x => d.inQ x.ep)) = some (p, t, idx)) (hn : ins.any (fun x => !(d.ofSample x.ep p t).any (fun g => g.last)) = true) :
    d.join f i ins outs = d := by
  have hall : ins.all (fun x => (d.ofSample x.ep p t).any (fun g => g.last)) = false := by
    rw [List.all_eq_not_any_not, hn]; rfl
  simp only [Dev.join, ha, hl, hall, Bool.false_eq_true, Bool.not_false, Bool.or_true, if_false, if_true]

theorem not_all_of_any_not {α : Type} {l : List α} {p : α → Bool} (h : l.any (fun x => !p x) = true) : ¬ l.all p = true := by
  rw [List.all_eq_not_any_not, h]; decide

/-- Settles O16: a channel moves one granule with its credit and tokens, and a splice one granule of its sample by its mode. -/
theorem channelsAndSplicesForward : Obligations.ChannelsAndSplicesForward := by
  refine ⟨?channels, ?splices⟩
  case channels =>
    rintro s ch f c g r x h hc rfl
    refine ⟨fun hq hx hh => ?_, fun hx => ?_, fun hq hh hp hk d hd => ?_, fun hw => ?_⟩
    · exact becomes_engine (f := (·.granuleWrite ch)) rfl h (Dev.granuleWrite_writes hc hq hx hh)
    · exact becomes_engine (f := (·.granuleWrite ch)) rfl h (Dev.granuleWrite_waits hc hx)
    · exact becomes_engine (f := (·.creditReturn ch)) rfl h (Dev.creditReturn_takes hc hq hh hp hk hd)
    · exact becomes_engine (f := (·.creditReturn ch)) rfl h (Dev.creditReturn_waits hc hw)
  case splices =>
    intro s i f ins outs h ho hh hins houts
    have hrun : ∀ x, s.dev.splice i = x → Becomes (.spliceGranule i) s x := fun x hx => becomes_engine (f := (·.splice i)) rfl h hx
    refine ⟨fun hm x r e g d hx he ha hs ht => ?copy, fun hm => hrun _ (by rw [Dev.splice_merge ho hh hm, hins, houts]),
      fun hm => hrun _ (by rw [Dev.splice_join ho hh hm, hins, houts]), fun hm ha p t idx hl hn => hrun _ ?waits⟩
    case copy =>
      subst he
      have hmove := (Dev.copy_active (f := f) (r := r) (outs := outs) ha).trans (Dev.spliceMove_eq hs ht)
      rw [← hx, hins, houts, ← Dev.splice_copy ho hh hm, ← houts] at hmove
      refine ⟨fun hroom => hrun _ (hmove.trans (if_neg (not_all_of_any_not hroom))),
        fun hroom hg hw p hp => ⟨fun hl => hrun _ (hmove.trans ((if_pos hroom).trans ?_)), fun hl => hrun _ (hmove.trans ((if_pos hroom).trans ?_))⟩⟩
      all_goals rw [Dev.spliceOut_eq hg hw hp, hl]; rfl
    case waits => rw [Dev.splice_join ho hh hm, ← hins, Dev.join_waits ha hl hn]

/-! ## The batch assembler -/

/-- The assembler with a granule of the sample that it gathers (R94, R134, R135). -/
theorem Dev.assemble_gathers {d d' e' : Dev} {f port fn : Nat} {ep : Endpoint} {l : Live} {e : Eng} {g : Granule} (hep : d.epOf 0xA f false port = some (fn, ep))
    (hd : d' = d.setInQ ep.ep ((d.inQ ep.ep).filter (fun g => !d.staleAt f g))) (hl : (d'.fn f).live.find? (fun l => !l.placed) = some l)
    (hw : l.waiting = false) (he : e = d'.eng 0xA f) (ha : e.active = true) (hpos : e.pos = l.pos) (htok : e.tok = l.tok) (hst : e.st = .splice port)
    (hroom : d'.asmWaits f (d'.batchOf f l.pos) = false) (hg : d'.takeGranule ep.ep l.pos l.tok = some (g, e')) (hm : e'.packMode f = 0) :
    d.assemble f port =
      if g.defect ≠ 0 then e'.asmDefect f l g.defect
      else if !withinCap (e'.workCap f 0xA f l.idx) (e.units + 1) then e'.asmDefect f l St.workCap
      else if e'.slotBytes f < (e.buf ++ g.data).length then e'.asmDefect f l St.outputLimit
      else if !g.last then e'.setEng 0xA f { e with
        buf := e.buf ++ g.data
        units := e.units + 1 }
      else e'.placeSample f l (e.buf ++ g.data) := by
  unfold Dev.assemble
  simp only [hep, ← hd, hl, hw, ← he, ha, hpos, htok, hst, hroom, hg, hm, and_self, if_true, true_and, Bool.false_eq_true, if_false, ne_eq,
    not_true_eq_false, Bool.false_and]

/-- A sample without tokens takes no place (R135). -/
theorem placeLoop_zero (rowTokens rows segMax fuel r o g : Nat) (first : Bool) :
    placeLoop rowTokens rows segMax (fuel + 1) r o g 0 first = some ((r, o, g), []) := rfl

/-- One turn of the loop of `place` within a row. -/
theorem placeLoop_row {rowTokens rows segMax fuel r o g n : Nat} {first : Bool} (hn : 0 < n) (ho : o ≠ rowTokens) (hg : g ≠ segMax) (hr : r < rows) :
    placeLoop rowTokens rows segMax (fuel + 1) r o g n first =
      (placeLoop rowTokens rows segMax fuel r (o + min n (rowTokens - o)) (g + 1) (n - min n (rowTokens - o)) false).map (fun x =>
        (x.1, ⟨r, g, o, min n (rowTokens - o), (if first then 0 else 1) + (if min n (rowTokens - o) < n then 2 else 0)⟩ :: x.2)) := by
  simp only [placeLoop, hn.ne', ho, hg, or_self, if_false, if_neg (show ¬ rows ≤ r by omega)]

/-- One turn of the loop of `place` at the end of a row or of its segment table. -/
theorem placeLoop_newRow {rowTokens rows segMax fuel r o g n : Nat} {first : Bool} (hn : 0 < n) (h : o = rowTokens ∨ g = segMax) :
    placeLoop rowTokens rows segMax (fuel + 1) r o g n first =
      if rows ≤ r + 1 then none else
      (placeLoop rowTokens rows segMax fuel (r + 1) (0 + min n (rowTokens - 0)) (0 + 1) (n - min n (rowTokens - 0)) false).map (fun x =>
        (x.1, ⟨r + 1, 0, 0, min n (rowTokens - 0), (if first then 0 else 1) + (if min n (rowTokens - 0) < n then 2 else 0)⟩ :: x.2)) := by
  simp only [placeLoop, hn.ne', h, if_false, if_true]

/-- Settles O17: a granule is gathered under the sample's bounds, and `place` fills rows from the first free token. -/
theorem assemblersPlaceSamples : Obligations.AssemblersPlaceSamples := by
  refine ⟨?gather, ?place⟩
  case gather =>
    intro s f port fn ep l e g d d' h hh hep hd hl hw he ha hpos htok hst hroom hg hm
    have hasm := Dev.assemble_gathers hep hd hl hw he ha hpos htok hst hroom hg hm
    have hrun : ∀ x, s.dev.assemble f port = x → Becomes (.assemblerGranule f port) s x := fun x hx =>
      becomes_engine (f := fun d => if d.halted f then d else d.assemble f port) rfl h ((if_neg (by rw [hh]; decide)).trans hx)
    refine ⟨fun h0 => hrun _ (hasm.trans (if_pos h0)), fun h0 hc => hrun _ ?_, fun h0 hc => ?_⟩
    · rw [hasm, h0, hc]; rfl
    · rw [h0, hc, if_neg (not_not.2 rfl), if_neg (by decide)] at hasm
      refine ⟨fun hlen => hrun _ (hasm.trans (if_pos hlen)), fun hlen hlast => hrun _ ?_, fun hlen hlast => hrun _ ?_⟩
      all_goals rw [hasm, if_neg (by omega), hlast]; rfl
  case place =>
    intro rowTokens rows segMax fuel r o g n first
    refine ⟨placeLoop_zero .., fun hn ho hg hr hfit => ?_, fun hn h hr => ?_, fun hn h hr _ hlong => ?_⟩
    · rw [placeLoop_row hn ho hg hr, min_eq_left hfit, Nat.sub_self, placeLoop_zero]
      simp only [Option.map_some, lt_irrefl, if_false, Nat.add_zero]
    · rw [placeLoop_newRow hn h, if_pos hr]
    · rw [placeLoop_newRow hn h, if_neg (by omega), Nat.sub_zero, min_eq_right hlong.le, if_pos hlong, Nat.zero_add]

/-! ## Delivery -/

/-- Delivery goes on with the oldest batch of a consumer, unless it waits (R132). -/
theorem Dev.shardDelivery_goesOn {d : Dev} {f c : Nat} {b : Batch}
    (hb : (d.fn f).batches.find? (fun b => b.manifest.isSome && c < b.consumers && b.stateOf c != 4) = some b) (hf : Map.find b.fails c = none)
    (hs : b.signing = false) (hst : b.stateOf c = 0 ∨ b.stateOf c = 2) : d.shardDelivery f c = (d.deliverNext f b c).settleShards := by
  have hwait : ¬ (b.signing = true ∨ b.stateOf c = 1 ∨ b.stateOf c = 3 ∨ b.stateOf c = 0 ∧ (Map.find b.fails c).isSome = true) := by
    rw [hs, hf]
    rcases hst with h | h <;> rw [h] <;> decide
  simp only [Dev.shardDelivery, hb]
  exact if_neg hwait

/-- A batch still to be signed waits (R139). -/
theorem Dev.shardDelivery_signing {d : Dev} {f c : Nat} {b : Batch}
    (hb : (d.fn f).batches.find? (fun b => b.manifest.isSome && c < b.consumers && b.stateOf c != 4) = some b) (hs : b.signing = true) :
    d.shardDelivery f c = d := by
  simp only [Dev.shardDelivery, hb]
  exact if_pos (.inl hs)

/-- A ring of no slots holds the shard (R133). -/
theorem Dev.deliverNext_noRing {d : Dev} {f c node win dataOff manOff ring : Nat} {b : Batch} (hc : b.consumer c = (node, win, dataOff, manOff, ring))
    (hr : ring = 0) : d.deliverNext f b c = d.holdShard f b c 0x0201 := by
  simp only [Dev.deliverNext, hc, hr, if_true]; rfl

/-- The shard goes first (R132). -/
theorem Dev.deliverNext_shard {d : Dev} {f c node win dataOff manOff ring : Nat} {b : Batch} (hc : b.consumer c = (node, win, dataOff, manOff, ring))
    (hr : ring ≠ 0) (hst : b.stateOf c = 0) (hd : (b.shardBytes c).isEmpty = false) :
    d.deliverNext f b c = (d.setFn f ((d.fn f).setBatch (b.setState c 1))).deliverBytes f (b.setState c 1) c node win
      (dataOff + b.no % ring * b.dataStride) (b.shardBytes c) := by
  simp only [Dev.deliverNext, hc, hr, hst, hd, Bool.not_false, and_self, if_true, if_false]; rfl

/-- The manifest follows its shard (R132). -/
theorem Dev.deliverNext_manifest {d : Dev} {f c node win dataOff manOff ring : Nat} {b : Batch} (hc : b.consumer c = (node, win, dataOff, manOff, ring))
    (hr : ring ≠ 0) (hst : b.stateOf c = 2) :
    d.deliverNext f b c = (d.setFn f ((d.fn f).setBatch (b.setState c 3))).deliverBytes f (b.setState c 3) c node win
      (manOff + b.no % ring * alignUp 4096 (b.manifest.getD []).length) (b.manifest.getD []) := by
  simp only [Dev.deliverNext, hc, hr, hst, if_false]
  exact if_neg (fun h => absurd h.1 (by decide))

/-- SEC signs the manifest of the only batch of its function (R139, R526). -/
theorem Dev.manifestSign_one {d : Dev} {x : SignItem} {r : List SignItem} {b : Batch} (hq : d.sec.signQ = x :: r) (hb : (d.fn x.fn).batches = [b])
    (hn : b.no = x.batch) (hs : b.signing = true) :
    d.manifestSign = ((({ d with sec := { d.sec with signQ := r } }.retire (poolNo 0x15 0) 1).addWord R.SEC_SIGNED 1)).setFn x.fn { d.fn x.fn with
      batches := [{ b with
        signing := false
        manifest := b.manifest.map (fun m => m ++ edSign d.sec.seed m) }] } := by
  have hrun : (({ d with sec := { d.sec with signQ := r } } : Dev).retire (poolNo 0x15 0) 1).fn x.fn = d.fn x.fn := rfl
  simp only [Dev.manifestSign, hq, hrun, hb, List.any_cons, List.any_nil, hn, hs, decide_true, Bool.and_self, Bool.or_false, if_true, List.map_cons, List.map_nil,
    and_self]
  rfl

/-- Settles O18: delivery takes the shard and then the manifest, and SEC the manifest at the head of its queue. -/
theorem shardsAndManifestsAreDelivered : Obligations.ShardsAndManifestsAreDelivered := by
  refine ⟨fun s f c b node win dataOff manOff ring h hb hf hc => ⟨fun hs => ?signing, fun hs hst hr => ?noRing, fun hs hst hr hd d hd' => ?shard,
    fun hs hst hr d hd' => ?manifest⟩, fun s x r b h hq hb hn hs d hd => ?sign⟩
  case signing => exact becomes_engine (f := (·.shardDelivery f c)) rfl h (Dev.shardDelivery_signing hb hs)
  case noRing =>
    refine becomes_engine (f := (·.shardDelivery f c)) rfl h ((Dev.shardDelivery_goesOn hb hf hs (.inl hst)).trans ?_)
    rw [Dev.deliverNext_noRing hc hr]
  case shard =>
    subst hd'
    refine becomes_engine (f := (·.shardDelivery f c)) rfl h ((Dev.shardDelivery_goesOn hb hf hs (.inl hst)).trans ?_)
    rw [Dev.deliverNext_shard hc hr hst hd]
  case manifest =>
    subst hd'
    refine becomes_engine (f := (·.shardDelivery f c)) rfl h ((Dev.shardDelivery_goesOn hb hf hs (.inr hst)).trans ?_)
    rw [Dev.deliverNext_manifest hc hr hst]
  case sign =>
    subst hd
    exact becomes_engine (f := Dev.manifestSign) rfl h (Dev.manifestSign_one hq hb hn hs)

end Sys2Proof.Machine
end

section
/-! SUPPORT. The media engine: dies that fail, pages programmed, blocks erased, moved and freed (R149, R150, R154, R156, R161 to R172, R176). -/

namespace Sys2Proof.Machine

/-! ## Dies, pages and blocks -/

/-- A die that fails is marked, counted and raised once (R154). -/
theorem Dev.failDie_new {d : Dev} {ch die : Nat} (h : d.dieFailed ch die = false) :
    d.failDie ch die = ((d.set ⟨R.MED_DIE_FAIL (ch / 2), 32 * (ch % 2) + die, 32 * (ch % 2) + die⟩ 1).inc R.MED_STATUS_DIES_FAILED).raise 130 (ch * 32 + die) :=
  if_neg (by rw [h]; decide)

theorem Dev.failDie_again {d : Dev} {ch die : Nat} (h : d.dieFailed ch die = true) : d.failDie ch die = d := if_pos h

theorem any_isNone_map_some {α : Type} (l : List α) : (l.map some).any (·.isNone) = false := by
  induction l with
  | nil => rfl
  | cons x l ih => exact ih

/-- A data page whose codewords the write buffer holds (R149). -/
theorem Dev.pageProgram_ready {d : Dev} {k page m : Nat} {w : List Bytes} (ho : d.mOnline = true) (hb : (d.sb k).members.length = 32) (hm : m < 32)
    (hp : m ≠ page % 32) (hd : (d.sb k).data.contains (32 * page + m) = false)
    (hw : (List.range 4).map (fun c => Map.find d.med.wbuf (placeNo k page m c)) = w.map some) (ok : Bool) :
    d.pageProgram k page m ok = if ok then ((d.modMed (fun x => { x with
        nand := ((List.range 4).zip (w.map some)).foldl (fun l e => Map.insert l (pcaOf ((d.sb k).members.getD m 0) page e.1) (e.2.getD [])) x.nand })).setSb k
          { d.sb k with data := insNat (32 * page + m) (d.sb k).data }).hlth pagePrograms
      else d.programFailed k m := by
  have hready : ¬ ((!d.mOnline) = true ∨ (d.sb k).members.length ≠ 32 ∨ 31 < m ∨ m = page % 32 ∨ (d.sb k).data.contains (32 * page + m) = true ∨
      (w.map some).any (·.isNone) = true) := by
    rw [ho, hb, hd, any_isNone_map_some]
    simp only [Bool.not_true, Bool.false_eq_true, ne_eq, not_true_eq_false, hp, false_or, or_false]
    omega
  unfold Dev.pageProgram
  simp only [hw]
  rw [if_neg hready]
  cases ok <;> rfl

/-- The parity page of one codeword column: the XOR of the stripe's data pages (R149). -/
def Dev.parityOf (d : Dev) (k page c : Nat) : Bytes :=
  ((List.range 32).filter (fun j => j != page % 32)).foldl (fun acc j =>
    xorBytes acc ((Map.find d.med.nand (pcaOf ((d.sb k).members.getD j 0) page c)).getD [])) (List.replicate 3840 0)

/-- A stripe whose data pages are all programmed gets its parity page (R149). -/
theorem Dev.parityProgram_ready {d : Dev} {k page : Nat} (ho : d.mOnline = true) (hb : (d.sb k).members.length = 32)
    (hp : (d.sb k).prot.contains page = false) (hd : ∀ j, j < 32 → j ≠ page % 32 → (d.sb k).data.contains (32 * page + j) = true) (ok : Bool) :
    d.parityProgram k page ok = if ok then ((d.modMed (fun x => { x with
        nand := ((List.range 4).zip ((List.range 4).map (d.parityOf k page))).foldl (fun l e =>
          Map.insert l (pcaOf ((d.sb k).members.getD (page % 32) 0) page e.1) e.2) x.nand
        wbuf := x.wbuf.filter (fun e => e.1 / 128 ≠ k * 1024 + page) })).setSb k { d.sb k with prot := insNat page (d.sb k).prot }).hlth pagePrograms
      else d.programFailed k (page % 32) := by
  have hall : ((List.range 32).filter (· != page % 32)).all (fun m => (d.sb k).data.contains (32 * page + m)) = true := by
    rw [List.all_eq_true]
    intro j hj
    rw [List.mem_filter, List.mem_range, bne_iff_ne] at hj
    exact hd j hj.1 hj.2
  have hready : ¬ ((!d.mOnline) = true ∨ (d.sb k).members.length ≠ 32 ∨ (d.sb k).prot.contains page = true ∨
      (!((List.range 32).filter (· != page % 32)).all (fun m => (d.sb k).data.contains (32 * page + m))) = true) := by
    rw [ho, hb, hp, hall]; decide
  unfold Dev.parityProgram
  simp only
  rw [if_neg hready]
  cases ok <;> rfl

/-- A block that a live relocation names is not erased (R163). -/
theorem Dev.blockErase_named {d : Dev} {a : Nat} (h : d.med.live.reloc.any (fun x => x.old = a) = true) (ok : Bool) : d.blockErase a ok = d :=
  if_pos (.inr (.inl h))

/-- A freed block that nothing names loses its pages (R163, R176). -/
theorem Dev.blockErase_freed {d e : Dev} {a : Nat} (hst : (d.blk a).st = 2) (hr : d.med.live.reloc.any (fun x => x.old = a) = false)
    (hf : d.med.freeing.contains a = false) (he : e = d.modMed (fun x => { x with nand := x.nand.filter (fun e => e.1 / 4096 ≠ a) })) (ok : Bool) :
    d.blockErase a ok = if ok then e.returnBlock a else (e.setBlkSt a 3).hlth eraseFails := by
  subst he
  have hfreed : ¬ ((d.blk a).st ≠ 2 ∨ d.med.live.reloc.any (fun x => x.old = a) = true ∨ d.med.freeing.contains a = true) := by
    rw [hst, hr, hf]; decide
  exact if_neg hfreed

/-- An erased block within its endurance returns to the free pool, the spare reserve first (R176). -/
theorem Dev.returnBlock_fresh {d : Dev} {a : Nat} (h : d.endurance = 0 ∨ (d.blk a).erases + 1 < d.endurance) :
    d.returnBlock a = ((d.setBlk a ⟨0, (d.blk a).erases + 1, 0⟩).hlth blockErases).modLive (fun m => { m with
      spareUsed := Map.upd 0 m.spareUsed (blkChan a) (· - 1) }) := by
  have hw : ¬ (d.endurance ≠ 0 ∧ d.endurance ≤ (d.blk a).erases + 1) := by omega
  simp only [Dev.returnBlock, if_neg hw]

theorem Dev.returnBlock_worn {d : Dev} {a : Nat} (h0 : d.endurance ≠ 0) (h : d.endurance ≤ (d.blk a).erases + 1) :
    d.returnBlock a = (d.setBlk a ⟨3, (d.blk a).erases + 1, 0⟩).hlth blockErases := by
  simp only [Dev.returnBlock, if_pos (And.intro h0 h)]

/-- Settles O20: a die fails once, and a page or block is written where the conditions of R149 and R163 hold. -/
theorem pagesAndBlocksAreWritten : Obligations.PagesAndBlocksAreWritten := by
  refine ⟨fun s ch die h hch hdie => ?dies, fun s k page m b h ho hb hlen => ?pages, fun s a d h hp => ?blocks⟩
  case dies =>
    have hrun : ∀ x, s.dev.failDie ch die = x → Becomes (.nandCommandTimeout ch die true) s x := fun x hx =>
      becomes_live (f := fun d => if true && ch < 32 && die < d.mDies then d.failDie ch die else d) rfl h ((if_pos (by simp [hch, hdie])).trans hx)
    exact ⟨becomes_live (f := fun d => if false && ch < 32 && die < d.mDies then d.failDie ch die else d) rfl h rfl,
      fun hf => hrun _ (Dev.failDie_new hf), fun hf => hrun _ (Dev.failDie_again hf)⟩
  case pages =>
    subst hb
    refine ⟨fun hm hp hd w _ hw => ?_, fun hp hd => ?_⟩
    · have hpage := Dev.pageProgram_ready ho hlen hm hp hd hw
      exact ⟨becomes_live (f := (·.pageProgram k page m false)) rfl h (hpage false), becomes_live (f := (·.pageProgram k page m true)) rfl h (hpage true)⟩
    · have hpar := Dev.parityProgram_ready ho hlen hp hd
      refine ⟨becomes_live (f := (·.parityProgram k page false)) rfl h (hpar false), (List.range 4).map (s.dev.parityOf k page), fun c hc => ?_,
        becomes_live (f := (·.parityProgram k page true)) rfl h (hpar true)⟩
      rw [List.getD_eq_getElem?_getD, List.getElem?_map, List.getElem?_range hc]
      rfl
  case blocks =>
    have hrun : ∀ ok x, s.dev.blockErase a ok = x → Becomes (.blockErase a ok) s x := fun ok x hx =>
      becomes_live (f := fun d => if d.inP0 then d.blockErase a ok else d) rfl h ((if_pos hp).trans hx)
    refine ⟨fun hr ok => hrun ok _ (Dev.blockErase_named hr ok), fun hst hr hf hd => ?_⟩
    have hfreed := Dev.blockErase_freed hst hr hf hd
    exact ⟨hrun _ _ (hfreed false), fun hw => hrun _ _ ((hfreed true).trans (Dev.returnBlock_fresh hw)),
      fun h0 hw => hrun _ _ ((hfreed true).trans (Dev.returnBlock_worn h0 hw))⟩

/-! ## Relocation -/

/-- The parts of `relocRegs`: whether the table is over its bounds (R167), what MED_RELOC counts, and the map epoch with its floor (R161). -/
def Dev.showStale (d : Dev) (n : Nat) : Dev :=
  if 786432 ≤ n then d.set R.MED_STATUS_RELOC_STALE 1 else if n ≤ 524288 then d.set R.MED_STATUS_RELOC_STALE 0 else d
def Dev.showFull (d : Dev) (n : Nat) : Dev := d.set R.MED_STATUS_RELOC_FULL (b2n (1048576 ≤ n))
def Dev.showOverlimit (d : Dev) : Dev := d.set R.MED_RELOC_OVERLIMIT (min d.med.queue.length (2 ^ 20 - 1))
def Dev.showEpoch (d : Dev) : Dev := (d.set R.MED_MAP_EPOCH_EPOCH d.med.live.epoch).set R.MED_MAP_FLOOR_FLOOR d.med.live.floor

theorem Dev.relocRegs_eq (d : Dev) : d.relocRegs =
    ((((d.set R.MED_RELOC_LIVE d.med.live.reloc.length).showStale d.med.live.reloc.length).showFull d.med.live.reloc.length).showOverlimit).showEpoch := rfl

/-- A register shown does not change what is not a register. -/
theorem Dev.showStale_cases (d : Dev) (n : Nat) : d.showStale n = d ∨ ∃ v, d.showStale n = d.set R.MED_STATUS_RELOC_STALE v := by
  unfold Dev.showStale
  split
  · exact .inr ⟨1, rfl⟩
  · split
    · exact .inr ⟨0, rfl⟩
    · exact .inl rfl

@[simp] theorem Dev.showStale_med (d : Dev) (n : Nat) : (d.showStale n).med = d.med := by
  obtain h | ⟨v, h⟩ := d.showStale_cases n <;> rw [h]; exact Dev.set_med ..
@[simp] theorem Dev.showStale_mem (d : Dev) (n : Nat) : (d.showStale n).mem = d.mem := by
  obtain h | ⟨v, h⟩ := d.showStale_cases n <;> rw [h]; exact Dev.set_mem ..
@[simp] theorem Dev.showStale_seq (d : Dev) (n : Nat) : (d.showStale n).seq = d.seq := by
  obtain h | ⟨v, h⟩ := d.showStale_cases n <;> rw [h]; exact Dev.set_seq ..

@[simp] theorem Dev.showFull_med (d : Dev) (n : Nat) : (d.showFull n).med = d.med := Dev.set_med ..
@[simp] theorem Dev.showFull_mem (d : Dev) (n : Nat) : (d.showFull n).mem = d.mem := Dev.set_mem ..
@[simp] theorem Dev.showFull_seq (d : Dev) (n : Nat) : (d.showFull n).seq = d.seq := Dev.set_seq ..
@[simp] theorem Dev.showOverlimit_med (d : Dev) : d.showOverlimit.med = d.med := Dev.set_med ..
@[simp] theorem Dev.showOverlimit_mem (d : Dev) : d.showOverlimit.mem = d.mem := Dev.set_mem ..
@[simp] theorem Dev.showOverlimit_seq (d : Dev) : d.showOverlimit.seq = d.seq := Dev.set_seq ..
@[simp] theorem Dev.showEpoch_med (d : Dev) : d.showEpoch.med = d.med := rfl
@[simp] theorem Dev.showEpoch_mem (d : Dev) : d.showEpoch.mem = d.mem := rfl
@[simp] theorem Dev.showEpoch_seq (d : Dev) : d.showEpoch.seq = d.seq := rfl

theorem Dev.showEpoch_get (d : Dev) : d.showEpoch.get R.MED_MAP_EPOCH_EPOCH = d.med.live.epoch % 2 ^ 32 := by
  rw [Dev.showEpoch, Dev.get_set_off _ _ _ _ (by decide), Dev.get_set_same _ _ _ (by decide) (by decide)]
  rfl

@[simp] theorem Dev.relocRegs_med (d : Dev) : d.relocRegs.med = d.med := by
  rw [Dev.relocRegs_eq, Dev.showEpoch_med, Dev.showOverlimit_med, Dev.showFull_med, Dev.showStale_med, Dev.set_med]
@[simp] theorem Dev.relocRegs_mem (d : Dev) : d.relocRegs.mem = d.mem := by
  rw [Dev.relocRegs_eq, Dev.showEpoch_mem, Dev.showOverlimit_mem, Dev.showFull_mem, Dev.showStale_mem, Dev.set_mem]
@[simp] theorem Dev.relocRegs_seq (d : Dev) : d.relocRegs.seq = d.seq := by
  rw [Dev.relocRegs_eq, Dev.showEpoch_seq, Dev.showOverlimit_seq, Dev.showFull_seq, Dev.showStale_seq, Dev.set_seq]

/-- MED_MAP_EPOCH shows the map epoch (R161). -/
theorem Dev.relocRegs_epoch (d : Dev) : d.relocRegs.get R.MED_MAP_EPOCH_EPOCH = d.med.live.epoch % 2 ^ 32 := by
  rw [Dev.relocRegs_eq, Dev.showEpoch_get, Dev.showOverlimit_med, Dev.showFull_med, Dev.showStale_med, Dev.set_med]

/-- A block is moved to an erased block of its channel (R161, R172). -/
theorem Dev.moveBlock_moves {d e : Dev} {old new counter : Nat} {ps : List (Nat × Bytes)} (hm : d.mayMove old new = true)
    (hps : ps = (d.med.nand.filter (fun e => e.1 / 4096 = old)).map (fun e => (e.1 % 4096 + new * 4096, e.2)))
    (he : e = ((d.sense_ old (ps.length / 4)).modMed (fun x => { x with
      nand := ps.foldl (fun l e => Map.insert l e.1 e.2) x.nand
      move := some (old, new) })).useSpare (blkChan old) new) : d.moveBlock old new counter true = e.hlth counter := by
  subst hps he
  simp only [Dev.moveBlock, hm, Bool.not_true, Bool.false_eq_true, if_false]

theorem Dev.moveBlock_fails {d : Dev} {old new counter : Nat} (hm : d.mayMove old new = true) :
    d.moveBlock old new counter false = (d.setBlkSt new 3).hlth programFails := by
  simp only [Dev.moveBlock, hm, Bool.not_true, Bool.false_eq_true, Bool.not_false, if_false, if_true]

theorem Dev.moveBlock_waits {d : Dev} {old new : Nat} (hm : d.mayMove old new = false) (counter : Nat) (ok : Bool) : d.moveBlock old new counter ok = d :=
  if_pos (by rw [hm]; rfl)

/-- The entry of a committed move: the epoch rises where none has risen since the latest one was exported (R162, R164). -/
theorem Dev.relocCommit_entry {d : Dev} {old new ep : Nat} (hm : d.med.move = some (old, new))
    (hep : d.med.live.exported = true ∧ d.med.live.raised = false ∧ ep = d.med.live.epoch + 1 ∨
      (d.med.live.exported = false ∨ d.med.live.raised = true) ∧ ep = d.med.live.epoch) :
    d.relocCommit.med.live.epoch = ep ∧ d.relocCommit.med.live.reloc = d.med.live.reloc ++ [⟨old, new, ep⟩] ∧ d.relocCommit.med.move = none ∧
      d.relocCommit.med.saved.reloc = d.relocCommit.med.live.reloc ∧ d.relocCommit.mem = d.mem ∧
      d.relocCommit.get R.MED_MAP_EPOCH_EPOCH = ep % 2 ^ 32 := by
  have hraise : (if (d.med.live.exported && !d.med.live.raised) = true then d.med.live.epoch + 1 else d.med.live.epoch) = ep := by
    rcases hep with ⟨he, hr, rfl⟩ | ⟨he | hr, rfl⟩
    · rw [he, hr]; rfl
    · rw [he]; rfl
    · rw [hr, Bool.not_true, Bool.and_false]; rfl
  simp only [Dev.relocCommit, hm, Dev.relocRegs_med, Dev.relocRegs_mem, Dev.relocRegs_epoch, Dev.modMed, Dev.modLive, hraise, and_self]

/-- A MED_MAP_FLOOR that is refused (R168). -/
theorem Dev.floorWrite_refused {d : Dev} {v : Nat} {st : Status} (hst : st ≠ St.ok)
    (h : (if v < d.med.live.floor ∨ d.med.live.epoch < v then St.mapFloorInvalid else if d.mapEpochs.any (fun e => e < v) then St.mapFloorInUse else St.ok) = st) :
    d.floorWrite v = d.setSt R.MED_MAP_FLOOR_STATUS st := by
  subst h
  exact if_pos hst

/-- The floor raised: entries at or below it are gone, and their OLD blocks are to be freed (R168). -/
def Dev.raiseFloor (d : Dev) (v : Nat) : Dev :=
  let gone := d.med.live.reloc.filter (fun x => x.epoch ≤ v)
  let d := d.modLive (fun m => { m with
    floor := v
    reloc := m.reloc.filter (fun x => v < x.epoch)
    sbs := m.sbs.map (fun e => (e.1, { e.2 with members := e.2.members.map (fun a => resolveIn gone 0 gone.length a) })) })
  d.modMed (fun m => { m with
    freeing := m.freeing ++ gone.map (·.old)
    saved := { m.saved with
      floor := v
      reloc := m.live.reloc
      sbs := m.saved.sbs.map (fun e => (e.1, { e.2 with members := e.2.members.map (fun a => resolveIn gone 0 gone.length a) })) } })

theorem Dev.raiseFloor_frees (d : Dev) (v : Nat) :
    (d.raiseFloor v).med.live.floor = v ∧ (d.raiseFloor v).med.live.reloc = d.med.live.reloc.filter (fun x => v < x.epoch) ∧
      (d.raiseFloor v).med.freeing = d.med.freeing ++ (d.med.live.reloc.filter (fun x => x.epoch ≤ v)).map (·.old) ∧ (d.raiseFloor v).mem = d.mem ∧
      (d.raiseFloor v).med.nand = d.med.nand ∧ (d.raiseFloor v).seq = d.seq := ⟨rfl, rfl, rfl, rfl, rfl, rfl⟩

/-- An accepted MED_MAP_FLOOR raises the floor (R168). -/
theorem Dev.floorWrite_accepted {d : Dev} {v : Nat} (hl : d.med.live.floor ≤ v) (hu : v ≤ d.med.live.epoch) (hm : d.mapEpochs.any (fun e => e < v) = false) :
    d.floorWrite v = ((d.setSt R.MED_MAP_FLOOR_STATUS St.ok).raiseFloor v).relocRegs := by
  have hst : (if v < d.med.live.floor ∨ d.med.live.epoch < v then St.mapFloorInvalid else
      if d.mapEpochs.any (fun e => e < v) then St.mapFloorInUse else St.ok) = St.ok := by
    rw [if_neg (by omega), hm]; rfl
  simp only [Dev.floorWrite, hst]
  rw [if_neg (fun h : St.ok ≠ St.ok => h rfl)]
  exact congrArg Dev.relocRegs rfl

/-- What an accepted MED_MAP_FLOOR frees (R168). -/
theorem Dev.floorWrite_frees {d : Dev} {v : Nat} (hl : d.med.live.floor ≤ v) (hu : v ≤ d.med.live.epoch) (hm : d.mapEpochs.any (fun e => e < v) = false) :
    (d.floorWrite v).med.live.floor = v ∧ (d.floorWrite v).med.live.reloc = d.med.live.reloc.filter (fun x => v < x.epoch) ∧
      (d.floorWrite v).med.freeing = d.med.freeing ++ (d.med.live.reloc.filter (fun x => x.epoch ≤ v)).map (·.old) ∧ (d.floorWrite v).mem = d.mem ∧
      (d.floorWrite v).med.nand = d.med.nand ∧ (d.floorWrite v).seq = d.seq := by
  obtain ⟨hfloor, hreloc, hfreeing, hmem, hnand, hseq⟩ := (d.setSt R.MED_MAP_FLOOR_STATUS St.ok).raiseFloor_frees v
  rw [Dev.setSt_med] at hreloc hfreeing hnand
  rw [Dev.floorWrite_accepted hl hu hm, Dev.relocRegs_med, Dev.relocRegs_mem, Dev.relocRegs_seq, hfloor, hreloc, hfreeing, hmem, hnand, hseq]
  exact ⟨rfl, rfl, rfl, Dev.setSt_mem .., rfl, Dev.setSt_seq ..⟩

/-- BLOCK_REFRESH takes the block at the head of the refresh queue (R171). -/
theorem becomes_blockRefresh {s : State} {old new : Nat} {r : List Nat} {ok : Bool} {d : Dev} (h : s.Live) (hq : s.dev.med.queue = old :: r)
    (hd : s.dev.moveBlock old new refreshes ok = d) : Becomes (.blockRefresh new ok) s d := by
  refine becomes_live (f := fun d => match d.med.queue with
    | [] => d
    | old :: _ => d.moveBlock old new refreshes ok) rfl h ?_
  rw [hq]
  exact hd

/-- What BLOCK_REPAIR does with the oldest block queued for repair (R150, R156). -/
def Dev.repairBlock (d : Dev) (old : Nat) (rest : List Nat) (new : Nat) (ok : Bool) : Dev :=
  if d.blkSealed old then d.moveBlock old new repairs ok
  else
    match d.med.live.sbs.findSome? (fun e => (e.2.members.findIdx? (· == old)).map (fun m => (e.1, m))) with
    | none => d.modMed (fun m => { m with repair := rest })
    | some (k, m) =>
      match (if ok then d.replaceMember k m else none) with
      | some d => (d.modMed (fun m => { m with repair := rest })).hlth repairs
      | none => d

theorem becomes_blockRepair {s : State} {old new : Nat} {r : List Nat} {ok : Bool} {d : Dev} (h : s.Live) (hq : s.dev.med.repair = old :: r)
    (hd : s.dev.repairBlock old r new ok = d) : Becomes (.blockRepair new ok) s d := by
  refine becomes_live (f := fun d => match d.med.repair with
    | [] => d
    | old :: rest => d.repairBlock old rest new ok) rfl h ?_
  rw [hq]
  exact hd

/-- A block of a sealed namespace is repaired by a move. -/
theorem Dev.repairBlock_sealed {d : Dev} {old new : Nat} {r : List Nat} {ok : Bool} (hs : d.blkSealed old = true) :
    d.repairBlock old r new ok = d.moveBlock old new repairs ok := if_pos hs

/-- A block of no superblock leaves the queue. -/
theorem Dev.repairBlock_gone {d : Dev} {old new : Nat} {r : List Nat} {ok : Bool} (hs : d.blkSealed old = false)
    (hk : d.med.live.sbs.findSome? (fun e => (e.2.members.findIdx? (· == old)).map (fun m => (e.1, m))) = none) :
    d.repairBlock old r new ok = d.modMed (fun m => { m with repair := r }) := by
  simp only [Dev.repairBlock, hs, hk, Bool.false_eq_true, if_false]

/-- A member of a superblock is replaced in it (R156). -/
theorem Dev.repairBlock_member {d e : Dev} {old new k m : Nat} {r : List Nat} (hs : d.blkSealed old = false)
    (hk : d.med.live.sbs.findSome? (fun e => (e.2.members.findIdx? (· == old)).map (fun m => (e.1, m))) = some (k, m)) (he : d.replaceMember k m = some e) :
    d.repairBlock old r new true = (e.modMed (fun m => { m with repair := r })).hlth repairs := by
  simp only [Dev.repairBlock, hs, hk, he, Bool.false_eq_true, if_false, if_true]

/-- Settles O21: a move copies a block and commits as an entry, and the floor frees entries. -/
theorem blocksAreMovedAndFreed : Obligations.BlocksAreMovedAndFreed := by
  refine ⟨fun s old new r d h => ⟨fun hm ps hps hd => ⟨fun hq => ⟨?refresh, ?refreshFails⟩, fun hq hs => ?repair⟩,
    fun hq hs => ⟨fun hk ok => ?gone, fun k m e hk he => ?member⟩, fun hm hq ok => ?waits, fun hm ep hep => ?commit⟩,
    fun s v n h hn => ⟨fun hb => ?invalid, fun hl hu hm => ?inUse, fun hl hu hm => ?accepted, ?free⟩⟩
  case refresh => exact becomes_blockRefresh h hq (Dev.moveBlock_moves hm hps hd)
  case refreshFails => exact becomes_blockRefresh h hq (Dev.moveBlock_fails hm)
  case repair => exact becomes_blockRepair h hq ((Dev.repairBlock_sealed hs).trans (Dev.moveBlock_moves hm hps hd))
  case gone => exact becomes_blockRepair h hq (Dev.repairBlock_gone hs hk)
  case member => exact becomes_blockRepair h hq (Dev.repairBlock_member hs hk he)
  case waits => exact becomes_blockRefresh h hq (Dev.moveBlock_waits hm refreshes ok)
  case commit => exact ⟨_, becomes_live (f := (·.relocCommit)) rfl h rfl, Dev.relocCommit_entry hm hep⟩
  case free =>
    exact becomes_live (f := fun d => d.med.freeing.foldl (fun e a => e.returnBlock a) (d.modMed (fun m => { m with
      freeing := []
      nand := m.nand.filter (fun e => !d.med.freeing.contains (e.1 / 4096)) }))) rfl h rfl
  all_goals
    subst hn
    have hrun : ∀ x, s.dev.floorWrite (getBits v 31 0) = x → Becomes (.mapFloorWrite v) s (x.reply 0) := fun x hx =>
      becomes_live (f := fun d => (d.floorWrite (getBits v 31 0)).reply St.ok) rfl h (congrArg (fun d : Dev => d.reply St.ok) hx)
  case invalid => exact hrun _ (Dev.floorWrite_refused (by decide) (if_pos hb))
  case inUse => exact hrun _ (Dev.floorWrite_refused (by decide) (by rw [if_neg (by omega), hm]; rfl))
  case accepted => exact ⟨_, hrun _ rfl, Dev.floorWrite_frees hl hu hm⟩

end Sys2Proof.Machine
end

section
/-! SUPPORT. Storage commands as they start: the GO of a task set and the checks of R187 in their order (R182 to R188). -/

namespace Sys2Proof.Machine

/-! ## The GO of a task set -/

/-- A task set's registers as a GO leaves them before the checks (R182). -/
def Dev.stcCleared (d : Dev) (t : Nat) (op : Nat) : Dev :=
  (List.range 8).foldl (fun d k => d.setWord (R.STC_TASK_PART t k) 0)
    ((((d.setWord (R.STC_TASK_STATUS t) 0).set (R.STC_TASK_STATUS_OPCODE t) op).setWord (R.STC_TASK_RESULT t) 0).setWord (R.STC_TASK_PART_MASK t) 0)

/-- A GO on a free set after a fatal cause (R475). -/
theorem Dev.stcGo_fatal {d e : Dev} {t : Nat} (hb : d.has (R.STC_TASK_STATUS_BUSY t) = false) (he : e = d.stcCleared t (d.stcTask t).op) (hf : e.fatal = true) :
    d.stcGo t = e.stcComplete t 0x0F04 0 := by
  subst he
  unfold Dev.stcCleared at hf
  simp only [Dev.stcGo, hb, hf, Bool.false_eq_true, if_false, if_true]
  rfl

/-- A GO whose checks end the command at once (R187). -/
theorem Dev.stcGo_ends {d e w : Dev} {t : Nat} {st : Status} {runs : Bool} (hb : d.has (R.STC_TASK_STATUS_BUSY t) = false)
    (he : e = d.stcCleared t (d.stcTask t).op) (hf : e.fatal = false) (hw : w = e.powerWake.set (R.STC_TASK_STATUS_BUSY t) 1)
    (hc : w.stcCheck (d.stcTask t) = (st, runs)) (hend : st ≠ 0 ∨ runs = false) : d.stcGo t = w.stcComplete t st 0 := by
  subst hw he
  unfold Dev.stcCleared at hf hc ⊢
  simp only [Dev.stcGo, hb, hf, hc, Bool.false_eq_true, if_false]
  exact if_pos (hend.imp id (fun h => by rw [h]; rfl))

/-- A GO whose command waits in line (R187, R190). -/
theorem Dev.stcGo_waits {d e w : Dev} {t : Nat} (hb : d.has (R.STC_TASK_STATUS_BUSY t) = false)
    (he : e = d.stcCleared t (d.stcTask t).op) (hf : e.fatal = false) (hw : w = e.powerWake.set (R.STC_TASK_STATUS_BUSY t) 1)
    (hc : w.stcCheck (d.stcTask t) = (0, true))
    (hr : (d.stcTask t).op ≠ 2 ∨ (w.modMed (fun m => { m with tasks := m.tasks ++ [d.stcTask t] })).bufRemote (d.stcTask t).buf = false) :
    d.stcGo t = w.modMed (fun m => { m with tasks := m.tasks ++ [d.stcTask t] }) := by
  have hlocal : ¬ ((d.stcTask t).op = 2 ∧ (w.modMed (fun m => { m with tasks := m.tasks ++ [d.stcTask t] })).bufRemote (d.stcTask t).buf = true) := by
    rcases hr with h | h
    · exact fun x => h x.1
    · rw [h]; exact fun x => absurd x.2 (by decide)
  subst hw he
  unfold Dev.stcCleared at hf hc hlocal ⊢
  simp only [Dev.stcGo, hb, hf, hc, Bool.false_eq_true, if_false, ne_eq, not_true_eq_false, Bool.not_true, or_self]
  exact if_neg hlocal

/-- The commands that a GO on a free set gives, each with its OPCODE, write that GO (R186). -/
theorem becomes_stcGo {s : State} {t : Fin 8} {c : Instr} {op : Nat} (h : s.Live) (hb : s.dev.has (R.STC_TASK_STATUS_BUSY t) = false)
    (hop : op = s.dev.get (R.STC_TASK_CMD_OPCODE t))
    (hc : (c, op) ∈ [(Instr.read t, 1), (.write t, 2), (.flush t, 3), (.deallocate t, 4), (.nsCreate t, 0x10), (.nsDelete t, 0x11), (.nsList t, 0x12),
        (.identify t, 0x13), (.health t, 0x14), (.mapExport t, 0x15), (.seal t, 0x16)] ∨ stcListed op = false ∧ c = .stcOpcodeInvalid t)
    {x : Dev} (hx : s.dev.stcGo t = x) : Becomes c s (x.reply 0) := by
  subst hx
  rcases hc with hc | ⟨hl, rfl⟩
  · have hgo : exec c s = stcCommand op t s := by
      simp only [List.mem_cons, Prod.mk.injEq, List.not_mem_nil, or_false] at hc
      rcases hc with ⟨rfl, rfl⟩ | ⟨rfl, rfl⟩ | ⟨rfl, rfl⟩ | ⟨rfl, rfl⟩ | ⟨rfl, rfl⟩ | ⟨rfl, rfl⟩ | ⟨rfl, rfl⟩ | ⟨rfl, rfl⟩ | ⟨rfl, rfl⟩ | ⟨rfl, rfl⟩ | ⟨rfl, rfl⟩ <;> rfl
    refine becomes_live (f := fun d => if d.get (R.STC_TASK_CMD_OPCODE t) = op ∧ !d.has (R.STC_TASK_STATUS_BUSY t) then (d.stcGo t).reply St.ok else d) hgo h ?_
    rw [← hop, hb]
    exact if_pos ⟨rfl, rfl⟩
  · refine becomes_live (f := fun d => if !stcListed (d.get (R.STC_TASK_CMD_OPCODE t)) && !d.has (R.STC_TASK_STATUS_BUSY t) then (d.stcGo t).reply St.ok else d)
      rfl h ?_
    rw [← hop, hb, hl]
    rfl

/-! ## The checks of R187 -/

theorem Dev.stcCheck_unlisted {d : Dev} {t : Task} (h : stcListed t.op = false) : d.stcCheck t = (0x0116, false) := by
  simp only [Dev.stcCheck, h, Bool.not_false, if_true]
  rfl

theorem Dev.stcCheck_nsid {d : Dev} {t : Task} (hl : stcListed t.op = true) (hn : stcNames t.op = true) (h : t.nsid = 0 ∧ t.op ≠ 3 ∨ 64 < t.nsid) :
    d.stcCheck t = (0x0123, false) := by
  have hbad : ¬ ((if t.op = 3 then 0 else 1) ≤ t.nsid ∧ t.nsid ≤ 64) := by split <;> omega
  simp only [Dev.stcCheck, hl, hn, Bool.not_true, Bool.false_eq_true, if_false, true_and]
  rw [if_pos hbad]
  rfl

section named
variable {d : Dev} {t : Task} (hl : stcListed t.op = true) (hn : stcNames t.op = true) (h1 : 1 ≤ t.nsid) (h64 : t.nsid ≤ 64)
include hl hn h1 h64

/-- The number of a namespace that a command names is good. -/
theorem stcNames_good : stcListed t.op = true ∧ ¬ (stcNames t.op = true ∧ ¬ ((if t.op = 3 then 0 else 1) ≤ t.nsid ∧ t.nsid ≤ 64)) ∧ t.op ≠ 0x13 ∧ t.nsid ≠ 0 := by
  refine ⟨hl, fun h => h.2 ⟨by split <;> omega, h64⟩, fun h => ?_, by omega⟩
  rw [h] at hn
  exact absurd hn (by decide)

theorem Dev.stcCheck_offline (ho : d.mOnline = false) : d.stcCheck t = (0x0303, false) := by
  obtain ⟨-, hgood, hid, -⟩ := stcNames_good hl hn h1 h64
  simp only [Dev.stcCheck, hl, hgood, ho, Bool.not_true, Bool.not_false, Bool.false_eq_true, if_false, ne_eq, hid, not_false_eq_true, and_self, if_true]
  rfl

variable (ho : d.mOnline = true)
include ho

theorem Dev.stcCheck_exists (hop : t.op = 0x10) {x : Ns} (hx : d.ns t.nsid = some x) : d.stcCheck t = (0x0523, false) := by
  obtain ⟨-, hgood, hid, -⟩ := stcNames_good hl hn h1 h64
  simp only [Dev.stcCheck, hl, hgood, ho, hx, Bool.not_true, Bool.false_eq_true, if_false, and_false]
  rw [if_pos ⟨hop, rfl⟩]
  rfl

theorem Dev.stcCheck_notFound (hop : t.op ≠ 0x10) (hx : d.ns t.nsid = none) : d.stcCheck t = (0x0522, false) := by
  obtain ⟨-, hgood, hid, h0⟩ := stcNames_good hl hn h1 h64
  simp only [Dev.stcCheck, hl, hgood, ho, hx, Bool.not_true, Bool.false_eq_true, if_false, and_false, Option.isSome_none]
  rw [if_pos ⟨hn, hop, h0, rfl⟩]
  rfl

variable {x : Ns} (hop : t.op ≠ 0x10) (hx : d.ns t.nsid = some x)
include hop hx

theorem Dev.stcCheck_busy (hb : d.med.tasks.any (fun e => (e.op = 0x16 || e.op = 0x11) && e.nsid = t.nsid) = true) : d.stcCheck t = (0x0525, false) := by
  obtain ⟨-, hgood, hid, h0⟩ := stcNames_good hl hn h1 h64
  simp only [Dev.stcCheck, hl, hgood, ho, hx, hop, Bool.not_true, Bool.false_eq_true, if_false, and_false, false_and, Option.isNone_some]
  rw [if_pos ⟨hn, h0, hb⟩]
  rfl

variable (hb : d.med.tasks.any (fun e => (e.op = 0x16 || e.op = 0x11) && e.nsid = t.nsid) = false)
include hb

/-- The checks from the namespace's kind on (R187). -/
theorem Dev.stcCheck_found : d.stcCheck t =
    if d.stcKind t x ≠ 0 then (d.stcKind t x, false)
    else if (stcCounts t.op = true ∧ t.count = 2 ^ 32 - 1) ∨ (stcBuffers t.op = true ∧ t.len = 2 ^ 64 - 1) then (0x0202, false)
    else if !d.stcBounds t then (0x0201, false)
    else if stcCounts t.op = true ∧ t.count = 0 then (0, false)
    else if t.op == 2 && x.kind == 1 && t.sector != d.projWp t.nsid x then (0x0121, false)
    else (d.stcBuf t, true) := by
  obtain ⟨-, hgood, hid, h0⟩ := stcNames_good hl hn h1 h64
  simp only [Dev.stcCheck, hl, ho, hx, hop, hn, hb, Bool.not_true, Bool.false_eq_true, if_false, if_true, and_false, false_and, or_false, Option.isNone_some]
  rw [if_neg (fun h => hgood ⟨hn, h.2⟩)]
  rfl

end named

/-- Settles O23: a GO clears its set's registers, is checked in the order of R187, and ends at once or waits in line. -/
theorem storageCommandsStart : Obligations.StorageCommandsStart := by
  refine ⟨fun s t c op x d e h hb hop hc hx hd he => ⟨fun hf => ?fatal, fun hf => ⟨fun hl => ?unlisted, fun st runs hk hend => ?ends, fun hk hr => ?waits⟩⟩,
    fun s t h hb => ?rejected, fun d t => ⟨Dev.stcCheck_unlisted, fun hl => ⟨fun hn hbad => Dev.stcCheck_nsid hl hn hbad, fun hn h1 h64 ho => ?offline,
      fun hn h1 h64 ho => ⟨fun hop x hx => ?taken, fun hop hx => ?missing, fun x hx hop => ⟨fun hb => ?busy, fun hb => ?found⟩⟩⟩⟩⟩
  case fatal => exact becomes_stcGo h hb hop hc (Dev.stcGo_fatal hb (hx ▸ hd) hf)
  case unlisted =>
    subst hop hx
    exact becomes_stcGo h hb rfl hc (Dev.stcGo_ends hb hd hf he (Dev.stcCheck_unlisted hl) (.inr rfl))
  case ends => exact becomes_stcGo h hb hop hc (Dev.stcGo_ends hb (hx ▸ hd) hf he (hx ▸ hk) hend)
  case waits =>
    subst hop hx
    exact becomes_stcGo h hb rfl hc (Dev.stcGo_waits hb hd hf he hk hr)
  case rejected =>
    refine becomes_live (f := fun d => if d.has (R.STC_TASK_STATUS_BUSY t) then (d.stcGo t).reply St.ok else d) rfl h ((if_pos hb).trans ?_)
    rw [Dev.stcGo, if_pos hb]
    rfl
  case offline => exact Dev.stcCheck_offline hl hn h1 h64 ho
  case taken => exact Dev.stcCheck_exists hl hn h1 h64 ho hop hx
  case missing => exact Dev.stcCheck_notFound hl hn h1 h64 ho hop hx
  case busy => exact Dev.stcCheck_busy hl hn h1 h64 ho hop hx hb
  case found =>
    rw [Dev.stcCheck_found hl hn h1 h64 ho hop hx hb]
    refine ⟨fun hk => if_pos hk, fun hk => ?_⟩
    rw [if_neg (not_not.2 hk)]
    refine ⟨fun hc hm => if_pos (.inl ⟨hc, hm⟩), fun hc hm hlen => ?_⟩
    have hshort : ¬ ((stcCounts t.op = true ∧ t.count = 2 ^ 32 - 1) ∨ (stcBuffers t.op = true ∧ t.len = 2 ^ 64 - 1)) := by
      rintro (h | h)
      · omega
      · rcases hlen with hb | hb
        · rw [hb] at h; exact absurd h.1 (by decide)
        · exact hb h.2
    rw [if_neg hshort]
    refine ⟨fun hbd => by rw [hbd]; rfl, fun hbd h0 => ?_, fun hbd h0 h2 hkind hwp => ?_, fun hbd h0 hw => ?_⟩
    all_goals rw [hbd, if_neg (by decide)]
    · exact if_pos ⟨hc, h0⟩
    · rw [if_neg (fun h => h0 h.2)]
      exact if_pos (by simp [h2, hkind, hwp])
    · rw [if_neg (fun h => h0 h.2)]
      exact if_neg (by rcases hw with h | h | h <;> simp [h])

end Sys2Proof.Machine
end

section
/-! SUPPORT. The residue codec: a stream decoded frame by frame and block by block, and a sample compressed (R203 to R221). -/

namespace Sys2Proof.Machine

section decode
variable {d d' : Dev} {i f eo : Nat} {e : Eng} (hw : d.AtWork 2 i f eo e d') (hm : fld (d'.config f 2 i) 1 1 = 0)
include hw hm

/-! ## Headers -/

/-- A stream header that is not valid (R203, row 1 of R210). -/
theorem Dev.rcxHeader_badStream (hs : e.rcx.stage = 0) (hl : 16 ≤ e.buf.length) (hok : streamHeaderOk e.buf = false) :
    d.rcxHeader i = (d'.setEng 2 i e).failSample f 2 i eo 0x0703 := by
  rw [Dev.rcxHeader, Dev.engine_atWork hw]
  simp only [hm, hs, hok, Nat.not_lt.2 hl, ne_eq, not_true_eq_false, or_self, if_false, Bool.not_false, if_true]
  rfl

/-- A stream longer than the output limit. -/
theorem Dev.rcxHeader_longStream (hs : e.rcx.stage = 0) (hl : 16 ≤ e.buf.length) (hok : streamHeaderOk e.buf = true)
    (ho : fld (d'.config f 2 i) 0x10 8 < fld e.buf 8 8) : d.rcxHeader i = (d'.setEng 2 i e).failSample f 2 i eo 0x0702 := by
  rw [Dev.rcxHeader, Dev.engine_atWork hw]
  simp only [hm, hs, hok, ho, Nat.not_lt.2 hl, ne_eq, not_true_eq_false, or_self, if_false, Bool.not_true, Bool.false_eq_true, if_true]
  rfl

section frame
variable (hs : e.rcx.stage = 1) (hl : 32 ≤ e.buf.length)
include hs hl

/-- A frame header that is not valid (R204, row 2 of R210). -/
theorem Dev.rcxHeader_badFrame (hok : frameHeaderOk (e.buf.take 32) = false) : d.rcxHeader i = (d'.setEng 2 i e).failSample f 2 i eo 0x0703 := by
  rw [Dev.rcxHeader, Dev.engine_atWork hw]
  simp only [hm, hs, hok, Nat.not_lt.2 hl, ne_eq, not_true_eq_false, one_ne_zero, not_false_eq_true, true_or, if_false, if_true, Bool.not_false,
    OfNat.one_ne_ofNat]
  rfl

variable (hok : frameHeaderOk (e.buf.take 32) = true) (hh : (ghFlags (e.buf.take 32)).testBit 1 = false ∨ fld (d'.config f 2 i) 4 4 ≠ 0)
include hok hh

omit hw hm hs hl in
theorem rcxFrame_good : ¬ ((!frameHeaderOk (e.buf.take 32)) = true ∨ (ghFlags (e.buf.take 32)).testBit 1 = true ∧ fld (d'.config f 2 i) 4 4 = 0) := by
  rw [hok]
  rintro (h | ⟨h1, h4⟩)
  · exact absurd h (by decide)
  · rcases hh with h | h
    · rw [h] at h1; exact absurd h1 (by decide)
    · exact h h4

/-- A frame without HIST_IN starts with fresh contexts (R207). -/
theorem Dev.rcxHeader_fresh (h0 : (ghFlags (e.buf.take 32)).testBit 0 = false) :
    d.rcxHeader i = (d'.setEng 2 i e).rcxGo i e { e.rcx with
      stage := 2
      hdr := e.buf.take 32
      rows := ghHeight (e.buf.take 32)
      up := List.replicate (ghWidth (e.buf.take 32) * ghComps (e.buf.take 32)) (2 ^ (ghDepth (e.buf.take 32) - 1))
      ctx := freshCtx (ghDepth (e.buf.take 32))
      crc := 0xFFFFFFFF } 32 := by
  rw [Dev.rcxHeader, Dev.engine_atWork hw]
  simp only [hm, hs, h0, Nat.not_lt.2 hl, ne_eq, not_true_eq_false, one_ne_zero, not_false_eq_true, true_or, if_false, if_true, OfNat.one_ne_ofNat,
    Bool.false_eq_true]
  exact if_neg (rcxFrame_good hok hh)

/-- A HIST_IN frame whose entry does not restore (R216). -/
theorem Dev.rcxHeader_lost (h0 : (ghFlags (e.buf.take 32)).testBit 0 = true) (hr : (d'.setEng 2 i e).rcxRestore (d'.config f 2 i) (e.buf.take 32) = none) :
    d.rcxHeader i = (d'.setEng 2 i e).failSample f 2 i eo 0x0703 := by
  rw [Dev.rcxHeader, Dev.engine_atWork hw]
  simp only [hm, hs, h0, hr, Nat.not_lt.2 hl, ne_eq, not_true_eq_false, one_ne_zero, not_false_eq_true, true_or, if_false, if_true, OfNat.one_ne_ofNat]
  exact if_neg (rcxFrame_good hok hh)

/-- A HIST_IN frame starts with the contexts and the row of its entry (R216). -/
theorem Dev.rcxHeader_restored {ctx : List (Nat × Nat)} {row : List Nat} (h0 : (ghFlags (e.buf.take 32)).testBit 0 = true)
    (hr : (d'.setEng 2 i e).rcxRestore (d'.config f 2 i) (e.buf.take 32) = some (ctx, row)) :
    d.rcxHeader i = ((d'.setEng 2 i e).inc (R.RCX_ENG_HIST_RESTORES i)).rcxGo i e { e.rcx with
      stage := 2
      hdr := e.buf.take 32
      rows := ghHeight (e.buf.take 32)
      up := row
      ctx := ctx
      crc := 0xFFFFFFFF } 32 := by
  rw [Dev.rcxHeader, Dev.engine_atWork hw]
  simp only [hm, hs, h0, hr, Nat.not_lt.2 hl, ne_eq, not_true_eq_false, one_ne_zero, not_false_eq_true, true_or, if_false, if_true, OfNat.one_ne_ofNat]
  exact if_neg (rcxFrame_good hok hh)

end frame

/-! ## Blocks and trailers -/

section block
variable (hs : e.rcx.stage = 2) (hl : 12 ≤ e.buf.length)
include hs hl

/-- A block header that is not valid (R205, row 3 of R210). -/
theorem Dev.rcxBlock_bad (hok : blockHeaderOk e.buf e.rcx.hdr (min (ghBlockRows e.rcx.hdr) e.rcx.rows) = false) :
    d.rcxBlock i = d'.failSample f 2 i eo 0x0703 := by
  rw [Dev.rcxBlock, Dev.engine_atWork hw]
  simp only [hm, hs, hok, Nat.not_lt.2 hl, ne_eq, not_true_eq_false, or_self, if_false, if_true, Bool.not_false]
  rfl

variable (hok : blockHeaderOk e.buf e.rcx.hdr (min (ghBlockRows e.rcx.hdr) e.rcx.rows) = true) (hn : 12 + fld e.buf 4 4 ≤ e.buf.length)
include hok hn

/-- A block whose output would pass the limit. -/
theorem Dev.rcxBlock_long (ho : min e.rcx.total (fld (d'.config f 2 i) 0x10 8) < e.rcx.written + fld e.buf 0 4) :
    d.rcxBlock i = d'.failSample f 2 i eo 0x0702 := by
  rw [Dev.rcxBlock, Dev.engine_atWork hw]
  simp only [hm, hs, hok, ho, Nat.not_lt.2 hl, Nat.not_lt.2 hn, ne_eq, not_true_eq_false, or_self, if_false, if_true, Bool.not_true, Bool.false_eq_true]
  rfl

variable (ho : e.rcx.written + fld e.buf 0 4 ≤ min e.rcx.total (fld (d'.config f 2 i) 0x10 8)) {out : Bytes}
include ho

/-- A block that decodes gives its values within the work cap (R94). -/
theorem Dev.rcxBlock_decodes {t : RcxSt}
    (hb : blockDecode e.buf ((e.buf.drop 12).take (fld e.buf 4 4)) e.rcx (min (ghBlockRows e.rcx.hdr) e.rcx.rows) = (out, some t)) :
    d.rcxBlock i = if withinCap (d'.capOf f 2 i e) (cdiv t.written 64)
      then (d'.rcxGo i { e with units := cdiv t.written 64 } t (12 + fld e.buf 4 4)).putOut 2 i eo out
      else d'.failSample f 2 i eo 0x0704 := by
  rw [Dev.rcxBlock, Dev.engine_atWork hw]
  simp only [hm, hs, hok, hb, Nat.not_lt.2 ho, Nat.not_lt.2 hl, Nat.not_lt.2 hn, ne_eq, not_true_eq_false, or_self, if_false, Bool.not_true, Bool.false_eq_true]
  rfl

/-- A block that ends the sample at its first error, or at the work cap where that comes first. -/
theorem Dev.rcxBlock_errs (hb : blockDecode e.buf ((e.buf.drop 12).take (fld e.buf 4 4)) e.rcx (min (ghBlockRows e.rcx.hdr) e.rcx.rows) = (out, none))
    (hlen : out.length ≠ fld e.buf 0 4) :
    d.rcxBlock i = d'.failSample f 2 i eo (if withinCap (d'.capOf f 2 i e) ((e.rcx.written + out.length) / 64 + 1) then 0x0703 else 0x0704) := by
  rw [Dev.rcxBlock, Dev.engine_atWork hw]
  simp only [hm, hs, hok, hb, hlen, Nat.not_lt.2 ho, Nat.not_lt.2 hl, Nat.not_lt.2 hn, ne_eq, not_true_eq_false, or_self, if_false, Bool.not_true,
    Bool.false_eq_true]
  rfl

end block

section trailer
variable (hs : e.rcx.stage = 3) (hl : 4 ≤ e.buf.length)
include hs hl

/-- A trailer whose CRC differs (row 7 of R210). -/
theorem Dev.rcxTrailer_bad (hc : fld e.buf 0 4 ≠ e.rcx.crc ^^^ 0xFFFFFFFF) : d.rcxTrailer i = d'.failSample f 2 i eo 0x0701 := by
  rw [Dev.rcxTrailer, Dev.engine_atWork hw]
  simp only [hm, hs, hc, Nat.not_lt.2 hl, ne_eq, not_true_eq_false, not_false_eq_true, if_false, if_true, Nat.reduceEqDiff]
  rfl

/-- A trailer that is not the last. -/
theorem Dev.rcxTrailer_next (hc : fld e.buf 0 4 = e.rcx.crc ^^^ 0xFFFFFFFF) (hh : (ghFlags e.rcx.hdr).testBit 1 = false) (hf : e.rcx.frames ≠ 1) :
    d.rcxTrailer i = d'.rcxGo i e { e.rcx with
      frames := e.rcx.frames - 1
      stage := 1 } 4 := by
  rw [Dev.rcxTrailer, Dev.engine_atWork hw]
  simp only [hm, hs, hc, hh, hf, Nat.not_lt.2 hl, ne_eq, not_true_eq_false, if_false, Nat.reduceEqDiff, Bool.false_eq_true, OfNat.one_ne_ofNat]

end trailer
end decode

/-! ## Compression -/

section compress
variable {d d' : Dev} {i f eo : Nat} {e : Eng} (hw : d.AtWork 2 i f eo e d') (hm : fld (d'.config f 2 i) 1 1 = 1) (ha : e.arrived = true)
include hw hm ha

/-- A sample that the checks of R220 find defective. -/
theorem Dev.rcxCompress_bad {st : Status} (hc : compressCheck (d'.config f 2 i) (d'.capOf f 2 i e) e.buf = st) (h0 : st ≠ 0) :
    d.rcxCompress i = d'.failSample f 2 i eo st := by
  subst hc
  rw [Dev.rcxCompress, Dev.engine_atWork hw]
  simp only [hm, ha, ne_eq, not_true_eq_false, Bool.not_true, Bool.false_eq_true, or_self, if_false]
  exact if_pos h0

variable (hc : compressCheck (d'.config f 2 i) (d'.capOf f 2 i e) e.buf = 0)
include hc

/-- An empty sample gives a stream without a frame (R221). -/
theorem Dev.rcxCompress_empty (hb : e.buf = []) :
    d.rcxCompress i = ((d'.setEng 2 i { e with
      buf := []
      units := 0 }).putOut 2 i eo ([0x47, 0x52, 0x46, 0x31] ++ le 2 1 ++ le 2 0 ++ le 8 0)).finish f 2 i eo := by
  have hc' : compressCheck (d'.config f 2 i) (d'.capOf f 2 i e) [] = St.ok := hb ▸ hc
  rw [Dev.rcxCompress, Dev.engine_atWork hw]
  simp only [hm, ha, hb, hc', ne_eq, not_true_eq_false, Bool.not_true, Bool.false_eq_true, or_self, if_false, List.isEmpty_nil, if_true]
  rfl

/-- Any other sample gives a stream of one frame (R221). -/
theorem Dev.rcxCompress_frame (hb : e.buf ≠ []) (hh : fld (d'.config f 2 i) 0x1E 1 = 0) {c : Bytes} (hcfg : c = d'.config f 2 i) {depth nc width br bps : Nat}
    {rows : List (List Nat)} {h blocks : Bytes} {last : List (Nat × Nat) × List Nat} (hdepth : depth = fld c 0x18 1) (hnc : nc = fld c 0x19 1)
    (hwidth : width = fld c 0x1A 2) (hbr : br = fld c 0x1C 2) (hbps : bps = if depth ≤ 8 then 1 else 2) (hrows : rows = chunks (width * nc) (valuesIn bps e.buf))
    (hhdr : h = [0x46, 0x52] ++ le 1 depth ++ le 1 nc ++ le 2 width ++ le 2 br ++ le 4 rows.length ++ le 1 0 ++ [0, 0, 0] ++ le 4 (fld c 0x20 4) ++ le 4 0
      ++ List.replicate 8 0)
    (hblocks : codeBlocks depth nc bps (chunks br rows) (List.replicate (width * nc) (2 ^ (depth - 1))) (freshCtx depth) [] = (blocks, last)) :
    d.rcxCompress i = ((d'.setEng 2 i { e with
      buf := []
      units := cdiv e.buf.length 64 }).putOut 2 i eo ([0x47, 0x52, 0x46, 0x31] ++ le 2 1 ++ le 2 1 ++ le 8 e.buf.length ++ h ++ blocks
        ++ le 4 (crc32c e.buf))).finish f 2 i eo := by
  have hc' : compressCheck (d'.config f 2 i) (d'.capOf f 2 i e) e.buf = St.ok := hc
  rw [Dev.rcxCompress, Dev.engine_atWork hw]
  subst hcfg
  simp only [hm, ha, hc', hh, ne_eq, not_true_eq_false, Bool.not_true, Bool.false_eq_true, or_self, if_false, List.isEmpty_eq_false_iff.2 hb, Nat.zero_testBit,
    Option.isSome_none, ← hdepth, ← hnc, ← hwidth, ← hbr, ← hbps, ← hrows, hblocks]
  rw [hhdr]

end compress

/-- Settles O26: each command takes the row of R210, or of R220, that its engine stands at. -/
theorem residueStreamsAreCoded : Obligations.ResidueStreamsAreCoded := by
  refine ⟨?decode, ?compress⟩
  case decode =>
    rintro s i f eo e d c h r n rows hs hw rfl hm rfl rfl rfl rfl
    refine ⟨fun h0 hl => ⟨fun hok => ?badStream, fun hok ho => ?longStream⟩, fun h1 hl => ⟨fun hok => ?badFrame, fun hok hh =>
      ⟨fun hf => ?fresh, fun hf hr => ?lost, fun ctx row hf hr => ?restored⟩⟩, fun h2 hl => ⟨fun hok => ?badBlock, fun hok hn out =>
      ⟨fun ho => ?longBlock, fun ho => ⟨fun t hb => ⟨fun hcap => ?decodes, fun hcap => ?capped⟩, fun hb hlen => ?errs⟩⟩⟩, fun h3 hl =>
      ⟨fun hc => ?badCrc, fun hc hh hf => ?next⟩⟩
    case badStream => exact becomes_engine (f := (·.rcxHeader i)) rfl hs (Dev.rcxHeader_badStream hw hm h0 hl hok)
    case longStream => exact becomes_engine (f := (·.rcxHeader i)) rfl hs (Dev.rcxHeader_longStream hw hm h0 hl hok ho)
    case badFrame => exact becomes_engine (f := (·.rcxHeader i)) rfl hs (Dev.rcxHeader_badFrame hw hm h1 hl hok)
    case fresh => exact becomes_engine (f := (·.rcxHeader i)) rfl hs (Dev.rcxHeader_fresh hw hm h1 hl hok hh hf)
    case lost => exact becomes_engine (f := (·.rcxHeader i)) rfl hs (Dev.rcxHeader_lost hw hm h1 hl hok hh hf hr)
    case restored => exact becomes_engine (f := (·.rcxHeader i)) rfl hs (Dev.rcxHeader_restored hw hm h1 hl hok hh hf hr)
    case badBlock => exact becomes_engine (f := (·.rcxBlock i)) rfl hs (Dev.rcxBlock_bad hw hm h2 hl hok)
    case longBlock => exact becomes_engine (f := (·.rcxBlock i)) rfl hs (Dev.rcxBlock_long hw hm h2 hl hok hn ho)
    case decodes => exact becomes_engine (f := (·.rcxBlock i)) rfl hs ((Dev.rcxBlock_decodes hw hm h2 hl hok hn ho hb).trans (if_pos hcap))
    case capped => exact becomes_engine (f := (·.rcxBlock i)) rfl hs ((Dev.rcxBlock_decodes hw hm h2 hl hok hn ho hb).trans (if_neg (by rw [hcap]; decide)))
    case errs => exact becomes_engine (f := (·.rcxBlock i)) rfl hs (Dev.rcxBlock_errs hw hm h2 hl hok hn ho hb hlen)
    case badCrc => exact becomes_engine (f := (·.rcxTrailer i)) rfl hs (Dev.rcxTrailer_bad hw hm h3 hl hc)
    case next => exact becomes_engine (f := (·.rcxTrailer i)) rfl hs (Dev.rcxTrailer_next hw hm h3 hl hc hh hf)
  case compress =>
    rintro s i f eo e d c hs hw rfl hm ha
    refine ⟨fun st hc h0 => ?bad, fun hc => ⟨fun hb => ?empty, fun hb hh depth nc width br bps rows h blocks last hd hn hwd hr hbp hrows hhdr hbl => ?frame⟩⟩
    case bad => exact becomes_engine (f := (·.rcxCompress i)) rfl hs (Dev.rcxCompress_bad hw hm ha hc h0)
    case empty => exact becomes_engine (f := (·.rcxCompress i)) rfl hs (Dev.rcxCompress_empty hw hm ha hc hb)
    case frame => exact becomes_engine (f := (·.rcxCompress i)) rfl hs (Dev.rcxCompress_frame hw hm ha hc hb hh rfl hd hn hwd hr hbp hrows hhdr hbl)

end Sys2Proof.Machine
end

section
/-! SUPPORT. Video and JPEG decode into pictures, and the image engines turn pictures into tensors (R222 to R248). -/

namespace Sys2Proof.Machine

/-! ## Video -/

section videoStart
variable {d d' : Dev} {i f eo : Nat} {e : Eng} (hw : d.AtWork 3 i f eo e d') (hs : e.st = .none) (hl : 32 ≤ e.buf.length)
include hw hs hl

/-- A sample header that is not valid (R226, row 1 of R236). -/
theorem Dev.vdeStart_badHeader (hok : vdeHeaderOk (fld (d'.config f 3 i) 1 1) (e.buf.take 32) = false) : d.vdeStart i = d'.failSample f 3 i eo 0x0703 := by
  rw [Dev.vdeStart, Dev.engine_atWork hw]
  simp only [hs, hok, Nat.not_lt.2 hl, ne_eq, not_true_eq_false, if_false, Bool.not_false, if_true]
  rfl

variable (hok : vdeHeaderOk (fld (d'.config f 3 i) 1 1) (e.buf.take 32) = true)
include hok

/-- A CONT_IN whose context is not there (R232). -/
theorem Dev.vdeStart_lost (hc : (fld (e.buf.take 32) 5 1).testBit 0 = true) (hr : d'.vdeRestore (d'.config f 3 i) (e.buf.take 32) = none) :
    d.vdeStart i = d'.failSample f 3 i eo 0x0703 := by
  rw [Dev.vdeStart, Dev.engine_atWork hw]
  simp only [hs, hok, hc, hr, Nat.not_lt.2 hl, ne_eq, not_true_eq_false, if_false, Bool.not_true, Bool.false_eq_true, if_true]
  rfl

/-- A sample that continues none starts without PRIV bytes. -/
theorem Dev.vdeStart_fresh (hc : (fld (e.buf.take 32) 5 1).testBit 0 = false)
    (ho : (fld (e.buf.take 32) 5 1).testBit 1 = false ∨ fld (d'.config f 3 i) 6 2 ≠ 0) :
    d.vdeStart i = d'.setEng 3 i { e with
      buf := e.buf.drop 32
      st := .vde { hdr := e.buf.take 32, saved := [], k := 0, shown := 0, selected := 0, written := 0 } } := by
  have hno : ¬ ((fld (e.buf.take 32) 5 1).testBit 1 = true ∧ fld (d'.config f 3 i) 6 2 = 0) := by
    rintro ⟨h1, h2⟩
    rcases ho with ho | ho
    · rw [ho] at h1; exact absurd h1 (by decide)
    · exact ho h2
  rw [Dev.vdeStart, Dev.engine_atWork hw]
  simp only [hs, hok, hc, hno, Nat.not_lt.2 hl, ne_eq, not_true_eq_false, if_false, Bool.not_true, Bool.false_eq_true]

/-- A sample that continues one starts with the bytes restored (R232). -/
theorem Dev.vdeStart_restored {saved : Bytes} (hc : (fld (e.buf.take 32) 5 1).testBit 0 = true)
    (hr : d'.vdeRestore (d'.config f 3 i) (e.buf.take 32) = some saved) (ho : (fld (e.buf.take 32) 5 1).testBit 1 = false) :
    d.vdeStart i = (d'.inc (R.VDE_CTX_RESTORES i)).setEng 3 i { e with
      buf := e.buf.drop 32
      st := .vde { hdr := e.buf.take 32, saved := saved, k := 0, shown := 0, selected := 0, written := 0 } } := by
  rw [Dev.vdeStart, Dev.engine_atWork hw]
  simp only [hs, hok, hc, hr, ho, Nat.not_lt.2 hl, ne_eq, not_true_eq_false, if_false, Bool.not_true, Bool.false_eq_true, if_true, false_and]

end videoStart

section videoPicture
variable {d d' : Dev} {i f eo : Nat} {e : Eng} {v : VdeSt} (hw : d.AtWork 3 i f eo e d') (hs : e.st = .vde v) (ha : e.arrived = true)
  (hk : (fld v.hdr 5 1).testBit 1 = true) (h0 : v.k ≠ 0) {cw ch state sel : Nat} {sound : Bool} {outs : List Config.VidPic} {recs : List Bytes}
  (hv : Config.vidStep (fld v.hdr 4 1) (fld (d'.config f 3 i) 2 1 = 1) v.saved e.buf v.k = .picture cw ch state sound outs)
  (hsel : vdeSelect (d'.config f 3 i) v.hdr v.shown v.selected outs = (recs, sel))
include hw hs ha hk h0 hv hsel

/-- A picture outside the bounds (row 3 of R236). -/
theorem Dev.vdePicture_outside (hb : (1 ≤ cw && cw ≤ 8192 && 1 ≤ ch && ch ≤ 8192 && cw * ch ≤ 35651584) = false) :
    d.vdePicture i = d'.failSample f 3 i eo 0x0703 := by
  rw [Dev.vdePicture, Dev.engine_atWork hw]
  simp only [hs, ha, hk, h0, hv, hsel, hb, Bool.not_true, Bool.not_false, Bool.false_eq_true, false_and, if_false, if_true]
  rfl

variable (hb : (1 ≤ cw && cw ≤ 8192 && 1 ≤ ch && ch ≤ 8192 && cw * ch ≤ 35651584) = true)
include hb

/-- Records beyond the output limit, or a state beyond a context entry (row 4). -/
theorem Dev.vdePicture_long (hl : fld (d'.config f 3 i) 0x28 8 < v.written + recs.flatten.length ∨ fld (d'.config f 3 i) 0x10 8 < state) :
    d.vdePicture i = d'.failSample f 3 i eo 0x0702 := by
  rw [Dev.vdePicture, Dev.engine_atWork hw]
  simp only [hs, ha, hk, h0, hv, hsel, hb, hl, Bool.not_true, Bool.false_eq_true, false_and, true_and, if_false, if_true]
  rfl

variable (hl : v.written + recs.flatten.length ≤ fld (d'.config f 3 i) 0x28 8) (hst : state ≤ fld (d'.config f 3 i) 0x10 8)
include hl hst

/-- The work cap (row 5). -/
theorem Dev.vdePicture_capped (hc : withinCap (d'.capOf f 3 i e) (e.units + cdiv cw 16 * cdiv ch 16) = false) :
    d.vdePicture i = d'.failSample f 3 i eo 0x0704 := by
  rw [Dev.vdePicture, Dev.engine_atWork hw]
  simp only [hs, ha, hk, h0, hv, hsel, hb, hc, Nat.not_lt.2 hl, Nat.not_lt.2 hst, Bool.not_true, Bool.not_false, Bool.false_eq_true, false_and, and_false, or_self,
    if_false, if_true]
  rfl

/-- A sound picture leaves with its records (R229, R230). -/
theorem Dev.vdePicture_decoded (hc : withinCap (d'.capOf f 3 i e) (e.units + cdiv cw 16 * cdiv ch 16) = true) (hgood : sound = true) :
    d.vdePicture i = ((d'.setEng 3 i { e with
      units := e.units + cdiv cw 16 * cdiv ch 16
      st := .vde { v with
        k := v.k + 1
        shown := v.shown + outs.length
        selected := sel
        written := v.written + recs.flatten.length } }).putOut 3 i eo recs.flatten).addWord (R.VDE_PICTURES i) recs.length := by
  rw [Dev.vdePicture, Dev.engine_atWork hw]
  simp only [hs, ha, hk, h0, hv, hsel, hb, hc, hgood, Nat.not_lt.2 hl, Nat.not_lt.2 hst, Bool.not_true, Bool.false_eq_true, false_and, and_false, or_self,
    if_false]

end videoPicture

/-- A CONT_OUT sample decoded to its end saves its context and is finished (R231, R232). -/
theorem Dev.vdeSave_ended {d d' : Dev} {i f eo : Nat} {e : Eng} {v : VdeSt} (hw : d.AtWork 3 i f eo e d') (hs : e.st = .vde v) (ha : e.arrived = true)
    (hk : (fld v.hdr 5 1).testBit 1 = true)
    (hv : Config.vidStep (fld v.hdr 4 1) (fld (d'.config f 3 i) 2 1 = 1) v.saved e.buf v.k = .ended true) (hlen : fld v.hdr 0x10 8 = e.buf.length)
    {priv : Bytes} {a : Nat} (hp : priv = Config.vidContext (fld v.hdr 4 1) (fld (d'.config f 3 i) 2 1 = 1) v.saved e.buf)
    (haddr : a = vdeEntry (d'.config f 3 i) (fld v.hdr 8 4) (fld v.hdr 0xC 4)) (hfit : 0x1000 + priv.length ≤ fld (d'.config f 3 i) 0x10 8) :
    d.vdeSave i = (((d'.write (a + 0x1000) priv).write a (vdeMagic ++ le 1 (fld v.hdr 4 1) ++ [0, 0, 0] ++ le 4 (fld v.hdr 8 4) ++ le 4 (fld v.hdr 0xC 4)
      ++ le 8 (0x1000 + priv.length) ++ List.replicate (0x1000 - 0x1C) 0)).inc (R.VDE_CTX_SAVES i)).finish f 3 i eo := by
  rw [Dev.vdeSave, Dev.engine_atWork hw]
  simp only [hs, ha, hk, hv, hlen, ← hp, ← haddr, Nat.not_lt.2 hfit, ne_eq, not_true_eq_false, Bool.not_true, Bool.false_eq_true, or_self, if_false]

/-! ## JPEG -/

section jpeg
variable {d d' : Dev} {i f eo n : Nat} {e : Eng} (hw : d.AtWork 4 i f eo e d') (ha : e.arrived = true) (hs : e.st = .none ∧ n = 0 ∨ e.st = .jpg n)
include hw ha hs

/-- What stands next is neither a scan nor sound. -/
theorem Dev.jpgScanDecode_bad (hn : jpgAfter (fld (d'.config f 4 i) 1 1) e.buf n = .bad) : d.jpgScanDecode i = d'.failSample f 4 i eo 0x0703 := by
  rw [Dev.jpgScanDecode, Dev.engine_atWork hw]
  rcases hs with ⟨hs, rfl⟩ | hs <;> simp only [hs, ha, hn, Bool.not_true, Bool.false_eq_true, if_false] <;> rfl

variable {g : JpgImg} {p r : Bytes} (hn : jpgAfter (fld (d'.config f 4 i) 1 1) e.buf n = .scan g p r)
include hn

/-- A scan header that is not valid. -/
theorem Dev.jpgScanDecode_badScan (hg : jpgScan g p = none) : d.jpgScanDecode i = d'.failSample f 4 i eo 0x0703 := by
  rw [Dev.jpgScanDecode, Dev.engine_atWork hw]
  rcases hs with ⟨hs, rfl⟩ | hs <;> simp only [hs, ha, hn, hg, Bool.not_true, Bool.false_eq_true, if_false] <;> rfl

variable {sc : JpgScan} (hg : jpgScan g p = some sc) (hp : g.prog = false)
include hg hp

/-- A picture record beyond the output limit. -/
theorem Dev.jpgScanDecode_long (hl : fld (d'.config f 4 i) 8 8 < g.hdr.len) : d.jpgScanDecode i = d'.failSample f 4 i eo 0x0702 := by
  rw [Dev.jpgScanDecode, Dev.engine_atWork hw]
  rcases hs with ⟨hs, rfl⟩ | hs <;>
    simp only [hs, ha, hn, hg, hp, hl, Bool.not_true, Bool.false_eq_true, false_and, true_or, if_false, if_true] <;> rfl

variable (hl : g.hdr.len ≤ fld (d'.config f 4 i) 8 8)
include hl

/-- The work cap. -/
theorem Dev.jpgScanDecode_capped (hc : withinCap (d'.capOf f 4 i e) (e.units + jpgUnits g sc) = false) :
    d.jpgScanDecode i = d'.failSample f 4 i eo 0x0704 := by
  rw [Dev.jpgScanDecode, Dev.engine_atWork hw]
  rcases hs with ⟨hs, rfl⟩ | hs <;>
    simp only [hs, ha, hn, hg, hp, hc, Nat.not_lt.2 hl, Bool.not_true, Bool.not_false, Bool.false_eq_true, false_and, or_self, if_false, if_true] <;> rfl

variable (hc : withinCap (d'.capOf f 4 i e) (e.units + jpgUnits g sc) = true)
include hc

/-- A scan that does not decode. -/
theorem Dev.jpgScanDecode_undecodable (hd : jpgDecode g sc r = none) :
    d.jpgScanDecode i = (d'.setEng 4 i { e with
      units := e.units + jpgUnits g sc
      st := .jpg (n + 1) }).failSample f 4 i eo 0x0703 := by
  rw [Dev.jpgScanDecode, Dev.engine_atWork hw]
  rcases hs with ⟨hs, rfl⟩ | hs <;>
    simp only [hs, ha, hn, hg, hp, hc, hd, Nat.not_lt.2 hl, Bool.not_true, Bool.false_eq_true, false_and, or_self, if_false] <;> rfl

/-- After the last scan the picture record leaves and the sample is finished. -/
theorem Dev.jpgScanDecode_ended {g1 g2 : JpgImg} {r1 : Bytes} (hd : jpgDecode g sc r = some (g1, r1))
    (he : jpgHead (fld (d'.config f 4 i) 1 1) (r1.length + 1) r1 g1 = .ended g2) :
    d.jpgScanDecode i = (((d'.setEng 4 i { e with
      units := e.units + jpgUnits g sc
      st := .jpg (n + 1) }).putOut 4 i eo (g2.hdr.record (g2.comps.map jpgPlane))).addWord (R.JPG_PICTURES i) 1).finish f 4 i eo := by
  rw [Dev.jpgScanDecode, Dev.engine_atWork hw]
  rcases hs with ⟨hs, rfl⟩ | hs <;>
    simp only [hs, ha, hn, hg, hp, hc, hd, he, Nat.not_lt.2 hl, Bool.not_true, Bool.false_eq_true, false_and, or_self, if_false]

end jpeg

/-! ## Pictures into tensors -/

/-- Image engine `i`, bound by `f` with one output `o`, has at least one byte of a sample of mode 0 or 1 in hand, read so far as `v` says. -/
structure Dev.ImgAtWork (d : Dev) (i f o : Nat) (e : Eng) (d' : Dev) (v : ImgSt) : Prop where
  input : ∃ ei, d.epOf 5 i false 0 = some (f, ei) ∧ d.feed f 5 i ei.ep = d'
  output : (d.epOf 5 i true 0).map (fun x => x.2.ep) = some o
  single : d.epOf 5 i true 1 = none
  runs : d.halted f = false
  held : d'.eng 5 i = e
  active : e.active = true
  kept : e.skip = false
  unmarked : e.mark = 0
  mode : fld (d'.config f 5 i) 1 1 < 2
  state : e.st = .none ∧ v = ImgSt.start ∨ e.st = .img v
  nonempty : e.buf ≠ []

section image
variable {d d' : Dev} {i f o : Nat} {e : Eng} {v : ImgSt} (hw : d.ImgAtWork i f o e d' v)
include hw

/-- A record that is none. -/
theorem Dev.imgPicture_none (hp : picHdr e.buf = none) (hl : 64 ≤ e.buf.length) : d.imgPicture i = d'.imgFail f i [o] 0x0703 := by
  obtain ⟨⟨ei, h1, rfl⟩, h2, h3, h4, h5, h6, h7, h8, h9, h10, h11⟩ := hw
  have hmode : fld ((d.feed f 5 i ei.ep).config f 5 i) 1 1 ≠ 2 := Nat.ne_of_lt h9
  rw [Dev.imgPicture, h1]
  simp only [h2, h3, h4, h5, h6, h7, h8, hp, hmode, Nat.not_lt.2 hl, List.isEmpty_eq_false_iff.2 h11, Option.map_none, Option.toList_some, Option.toList_none,
    List.append_nil, Bool.not_true, Bool.false_eq_true, ne_eq, not_true_eq_false, false_and, if_false]
  rfl

variable {h : PicHdr} (hp : picHdr e.buf = some h) (hl : h.len ≤ e.buf.length) (hpic : v.pic ≤ 65535) {rect : Option Rect} {flip : Bool} {rot : Nat}
  (hch : d'.imgChoice f (d'.config f 5 i) h (d'.epochOf f e.pos) (d'.sampleId f e.idx) v.pic = (rect, flip, rot))
include hp hl hpic hch

/-- A fixed rectangle outside the picture (R240). -/
theorem Dev.imgPicture_outside (hr : rect = none) : d.imgPicture i = d'.imgFail f i [o] 0x0703 := by
  obtain ⟨⟨ei, h1, rfl⟩, h2, h3, h4, h5, h6, h7, h8, h9, h10, h11⟩ := hw
  have hmode : fld ((d.feed f 5 i ei.ep).config f 5 i) 1 1 ≠ 2 := Nat.ne_of_lt h9
  rw [Dev.imgPicture, h1]
  rcases h10 with ⟨hs, rfl⟩ | hs <;>
    simp only [h2, h3, h4, h5, h6, h7, h8, hp, hmode, hch, hs, hr, Nat.not_lt.2 hl, Nat.not_lt.2 hpic, List.isEmpty_eq_false_iff.2 h11, Option.map_none,
      Option.toList_some, Option.toList_none, List.append_nil, Bool.not_true, Bool.false_eq_true, ne_eq, not_true_eq_false, false_and, if_false,
      or_self, Option.isNone_none] <;> rfl

variable {q : Rect} {n : Nat} (hr : rect = some q) (hn : n = (imgLevels (d'.config f 5 i)).foldl (fun n l => n + l.2.1 * l.2.2) 0)
include hr

/-- An output beyond its limit. -/
theorem Dev.imgPicture_long
    (ho : fld (d'.config f 5 i) 0x48 8 < v.len0 + imgLen (d'.config f 5 i) 0 1 ∨ fld (d'.config f 5 i) 0x48 8 < v.len1) :
    d.imgPicture i = d'.imgFail f i [o] 0x0702 := by
  obtain ⟨⟨ei, h1, rfl⟩, h2, h3, h4, h5, h6, h7, h8, h9, h10, h11⟩ := hw
  have hmode : fld ((d.feed f 5 i ei.ep).config f 5 i) 1 1 ≠ 2 := Nat.ne_of_lt h9
  rw [Dev.imgPicture, h1]
  rcases h10 with ⟨hs, rfl⟩ | hs <;>
    simp only [h2, h3, h4, h5, h6, h7, h8, hp, hmode, hch, hs, hr, ho, Nat.not_lt.2 hl, Nat.not_lt.2 hpic, List.isEmpty_eq_false_iff.2 h11, Option.map_none,
      Option.toList_some, Option.toList_none, List.append_nil, Bool.not_true, Bool.false_eq_true, ne_eq, not_true_eq_false, false_and, if_false,
      or_self, Option.isNone_some, and_false, Option.isSome_some, Option.isSome_none, if_true, List.length_singleton, add_zero] <;> rfl

variable (ho0 : v.len0 + imgLen (d'.config f 5 i) 0 1 ≤ fld (d'.config f 5 i) 0x48 8) (ho1 : v.len1 ≤ fld (d'.config f 5 i) 0x48 8)
include ho0 ho1 hn

/-- The work cap. -/
theorem Dev.imgPicture_capped (hc : withinCap (d'.capOf f 5 i e) (e.units + cdiv n 64) = false) : d.imgPicture i = d'.imgFail f i [o] 0x0704 := by
  obtain ⟨⟨ei, h1, rfl⟩, h2, h3, h4, h5, h6, h7, h8, h9, h10, h11⟩ := hw
  have hmode : fld ((d.feed f 5 i ei.ep).config f 5 i) 1 1 ≠ 2 := Nat.ne_of_lt h9
  rw [Dev.imgPicture, h1]
  rcases h10 with ⟨hs, rfl⟩ | hs <;>
    simp only [h2, h3, h4, h5, h6, h7, h8, hp, hmode, hch, hs, hr, hc, Nat.not_lt.2 ho0, Nat.not_lt.2 ho1, Nat.not_lt.2 hl, Nat.not_lt.2 hpic,
      List.isEmpty_eq_false_iff.2 h11, Option.map_none, Option.toList_some, Option.toList_none, List.append_nil, Bool.not_true, Bool.not_false, Bool.false_eq_true,
      ne_eq, not_true_eq_false, false_and, if_false, or_self, Option.isNone_some, and_false, Option.isSome_some, Option.isSome_none, if_true,
      List.length_singleton, add_zero, one_mul, ← hn] <;> rfl

/-- A picture becomes the tensors of its levels (R237 to R245). -/
theorem Dev.imgPicture_done (hc : withinCap (d'.capOf f 5 i e) (e.units + cdiv n 64) = true) (hrest : h.len < e.buf.length) {x : Dev} {rest : Bytes}
    (hcut : d'.cutOut e (some o) e.out (imgOut (d'.config f 5 i) h 0 (4 * b2n flip + 8 * rot) 0xFFFFFFFF [q]
      [imgRegion (d'.config f 5 i) h (imgPlanes h e.buf) flip rot q]) = (x, rest)) :
    d.imgPicture i = (x.addWord (R.IMG_PICTURES i) 1).setEng 5 i { e with
      units := e.units + cdiv n 64
      buf := e.buf.drop h.len
      out := rest
      st := .img { pic := v.pic + 1, len0 := v.len0 + imgLen (d'.config f 5 i) 0 1, len1 := v.len1, out1 := [] } } := by
  obtain ⟨⟨ei, h1, rfl⟩, h2, h3, h4, h5, h6, h7, h8, h9, h10, h11⟩ := hw
  have hmode : fld ((d.feed f 5 i ei.ep).config f 5 i) 1 1 ≠ 2 := Nat.ne_of_lt h9
  have hleft : e.buf.drop h.len ≠ [] := by simpa using hrest
  rw [Dev.imgPicture, h1]
  rcases h10 with ⟨hs, rfl⟩ | hs <;>
    simp only [h2, h3, h4, h5, h6, h7, h8, hp, hmode, hch, hs, hr, hc, Nat.not_lt.2 ho0, Nat.not_lt.2 ho1, Nat.not_lt.2 hl, Nat.not_lt.2 hpic,
      List.isEmpty_eq_false_iff.2 h11, List.isEmpty_eq_false_iff.2 hleft, Option.map_none, Option.toList_some, Option.toList_none, List.append_nil, Bool.not_true,
      Bool.false_eq_true, ne_eq, not_true_eq_false, false_and, if_false, or_self, Option.isNone_some, and_false, Option.isSome_some,
      Option.isSome_none, if_true, List.length_singleton, add_zero, zero_add, one_mul, ← hn, List.map_cons, List.map_nil, hcut, Bool.and_false] <;> rfl

end image

/-! ## Region tables -/

section regions
variable {d d' : Dev} {i f p t x : Nat} {ei : Endpoint} {q mine : List Granule} {b : Bytes} (hb : d.halted f = false)
  (he : d.epOf 5 i false 1 = some (f, ei)) (hq : q = d.inQ ei.ep) (hlow : lowest q = some (p, t, x))
  (hmine : mine = q.filter (fun g => g.pos = p && g.tok = t)) (hlast : mine.any (fun g => g.last) = true)
  (hdef : mine.any (fun g => g.defect ≠ 0) = false) (hd : d' = d.setInQ ei.ep (q.filter (fun g => !(g.pos = p && g.tok = t))))
  (hbytes : b = mine.flatMap (fun g => g.data)) (hm : fld (d'.config f 5 i) 1 1 = 2)
include hb he hq hlow hmine hlast hdef hd hbytes hm

/-- A whole table of mode 2 at the input: a bad or late one is counted, another becomes the entry of its stream (R246 to R248). -/
theorem Dev.roiArrive_whole :
    d.roiArrive i = if !roiTableOk b || (d'.roiLast i (fld b 8 4)).any (fun x => fld b 0xC 4 ≤ x.1) then d'.inc ⟨R.IMG_ROI i, 31, 0⟩
      else d'.roiWrite (d'.config f 5 i) (fld b 8 4) (fld b 0xC 4) 1 0 (fld b 0xC 4 - 1)
        ((chunks 16 (b.drop 64)).map (fun r => (fld r 0 2, fld r 2 2, fld r 4 2, fld r 6 2))) := by
  subst hq
  rw [Dev.roiArrive, he]
  simp only [hb, hlow, ← hmine, hlast, hdef, ← hd, ← hbytes, hm, Bool.not_true, Bool.false_eq_true, if_false, ne_eq, not_true_eq_false]

end regions

/-- Settles O27: the video, JPEG and image commands by the rows of R236 that their engines stand at, and region tables by R246. -/
theorem picturesAreDecoded : Obligations.PicturesAreDecoded := by
  refine ⟨?video, ?jpeg, ?image⟩
  case video =>
    rintro s i f eo e d c h hs hw rfl
    refine ⟨?start, fun v hv ha hh => ?run⟩
    case start =>
      rintro hst hl rfl
      exact ⟨fun hok => becomes_engine (f := (·.vdeStart i)) rfl hs (Dev.vdeStart_badHeader hw hst hl hok), fun hok =>
        ⟨fun hc hr => becomes_engine (f := (·.vdeStart i)) rfl hs (Dev.vdeStart_lost hw hst hl hok hc hr),
         fun hc ho => becomes_engine (f := (·.vdeStart i)) rfl hs (Dev.vdeStart_fresh hw hst hl hok hc ho),
         fun saved hc hr ho => becomes_engine (f := (·.vdeStart i)) rfl hs (Dev.vdeStart_restored hw hst hl hok hc hr ho)⟩⟩
    case run =>
      subst hh
      intro hk h0
      refine ⟨fun cw ch state sound outs recs sel hstep hsel => ?picture, fun hstep hlen priv a hp haddr hfit => ?save⟩
      case picture =>
        have hrun : ∀ x, s.dev.vdePicture i = x → Becomes (.vdePictureDecode i) s x := fun x hx => becomes_engine (f := (·.vdePicture i)) rfl hs hx
        exact ⟨fun hb => hrun _ (Dev.vdePicture_outside hw hv ha hk h0 hstep hsel hb), fun hb =>
          ⟨fun hl => hrun _ (Dev.vdePicture_long hw hv ha hk h0 hstep hsel hb hl), fun hl hst =>
            ⟨fun hc => hrun _ (Dev.vdePicture_capped hw hv ha hk h0 hstep hsel hb hl hst hc),
             fun hc hgood => hrun _ (Dev.vdePicture_decoded hw hv ha hk h0 hstep hsel hb hl hst hc hgood)⟩⟩⟩
      case save => exact becomes_engine (f := (·.vdeSave i)) rfl hs (Dev.vdeSave_ended hw hv ha hk hstep hlen hp haddr hfit)
  case jpeg =>
    rintro s i f eo n e d c p r g sc hs hw rfl ha hst
    have hrun : ∀ x, s.dev.jpgScanDecode i = x → Becomes (.jpgScanDecode i) s x := fun x hx => becomes_engine (f := (·.jpgScanDecode i)) rfl hs hx
    refine ⟨fun hn => hrun _ (Dev.jpgScanDecode_bad hw ha hst hn), fun hn => ⟨fun hg => hrun _ (Dev.jpgScanDecode_badScan hw ha hst hn hg), fun hg hp =>
      ⟨fun hl => hrun _ (Dev.jpgScanDecode_long hw ha hst hn hg hp hl), fun hl hc => hrun _ (Dev.jpgScanDecode_capped hw ha hst hn hg hp hl hc), ?decode⟩⟩⟩
    case decode =>
      rintro hl hc x rfl
      exact ⟨fun hd => hrun _ (Dev.jpgScanDecode_undecodable hw ha hst hn hg hp hl hc hd),
        fun g1 r1 g2 hd he => hrun _ (Dev.jpgScanDecode_ended hw ha hst hn hg hp hl hc hd he)⟩
  case image =>
    rintro s i f ei e d c v o hs hh
    refine ⟨?picture, ?table⟩
    case picture =>
      rintro hin hout h1 hd heng hact hskip hmark rfl hmode hst hbuf
      have hw : s.dev.ImgAtWork i f o e d v := ⟨⟨ei, hin, hd⟩, hout, h1, hh, heng, hact, hskip, hmark, hmode, hst, hbuf⟩
      have hrun : ∀ x, s.dev.imgPicture i = x → Becomes (.imgPicture i) s x := fun x hx => becomes_engine (f := (·.imgPicture i)) rfl hs hx
      refine ⟨fun hp hl => hrun _ (Dev.imgPicture_none hw hp hl), fun h rect flip rot hp hl hpic hch =>
        ⟨fun hr => hrun _ (Dev.imgPicture_outside hw hp hl hpic hch hr), ?choice⟩⟩
      case choice =>
        rintro q n l1 hr hn rfl
        exact ⟨fun ho => hrun _ (Dev.imgPicture_long hw hp hl hpic hch hr ho), fun ho0 ho1 =>
          ⟨fun hc => hrun _ (Dev.imgPicture_capped hw hp hl hpic hch hr hn ho0 ho1 hc),
           fun hc hrest x rest hcut => hrun _ (Dev.imgPicture_done hw hp hl hpic hch hr hn ho0 ho1 hc hrest hcut)⟩⟩
    case table =>
      rintro p t x q mine b he hq hlow hmine hlast hdef hd hbytes rfl hm
      have hx := Dev.roiArrive_whole hh he hq hlow hmine hlast hdef hd hbytes hm
      refine ⟨fun hbad => ?bad, fun hok hdone => ?good⟩
      case bad =>
        refine becomes_engine (f := (·.roiArrive i)) rfl hs (hx.trans (if_pos ?_))
        rcases hbad with h | h
        · rw [h]; rfl
        · rw [h]; exact Bool.or_true _
      case good => exact becomes_engine (f := (·.roiArrive i)) rfl hs (hx.trans (if_neg (by rw [hok, hdone]; decide)))

end Sys2Proof.Machine
end

section
/-! SUPPORT. The token engine: BPE lanes, mask units and detokenizer lanes (R252 to R272). -/

namespace Sys2Proof.Machine

/-! ## BPE lanes -/

/-- A lane that has begun goes on with its loop (R258). -/
theorem Dev.bpeRun_begun {d d' : Dev} {i f eo : Nat} {e : Eng} {v : BpeSt} {buf out : Bytes} {units : Nat} {ends : LaneEnd} (hw : d.AtWork 6 i f eo e d')
    (hb : e.bpe.begun = true) (hl : d'.bpeLoop f (d'.config f 6 i) (d'.capOf f 6 i e) e.arrived (e.buf.length + 1) e.buf e.bpe e.units false [] =
      (buf, v, units, out, ends)) {x : Dev}
    (hx : x = (d'.addWord (R.TOK_BPE_TOKENS i) (v.tokens - e.bpe.tokens)).setEng 6 i { e with
      buf := buf
      units := units
      st := .bpe v }) :
    (ends = .more → d.bpeRun i = x.putOut 6 i eo out) ∧ (ends = .ended → d.bpeRun i = (x.putOut 6 i eo out).finish f 6 i eo) ∧
      (∀ st, ends = .bad st → d.bpeRun i = x.failSample f 6 i eo st) := by
  have hbegun : { e.bpe with begun := true } = e.bpe := by rw [← hb]
  rw [Dev.bpeRun, Dev.engine_atWork hw]
  simp only [hb, hbegun, Bool.not_true, Bool.false_and, Bool.false_eq_true, if_false, bpeWrite, hl, ← hx]
  exact ⟨fun h => by rw [h], fun h => by rw [h], fun st h => by rw [h]⟩

/-- With a whole sample used up, the last piece and the end token are written (R258). -/
theorem Dev.bpeLoop_used (d : Dev) (f : Nat) (c : Bytes) (cap : Option Nat) {fuel : Nat} (h0 : fuel ≠ 0) (b : BpeSt) (units : Nat) (counted : Bool) (out : Bytes)
    {v : BpeSt} {o : Bytes} {hit : Bool}
    (hw : bpeWrite (fld c 0x10 8) b out ((if b.piece.isEmpty then [] else d.pieceTokens f b.piece) ++ (if (fld c 1 1).testBit 1 then [fld c 0xC 4] else [])) =
      (v, o, hit)) :
    d.bpeLoop f c cap true fuel [] b units counted out = ([], v, units, o, if hit then .bad 0x0702 else .ended) := by
  obtain ⟨n, rfl⟩ := Nat.exists_eq_succ_of_ne_zero h0
  simp only [Dev.bpeLoop, List.isEmpty_nil, if_true, Bool.not_true, Bool.false_eq_true, if_false, hw]
  rfl

/-! ## The merge rule (R257) -/

/-- `k` is the lowest rank among the neighbours of `l`, and `p` the first place it stands at, with the result `x`. -/
def IsBestMerge (ms : List (Nat × Nat × Nat)) (l : List Nat) (k x p : Nat) : Prop :=
  rankOf ms 0 (l.getD p 0) (l.getD (p + 1) 0) = some (k, x) ∧
    ∀ j k' x', j + 1 < l.length → rankOf ms 0 (l.getD j 0) (l.getD (j + 1) 0) = some (k', x') → k < k' ∨ k = k' ∧ p ≤ j

/-- Where no merge is found, no neighbours have a rank. -/
theorem rankOf_eq_none_of_bestMerge {ms : List (Nat × Nat × Nat)} {i : Nat} {l : List Nat} (h : bestMerge ms i l = none) :
    ∀ j, j + 1 < l.length → rankOf ms 0 (l.getD j 0) (l.getD (j + 1) 0) = none := by
  induction l generalizing i with
  | nil => intro j hj; exact absurd hj (by simp)
  | cons a l ih =>
    cases l with
    | nil => intro j hj; exact absurd hj (by simp)
    | cons b r =>
      cases ha : rankOf ms 0 a b with
      | some y =>
        cases hr : bestMerge ms (i + 1) (b :: r) with
        | none => simp only [bestMerge, ha, hr, reduceCtorEq] at h
        | some z =>
          simp only [bestMerge, ha, hr] at h
          split at h <;> exact absurd h (by simp)
      | none =>
        simp only [bestMerge, ha] at h
        intro j hj
        cases j with
        | zero => simpa using ha
        | succ j => simpa using ih h j (by simpa using hj)

/-- The neighbours in front come first where none behind them has a lower rank. -/
theorem isBestMerge_head {ms : List (Nat × Nat × Nat)} {a b : Nat} {r : List Nat} {k x : Nat} (ha : rankOf ms 0 a b = some (k, x))
    (hrest : ∀ j k' x', j + 1 < (b :: r).length → rankOf ms 0 ((b :: r).getD j 0) ((b :: r).getD (j + 1) 0) = some (k', x') → k ≤ k') :
    IsBestMerge ms (a :: b :: r) k x 0 := by
  refine ⟨by simpa using ha, fun j k' x' hj hk => ?_⟩
  cases j with
  | zero =>
    have : (k, x) = (k', x') := Option.some.inj (ha.symm.trans (by simpa using hk))
    exact Or.inr ⟨congrArg Prod.fst this, Nat.le_refl 0⟩
  | succ j =>
    rcases Nat.lt_or_eq_of_le (hrest j k' x' (by simpa using hj) (by simpa using hk)) with h | h
    · exact Or.inl h
    · exact Or.inr ⟨h, Nat.zero_le _⟩

/-- A merge further on stays the best where the neighbours in front have no rank as low. -/
theorem isBestMerge_cons {ms : List (Nat × Nat × Nat)} {a b : Nat} {r : List Nat} {k x p : Nat} (h : IsBestMerge ms (b :: r) k x p)
    (ha : ∀ k' x', rankOf ms 0 a b = some (k', x') → k < k') : IsBestMerge ms (a :: b :: r) k x (p + 1) := by
  obtain ⟨h1, h2⟩ := h
  refine ⟨by simpa using h1, fun j k' x' hj hk => ?_⟩
  cases j with
  | zero => exact Or.inl (ha k' x' (by simpa using hk))
  | succ j =>
    rcases h2 j k' x' (by simpa using hj) (by simpa using hk) with h | ⟨h, hp⟩
    · exact Or.inl h
    · exact Or.inr ⟨h, Nat.succ_le_succ hp⟩

/-- The merge found has the lowest rank and, among equals, the first place. -/
theorem bestMerge_isBestMerge {ms : List (Nat × Nat × Nat)} {i : Nat} {l : List Nat} {k x p : Nat} (h : bestMerge ms i l = some (k, x, p)) :
    i ≤ p ∧ IsBestMerge ms l k x (p - i) := by
  induction l generalizing i k x p with
  | nil => simp [bestMerge] at h
  | cons a l ih =>
    cases l with
    | nil => simp [bestMerge] at h
    | cons b r =>
      cases ha : rankOf ms 0 a b with
      | none =>
        simp only [bestMerge, ha] at h
        obtain ⟨hp, hbest⟩ := ih h
        have hback := isBestMerge_cons (a := a) hbest (fun k' x' hk => absurd (ha.symm.trans hk) (by simp))
        exact ⟨by omega, by rwa [show p - (i + 1) + 1 = p - i by omega] at hback⟩
      | some y =>
        obtain ⟨k0, x0⟩ := y
        cases hr : bestMerge ms (i + 1) (b :: r) with
        | none =>
          simp only [bestMerge, ha, hr, Option.some.injEq, Prod.mk.injEq] at h
          obtain ⟨rfl, rfl, rfl⟩ := h
          refine ⟨Nat.le_refl _, ?_⟩
          rw [Nat.sub_self]
          exact isBestMerge_head ha (fun j k' x' hj hk => absurd ((rankOf_eq_none_of_bestMerge hr j hj).symm.trans hk) (by simp))
        | some z =>
          obtain ⟨k1, x1, p1⟩ := z
          obtain ⟨hp, hbest⟩ := ih hr
          simp only [bestMerge, ha, hr] at h
          split at h
          case isTrue hle =>
            obtain ⟨rfl, rfl, rfl⟩ : k0 = k ∧ x0 = x ∧ i = p := by simpa using h
            refine ⟨Nat.le_refl _, ?_⟩
            rw [Nat.sub_self]
            refine isBestMerge_head ha (fun j k' x' hj hk => ?_)
            rcases hbest.2 j k' x' hj hk with h' | ⟨h', -⟩ <;> omega
          case isFalse hgt =>
            obtain ⟨rfl, rfl, rfl⟩ : k1 = k ∧ x1 = x ∧ p1 = p := by simpa using h
            have hback := isBestMerge_cons (a := a) hbest (fun k' x' hk => by
              have hk' : (k0, x0) = (k', x') := Option.some.inj (ha.symm.trans hk)
              have : k0 = k' := congrArg Prod.fst hk'
              omega)
            exact ⟨by omega, by rwa [show p1 - (i + 1) + 1 = p1 - i by omega] at hback⟩

/-! ## Mask units -/

section maskHeader
variable {d d' : Dev} {i f eo : Nat} {e : Eng} (hw : d.AtWork 7 i f eo e d') (hc : fld (d'.config f 7 i) 2 1 ≠ 0)
  (hm : (d'.maskSt f (fld (d'.config f 7 i) 4 4) e).headed = false) (hl : 32 ≤ e.buf.length) (hs : (fld (e.buf.take 32) 4 2).testBit 0 = true)
include hw hc hm hl hs

/-- A chunk header that is not valid, or one without END where no state is kept (R264). -/
theorem Dev.maskHeader_bad
    (hb : chunkHeaderOk (e.buf.take 32) = false ∨ (fld (e.buf.take 32) 4 2).testBit 1 = false ∧ fld (d'.config f 7 i) 8 4 = 0) :
    d.maskHeader i = d'.failSample f 7 i eo 0x0703 := by
  have hb' : (!chunkHeaderOk (e.buf.take 32)) = true ∨ (!(fld (e.buf.take 32) 4 2).testBit 1) = true ∧ fld (d'.config f 7 i) 8 4 = 0 := by
    simpa only [Bool.not_eq_true'] using hb
  rw [Dev.maskHeader, Dev.engine_atWork hw]
  simp only [hc, hm, hs, Nat.not_lt.2 hl, Bool.false_eq_true, or_self, if_false, if_true]
  exact if_pos hb'

/-- The header of a chunk that starts a sequence and ends it. -/
theorem Dev.maskHeader_start (hok : chunkHeaderOk (e.buf.take 32) = true) (hf : (fld (e.buf.take 32) 4 2).testBit 1 = true) :
    d.maskHeader i = (d'.maskGo i e { MaskSt.start (d'.gramFld f (fld (d'.config f 7 i) 4 4) 8 4) with
      headed := true
      fin := true
      key := fld (e.buf.take 32) 8 4
      seq := fld (e.buf.take 32) 0xC 4
      left := some (fld (e.buf.take 32) 0x10 4) } 32).maskEnd f i eo (d'.config f 7 i) := by
  rw [Dev.maskHeader, Dev.engine_atWork hw]
  simp only [hc, hm, hs, hok, hf, Nat.not_lt.2 hl, Bool.false_eq_true, or_self, if_false, if_true, Bool.not_true, false_and]

end maskHeader

section maskToken
variable {d d' : Dev} {i f eo : Nat} {e : Eng} {c : Bytes} {m : MaskSt} {g : Nat} (hw : d.AtWork 7 i f eo e d') (hcfg : c = d'.config f 7 i) (hg : g = fld c 4 4)
  (hm : m = d'.maskSt f g e) (hh : m.headed = true) (hl : 4 ≤ e.buf.length)
include hw hcfg hg hm hh hl

/-- The work cap. -/
theorem Dev.maskToken_capped (hcap : withinCap (d'.capOf f 7 i e) (e.units + 1) = false) : d.maskToken i = d'.failSample f 7 i eo 0x0704 := by
  have hb : e.buf.isEmpty = false := List.isEmpty_eq_false_iff.2 (List.ne_nil_of_length_pos (by omega))
  have hm' : { m with headed := true } = m := by rw [← hh]
  rw [Dev.maskToken, Dev.engine_atWork hw]
  simp only [← hcfg, ← hg, ← hm, hm', ite_self, hh, hb, hcap, Nat.not_lt.2 hl, Bool.not_true, Bool.not_false, Bool.false_eq_true, if_false, if_true]
  rfl

variable (hcap : withinCap (d'.capOf f 7 i e) (e.units + 1) = true) {t : Nat} (ht : t = fld e.buf 0 4)
include hcap ht

/-- A token outside the vocabulary, or one more than the chunk holds. -/
theorem Dev.maskToken_bad (hbad : d'.vocabCount f ≤ t ∨ m.left = some 0) : d.maskToken i = d'.failSample f 7 i eo 0x0703 := by
  have hb : e.buf.isEmpty = false := List.isEmpty_eq_false_iff.2 (List.ne_nil_of_length_pos (by omega))
  have hm' : { m with headed := true } = m := by rw [← hh]
  rw [Dev.maskToken, Dev.engine_atWork hw]
  simp only [← hcfg, ← hg, ← hm, hm', ite_self, hh, hb, hcap, ← ht, Nat.not_lt.2 hl, Bool.not_true, Bool.false_eq_true, if_false]
  exact if_pos hbad

variable (hv : t < d'.vocabCount f) (hleft : m.left ≠ some 0) {x : Dev} (hx : x = d'.addWord (R.TOK_MASK_TOKENS i) 1) {flags : Nat} {al : List (Nat × Nat)}
  {m' : MaskSt} (hstep : maskStep (x.transOf f g m.state) (x.deadEnd f g m.state) (x.gramFld f g 2 2) (fld c 3 1 = 1) m t = (flags, al, m', false, false, false))
  {r : Bytes} (hr : r = maskRecord (fld c 1 1) (d'.vocabCount f) m t flags al)
include hv hleft hx hstep hr

/-- A record beyond the output limit. -/
theorem Dev.maskToken_long (ho : fld c 0x18 8 < m.outLen + r.length) : d.maskToken i = x.failSample f 7 i eo 0x0702 := by
  have hb : e.buf.isEmpty = false := List.isEmpty_eq_false_iff.2 (List.ne_nil_of_length_pos (by omega))
  have hm' : { m with headed := true } = m := by rw [← hh]
  rw [Dev.maskToken, Dev.engine_atWork hw]
  simp only [← hcfg, ← hg, ← hm, hm', ite_self, hh, hb, hcap, ← ht, ← hx, hstep, ← hr, ho, hleft, Nat.not_le.2 hv, Nat.not_lt.2 hl, Bool.not_true, Bool.false_eq_true,
    or_self, if_false, if_true]
  rfl

/-- A token inside the allowed set puts out its record and moves the automaton on. -/
theorem Dev.maskToken_taken (ho : m.outLen + r.length ≤ fld c 0x18 8) :
    d.maskToken i = ((x.maskGo i { e with units := e.units + 1 } { m' with
      left := m.left.map (· - 1)
      pos := m.pos + 1
      outLen := m.outLen + r.length } 4).putOut 7 i eo r).maskEnd f i eo c := by
  have hb : e.buf.isEmpty = false := List.isEmpty_eq_false_iff.2 (List.ne_nil_of_length_pos (by omega))
  have hm' : { m with headed := true } = m := by rw [← hh]
  rw [Dev.maskToken, Dev.engine_atWork hw]
  simp only [← hcfg, ← hg, ← hm, hm', ite_self, hh, hb, hcap, ← ht, ← hx, hstep, ← hr, Nat.not_lt.2 ho, hleft, Nat.not_le.2 hv, Nat.not_lt.2 hl, Bool.not_true,
    Bool.false_eq_true, or_self, if_false]

end maskToken

section maskStep
variable {ts : List Bytes} {dead max : Nat} {m : MaskSt} {t : Nat} {al : List (Nat × Nat)} (hf : m.failed = false) (ht : m.terminal = false)
  (hal : al = allowedRuns max ts m.stack) (hne : al ≠ [])
include hf ht hal hne

/-- A token inside the allowed set (R262). -/
theorem maskStep_inside (defect : Bool) {tr : Bytes} (hin : inRuns al t = true) (htr : takes ts m.stack t = some tr) :
    maskStep ts dead max defect m t = (0, al, { m with
      state := trNext tr
      stack := trStack m.stack tr }, false, false, false) := by
  simp only [maskStep, hf, ht, ← hal, List.isEmpty_eq_false_iff.2 hne, hin, htr, Bool.false_eq_true, if_false, false_and, if_true]
  rfl

/-- A token outside the allowed set is a violation, and a defect where the record says so. -/
theorem maskStep_outside (defect : Bool) (hin : inRuns al t = false) :
    maskStep ts dead max defect m t = if defect then (0, al, m, false, true, true) else (12, al, { m with failed := true }, false, true, false) := by
  simp only [maskStep, hf, ht, ← hal, List.isEmpty_eq_false_iff.2 hne, hin, Bool.false_eq_true, if_false, false_and]
  rfl

end maskStep

/-! ## Detokenizer lanes -/

/-- A sample whose every item is done is finished (R252). -/
theorem Dev.detokToken_done {d d' : Dev} {i f eo : Nat} {e : Eng} (hw : d.AtWork 8 i f eo e d') (hb : e.buf = []) (ha : e.arrived = true) :
    d.detokToken i = d'.finish f 8 i eo := by
  rw [Dev.detokToken, Dev.engine_atWork hw]
  simp only [hb, ha, List.isEmpty_nil, if_true]

section detok
variable {d d' : Dev} {i f eo : Nat} {e : Eng} (hw : d.AtWork 8 i f eo e d') (hl : 4 ≤ e.buf.length)
include hw hl

/-- The work cap. -/
theorem Dev.detokToken_capped (hcap : withinCap (d'.capOf f 8 i e) (e.units + 1) = false) : d.detokToken i = d'.failSample f 8 i eo 0x0704 := by
  have hb : e.buf.isEmpty = false := List.isEmpty_eq_false_iff.2 (List.ne_nil_of_length_pos (by omega))
  rw [Dev.detokToken, Dev.engine_atWork hw]
  simp only [hb, hcap, Nat.not_lt.2 hl, Bool.not_false, Bool.false_eq_true, if_false, if_true]
  rfl

variable (hcap : withinCap (d'.capOf f 8 i e) (e.units + 1) = true) {t : Nat} (ht : t = fld e.buf 0 4)
include hcap ht

/-- A token outside the vocabulary. -/
theorem Dev.detokToken_bad (hv : d'.vocabCount f ≤ t) : d.detokToken i = d'.failSample f 8 i eo 0x0703 := by
  have hb : e.buf.isEmpty = false := List.isEmpty_eq_false_iff.2 (List.ne_nil_of_length_pos (by omega))
  rw [Dev.detokToken, Dev.engine_atWork hw]
  simp only [hb, hcap, ← ht, hv, Nat.not_lt.2 hl, Bool.not_true, Bool.false_eq_true, if_false, if_true]
  rfl

variable {n : Nat} (hs : e.st = .none ∧ n = 0 ∨ e.st = .detok n) (hv : t < d'.vocabCount f) {x : Dev} (hx : x = d'.addWord (R.TOK_DTK_TOKENS i) 1) {em : Bytes}
  (hem : em = x.emission f (d'.config f 8 i) t)
include hs hv hx hem

/-- An output beyond its limit. -/
theorem Dev.detokToken_long (ho : fld (d'.config f 8 i) 8 8 < n + em.length) : d.detokToken i = x.failSample f 8 i eo 0x0702 := by
  have hb : e.buf.isEmpty = false := List.isEmpty_eq_false_iff.2 (List.ne_nil_of_length_pos (by omega))
  rw [Dev.detokToken, Dev.engine_atWork hw]
  rcases hs with ⟨hs, rfl⟩ | hs <;>
    simp only [hb, hs, hcap, ← ht, ← hx, ← hem, ho, Nat.not_le.2 hv, Nat.not_lt.2 hl, Bool.not_true, Bool.false_eq_true, if_false, if_true] <;> rfl

/-- A token's bytes, or its record, go out. -/
theorem Dev.detokToken_out (ho : n + em.length ≤ fld (d'.config f 8 i) 8 8) (hmore : 4 < e.buf.length) :
    d.detokToken i = (x.setEng 8 i { e with
      units := e.units + 1
      buf := e.buf.drop 4
      st := .detok (n + em.length) }).putOut 8 i eo em := by
  have hb : e.buf.isEmpty = false := List.isEmpty_eq_false_iff.2 (List.ne_nil_of_length_pos (by omega))
  have hleft : (e.buf.drop 4).isEmpty = false := List.isEmpty_eq_false_iff.2 (by simpa using hmore)
  rw [Dev.detokToken, Dev.engine_atWork hw]
  rcases hs with ⟨hs, rfl⟩ | hs <;>
    simp only [hb, hs, hcap, ← ht, ← hx, ← hem, hleft, Nat.not_lt.2 ho, Nat.not_le.2 hv, Nat.not_lt.2 hl, Bool.not_true, Bool.false_eq_true, if_false,
      Bool.and_false]

end detok

/-- Settles O28: BPE lanes by their loop, the merge rule by induction on the piece, mask units and detokenizer lanes item by item. -/
theorem tokensAreMade : Obligations.TokensAreMade := by
  refine ⟨⟨?bpe, ?used, ?merge⟩, ⟨?mask, ?step⟩, ?detok⟩
  case bpe =>
    rintro s i f eo e d c b v buf out units ends hs hw rfl rfl hb hl x hx
    have hrun : ∀ y, s.dev.bpeRun i = y → Becomes (.bpeRun i) s y := fun y hy => becomes_engine (f := (·.bpeRun i)) rfl hs hy
    obtain ⟨hmore, hended, hbad⟩ := Dev.bpeRun_begun hw hb hl hx
    exact ⟨fun h => hrun _ (hmore h), fun h => hrun _ (hended h), fun st h => hrun _ (hbad st h)⟩
  case used =>
    rintro d f c cap fuel b units counted out w rfl h0
    exact ⟨fun v o hw => Dev.bpeLoop_used d f c cap h0 b units counted out hw, fun v o hw => Dev.bpeLoop_used d f c cap h0 b units counted out hw⟩
  case merge =>
    intro ms i l k x p h
    exact bestMerge_isBestMerge h
  case mask =>
    rintro s i f eo e d c m g t v hs hw hcfg hg hm ht rfl
    refine ⟨fun hc hh hl hst => ?header, fun hh hl => ?token⟩
    case header =>
      have hrun : ∀ y, s.dev.maskHeader i = y → Becomes (.maskChunkHeader i) s y := fun y hy => becomes_engine (f := (·.maskHeader i)) rfl hs hy
      subst hm hg hcfg
      exact ⟨fun hb => hrun _ (Dev.maskHeader_bad hw hc hh hl hst hb), fun hok hf => hrun _ (Dev.maskHeader_start hw hc hh hl hst hok hf)⟩
    case token =>
      have hrun : ∀ y, s.dev.maskToken i = y → Becomes (.maskToken i) s y := fun y hy => becomes_engine (f := (·.maskToken i)) rfl hs hy
      refine ⟨fun hcap => hrun _ (Dev.maskToken_capped hw hcfg hg hm hh hl hcap), fun hcap =>
        ⟨fun hbad => hrun _ (Dev.maskToken_bad hw hcfg hg hm hh hl hcap ht hbad), fun hv hleft x flags al m' r hx hstep hr =>
          ⟨fun ho => hrun _ (Dev.maskToken_long hw hcfg hg hm hh hl hcap ht hv hleft hx hstep hr ho),
           fun ho => hrun _ (Dev.maskToken_taken hw hcfg hg hm hh hl hcap ht hv hleft hx hstep hr ho)⟩⟩⟩
  case step =>
    intro ts dead max defect m t al hf htm hal hne
    exact ⟨fun tr hin htr => maskStep_inside hf htm hal hne defect hin htr, fun hin => ⟨maskStep_outside hf htm hal hne false hin,
      congrArg (fun y => y.2.2.2) (maskStep_outside hf htm hal hne true hin)⟩⟩
  case detok =>
    rintro s i f eo n t e d c hs hw rfl hst ht
    have hrun : ∀ y, s.dev.detokToken i = y → Becomes (.detokToken i) s y := fun y hy => becomes_engine (f := (·.detokToken i)) rfl hs hy
    refine ⟨fun hb ha => hrun _ (Dev.detokToken_done hw hb ha), fun hl => ⟨fun hcap => hrun _ (Dev.detokToken_capped hw hl hcap), fun hcap =>
      ⟨fun hv => hrun _ (Dev.detokToken_bad hw hl hcap ht hv), fun hv x em hx hem =>
        ⟨fun ho => hrun _ (Dev.detokToken_long hw hl hcap ht hst hv hx hem ho), fun ho hm => hrun _ (Dev.detokToken_out hw hl hcap ht hst hv hx hem ho hm)⟩⟩⟩⟩

end Sys2Proof.Machine
end

section
/-! SUPPORT. Ethernet frames, port and route commands, and gate lists (R365, R373 to R375, R410 to R413). -/

namespace Sys2Proof.Machine

/-! ## Ethernet frames -/

/-- Nothing is received but on an Ethernet port that is UP. -/
theorem Dev.rxEth_closed {d : Dev} {p : Nat} (fr : EthFrame) (h : d.isPort p = false ∨ d.isEth p = false ∨ d.pstate p ≠ 3) : d.rxEth p fr = d := by
  refine if_pos ?_
  rcases h with h | h | h
  · rw [h]; rfl
  · rw [h, Bool.not_false, Bool.or_true, Bool.true_or]
  · rw [bne_iff_ne.2 h, Bool.or_true]

/-- The priority of a frame: its tag's, or 0 (R374). -/
def ethPriority (fr : EthFrame) : Nat := fr.tagPcp.elim 0 Fin.val

section rxEth
variable {d : Dev} {p : Nat} {fr : EthFrame} (hp : d.isPort p = true) (he : d.isEth p = true) (hs : d.pstate p = 3)
include hp he hs

/-- A frame with a bad FCS is counted. -/
theorem Dev.rxEth_fcs (hf : fr.fcsOk = false) : d.rxEth p fr = d.inc (R.FAB_PORT_ETH_FCS p) := by
  simp only [Dev.rxEth, hp, he, hs, hf, Bool.not_true, Bool.not_false, bne_self_eq_false, Bool.or_self, Bool.false_eq_true, if_false, if_true]

variable (hf : fr.fcsOk = true)
include hf

/-- A PAUSE frame is counted. -/
theorem Dev.rxEth_pause (hq : fr.pause = true) : d.rxEth p fr = d.inc (R.FAB_PORT_ETH_PAUSE p) := by
  simp only [Dev.rxEth, hp, he, hs, hf, hq, Bool.not_true, bne_self_eq_false, Bool.or_self, Bool.false_eq_true, if_false, if_true]

variable (hq : fr.pause = false)
include hq

/-- PFC pauses and resumes the priorities it names. -/
theorem Dev.rxEth_pfc {mask off : BitVec 8} (hx : fr.pfc = some (mask, off)) :
    d.rxEth p fr = d.setLink p { d.link p with paused := (List.range 8).foldl (fun x i =>
      if !mask.toNat.testBit i then x else if off.toNat.testBit i then insNat i x else x.filter (· != i)) (d.link p).paused } := by
  simp only [Dev.rxEth, hp, he, hs, hf, hq, hx, Bool.not_true, bne_self_eq_false, Bool.or_self, Bool.false_eq_true, if_false]

variable (hx : fr.pfc = none)
include hx

/-- A frame outside the subset is counted. -/
theorem Dev.rxEth_unsupported (hu : fr.inSubset = false ∨ fr.bytes < 64 ∨ 9216 < fr.bytes) : d.rxEth p fr = d.inc (R.FAB_PORT_ETH_UNSUPPORTED p) := by
  have hu' : (!fr.inSubset || decide (fr.bytes < 64) || decide (fr.bytes > 9216)) = true := by
    rcases hu with h | h | h <;> simp [h]
  simp only [Dev.rxEth, hp, he, hs, hf, hq, hx, hu', Bool.not_true, bne_self_eq_false, Bool.or_self, Bool.false_eq_true, if_false, if_true]

variable (hu : fr.inSubset = true) (h0 : 64 ≤ fr.bytes) (h1 : fr.bytes ≤ 9216) (hl : (d.fab.vl (ethPriority fr)).lossy = true)
include hu h0 h1 hl

omit hp he hs hf hq hx hl in
theorem ethFrame_fits : (!fr.inSubset || decide (fr.bytes < 64) || decide (fr.bytes > 9216)) = false := by
  simp [hu, Nat.not_lt.2 h0, Nat.not_lt.2 h1]

/-- A frame of a lossy priority without room is dropped (R374). -/
theorem Dev.rxEth_dropped (hover : d.ethBuf p (ethPriority fr) < Map.get 0 (d.link p).ethHeld (ethPriority fr) + cdiv fr.bytes 64) :
    d.rxEth p fr = d.inc (R.FAB_PORT_DISC_LOSSY p) := by
  cases ht : fr.tagPcp <;>
  · simp only [ethPriority, ht, Option.elim] at hl hover
    simp only [Dev.rxEth, ht, hp, he, hs, hf, hq, hx, ethFrame_fits hu h0 h1, hl, hover, Bool.not_true, bne_self_eq_false, Bool.or_self, Bool.false_eq_true,
      if_false, Bool.true_and, decide_true, if_true]

omit hp he hs hf hq hx hu h0 h1 hl in
theorem not_lossless {x a b : Bool} (h : x = true) : ¬ ((!x && a && b) = true) := by
  rw [h]; exact Bool.false_ne_true

/-- One with room is held. -/
theorem Dev.rxEth_held (hroom : Map.get 0 (d.link p).ethHeld (ethPriority fr) + cdiv fr.bytes 64 ≤ d.ethBuf p (ethPriority fr)) {x : Dev}
    (hheld : x = d.setLink p { d.link p with
      ethHeld := Map.put 0 (d.link p).ethHeld (ethPriority fr) (Map.get 0 (d.link p).ethHeld (ethPriority fr) + cdiv fr.bytes 64) }) :
    d.rxEth p fr = { x with fab := { x.fab with ethRx := x.fab.ethRx ++ [(p, fr)] } } := by
  subst hheld
  cases ht : fr.tagPcp <;>
  · simp only [ethPriority, ht, Option.elim] at hl hroom
    simp only [Dev.rxEth, ethPriority, Option.elim, ht, hp, he, hs, hf, hq, hx, ethFrame_fits hu h0 h1, hl, Nat.not_lt.2 hroom, Bool.not_true, bne_self_eq_false,
      Bool.or_self, Bool.false_eq_true, if_false, Bool.true_and, decide_false]
    exact if_neg (not_lossless hl)

end rxEth

/-! ## Ports and routes -/

/-- The writable fields of FAB_PORT_CFG_p, and ENABLE (R375). -/
def Dev.portCfg (d : Dev) (p : Nat) (v : Word) (e : Nat) : Dev :=
  ((((d.set (R.FAB_PORT_CFG_WIDTH p) (getBits v 3 0)).set (R.FAB_PORT_CFG_RELAY p) (getBits v 5 5)).set (R.FAB_PORT_CFG_PRECODE p) (getBits v 6 6)).set
    (R.FAB_PORT_CFG_CR p) (getBits v 7 7)).set (R.FAB_PORT_CFG_ENABLE p) e

/-- After a fatal cause the ports stay as they are (R475). -/
theorem Dev.portEnable_fatal {d : Dev} (p : Nat) (v : Word) (h : d.fatal = true) : d.portEnable p v = d := if_pos h

section portEnable
variable {d : Dev} {p : Nat} {v : Word} (hf : d.fatal = false)
include hf

/-- ENABLE 0 takes a port to DISABLED. -/
theorem Dev.portEnable_off (hv : v.getLsbD 8 = false) (hs : (d.portCfg p v 0).pstate p ≠ 0) : d.portEnable p v = (d.portCfg p v 0).enterDisabled p := by
  simp only [Dev.portEnable, hf, hv, Bool.false_eq_true, if_false, Bool.not_false, if_true]
  exact if_neg hs

/-- On an enabled port the new fields wait. -/
theorem Dev.portEnable_enabled (hv : v.getLsbD 8 = true) (he : d.has (R.FAB_PORT_CFG_ENABLE p) = true) (hs : d.pstate p ≠ 0) :
    d.portEnable p v = d.portCfg p v 1 := by
  simp only [Dev.portEnable, hf, hv, he, Bool.false_eq_true, if_false, Bool.not_true, Bool.true_and, bne_iff_ne.2 hs, if_true]
  rfl

variable (hv : v.getLsbD 8 = true) (he : d.has (R.FAB_PORT_CFG_ENABLE p) = false)
include hv he

/-- A disabled port whose width fits is configured and trains. -/
theorem Dev.portEnable_starts (hw : d.portFits p (getBits v 3 0) = true) :
    d.portEnable p v = ((d.portCfg p v 1).startPort p (getBits v 3 0) (v.getLsbD 5) (v.getLsbD 6) (v.getLsbD 7)).setSt (R.FAB_PORT_STATE_STATUS p) 0 := by
  simp only [Dev.portEnable, hf, hv, he, hw, Bool.false_eq_true, if_false, Bool.not_true, Bool.false_and, if_true]
  rfl

/-- A width that does not fit is refused. -/
theorem Dev.portEnable_refused (hw : d.portFits p (getBits v 3 0) = false) : d.portEnable p v = d.setSt (R.FAB_PORT_STATE_STATUS p) 0x0107 := by
  simp only [Dev.portEnable, hf, hv, he, hw, Bool.false_eq_true, if_false, Bool.not_true, Bool.false_and]
  rfl

end portEnable

/-- A route GO while one waits (R365). -/
theorem Dev.routeGo_pending {d : Dev} (h : d.has R.FAB_ROUTE_CTRL_PENDING = true) : d.routeGo = d.setSt R.FAB_ROUTE_CTRL_STATUS 0x0511 := if_pos h

section routeGo
variable {d : Dev} (hp : d.has R.FAB_ROUTE_CTRL_PENDING = false)
include hp

/-- A route GO whose tick has passed. -/
theorem Dev.routeGo_passed (h0 : (d.word R.FAB_ROUTE_TICK).toNat ≠ 0) (h1 : (d.word R.FAB_ROUTE_TICK).toNat ≤ (d.word R.SEQ_TICK).toNat) :
    d.routeGo = d.setSt R.FAB_ROUTE_CTRL_STATUS 0x0517 := by
  simp only [Dev.routeGo, hp, Bool.false_eq_true, if_false]
  exact if_pos ⟨h0, h1⟩

/-- A route GO for a tick to come waits. -/
theorem Dev.routeGo_waits (h1 : (d.word R.SEQ_TICK).toNat < (d.word R.FAB_ROUTE_TICK).toNat) :
    d.routeGo = (d.setSt R.FAB_ROUTE_CTRL_STATUS 0).set R.FAB_ROUTE_CTRL_PENDING 1 := by
  simp only [Dev.routeGo, hp, Bool.false_eq_true, if_false, Nat.not_le.2 h1, and_false, Nat.ne_of_gt (Nat.lt_of_le_of_lt (Nat.zero_le _) h1)]
  rfl

/-- A route GO without a tick copies the shadow bank at once. -/
theorem Dev.routeGo_now (h0 : (d.word R.FAB_ROUTE_TICK).toNat = 0) :
    d.routeGo = ((d.setSt R.FAB_ROUTE_CTRL_STATUS 0).set R.FAB_ROUTE_CTRL_PENDING 1).routeCopy := by
  simp only [Dev.routeGo, hp, Bool.false_eq_true, if_false, h0, ne_eq, not_true_eq_false, false_and, if_true]
  rfl

end routeGo

/-! ## Gate lists -/

theorem Dev.setLink_ftNs (d : Dev) (p : Nat) (l : Link) : (d.setLink p l).ftNs = d.ftNs := rfl

section gateGo
variable {d d' : Dev} {p n : Nat} (hport : d.isPort p = true) (hd : d' = d.set (R.TSH_GATE_CTRL_ENTRIES p) n)
include hport hd

/-- A gate list while one waits (R413). -/
theorem Dev.gateGo_pending (hp : d'.has (R.TSH_GATE_CTRL_PENDING p) = true) : d.gateGo p n = d'.setSt (R.TSH_GATE_CTRL_STATUS p) 0x0511 := by
  simp only [Dev.gateGo, hport, ← hd, hp, Bool.not_true, Bool.false_eq_true, if_false, if_true]
  rfl

variable (hp : d'.has (R.TSH_GATE_CTRL_PENDING p) = false)
include hp

/-- A gate list that is not valid. -/
theorem Dev.gateGo_invalid (h0 : n ≠ 0) (hv : d'.gateValid p (d'.shadowList p n) = false) : d.gateGo p n = d'.setSt (R.TSH_GATE_CTRL_STATUS p) 0x0134 := by
  simp only [Dev.gateGo, hport, ← hd, hp, hv, h0, Bool.not_true, Bool.not_false, Bool.false_eq_true, if_false, ne_eq, not_false_eq_true, and_self, if_true]
  rfl

/-- A gate list that is valid, or empty, waits for its time. -/
theorem Dev.gateGo_waits (hv : n = 0 ∨ d'.gateValid p (d'.shadowList p n) = true) {force : Nat} (hforce : force = d'.gateForce p) {x : Dev}
    (hx : x = (d'.setSt (R.TSH_GATE_CTRL_STATUS p) 0).set (R.TSH_GATE_CTRL_PENDING p) 1) (ht : d'.ftNs < force) :
    d.gateGo p n = x.setLink p { x.link p with gatePend := some (n, force) } := by
  have hv' : ¬ (n ≠ 0 ∧ (!d'.gateValid p (d'.shadowList p n)) = true) := by
    rintro ⟨h0, h1⟩
    rcases hv with h | h
    · exact h0 h
    · rw [h] at h1; exact absurd h1 (by decide)
  have hft : x.ftNs = d'.ftNs := by
    rw [Dev.ftNs, Dev.ftNs, hx, Dev.set_tim, Dev.setSt_tim]
  rw [← hft] at ht
  have hx' : x = (d'.setSt (R.TSH_GATE_CTRL_STATUS p) St.ok).set (R.TSH_GATE_CTRL_PENDING p) 1 := hx
  simp only [Dev.gateGo, hport, ← hd, hp, hv', Bool.not_true, Bool.false_eq_true, if_false, ← hforce, ← hx', Dev.setLink_ftNs, Nat.not_le.2 ht]

end gateGo

/-- GATE_LIST_COMMIT brings a list whose time has come into force (R413). -/
theorem becomes_gateListCommit_due {s : State} {p : PortId} {k force : Nat} (h : s.Live) (hk : (s.dev.link p).gatePend = some (k, force))
    (ht : force ≤ s.dev.ftNs) : Becomes (.gateListCommit p) s (s.dev.gateCommit p k force) := by
  rw [Becomes, exec, execGateListCommit, State.act_open _ (Dev.open_live h)]
  simp only [hk, ht, if_true]

/-- Before its time the list waits. -/
theorem becomes_gateListCommit_early {s : State} {p : PortId} {k force : Nat} (h : s.Live) (hk : (s.dev.link p).gatePend = some (k, force))
    (ht : s.dev.ftNs < force) : Becomes (.gateListCommit p) s s.dev := by
  rw [Becomes, exec, execGateListCommit, State.act_open _ (Dev.open_live h)]
  simp only [hk, Nat.not_le.2 ht, if_false]

/-- GATE_ENTRY_CHANGE without a list in force changes nothing (R410). -/
theorem becomes_gateEntryChange_idle {s : State} {p : PortId} (h : s.Live) (ha : s.dev.has (R.TSH_GATE_CTRL_ACTIVE p) = false) :
    Becomes (.gateEntryChange p) s s.dev := by
  rw [Becomes, exec, execGateEntryChange, State.act_open _ (Dev.open_live h)]
  simp only [ha, Bool.not_false, if_true]

/-- GATE_ENTRY_CHANGE with a list in force brings in the entry of the present fabric time (R410). -/
theorem becomes_gateEntryChange_active {s : State} {p : PortId} (h : s.Live) (ha : s.dev.has (R.TSH_GATE_CTRL_ACTIVE p) = true)
    (hc : (s.dev.gateList p).foldl (fun n e => n + e.2) 0 ≠ 0) :
    Becomes (.gateEntryChange p) s (s.dev.setLink p { s.dev.link p with
      gateEntry := (gateAt (s.dev.gateList p) ((s.dev.ftNs - (s.dev.word (R.TSH_GATE_BASE p)).toNat) % (s.dev.gateList p).foldl (fun n e => n + e.2) 0) 0 0).1 }) := by
  rw [Becomes, exec, execGateEntryChange, State.act_open _ (Dev.open_live h)]
  simp only [ha, hc, Bool.not_true, Bool.false_eq_true, if_false]

/-- Settles O42: Ethernet frames by R373's order, ports and routes by their conditions, gate lists by the time R413 gives. -/
theorem ethernetPortsAndGates : Obligations.EthernetPortsAndGates := by
  refine ⟨?frames, ?config, ?gates⟩
  case frames =>
    rintro s p fr pr u held l hs
    have hrun : ∀ x, s.dev.rxEth p fr = x → Becomes (.ethFrame p fr) s x := fun x hx => becomes_engine (f := (·.rxEth p fr)) rfl hs hx
    refine ⟨fun h => hrun _ (Dev.rxEth_closed fr h), ?up⟩
    case up =>
      rintro hp he hst rfl
      refine ⟨fun hf => hrun _ (Dev.rxEth_fcs hp he hst hf), fun hf hq => hrun _ (Dev.rxEth_pause hp he hst hf hq), fun hf hq =>
        ⟨fun mask off hx => ⟨_, hrun _ (Dev.rxEth_pfc hp he hst hf hq hx), rfl⟩, fun hx =>
          ⟨fun hu => hrun _ (Dev.rxEth_unsupported hp he hst hf hq hx hu), ?lossy⟩⟩⟩
      case lossy =>
        intro hu h0 h1 hpr hcu hheld
        have hpr' : pr = (ethPriority fr) := hpr.trans (by unfold ethPriority; cases fr.tagPcp <;> rfl)
        subst hpr' hcu hheld
        exact ⟨fun hl hover => hrun _ (Dev.rxEth_dropped hp he hst hf hq hx hu h0 h1 hl hover), fun hl hroom d hd =>
          hrun _ (Dev.rxEth_held hp he hst hf hq hx hu h0 h1 hl hroom hd)⟩
  case config =>
    rintro s p v cfg t hs hcfg
    have hport : ∀ x, s.dev.portEnable p v = x → Becomes (.portEnable p v) s (x.reply 0) :=
      fun x hx => becomes_live (f := fun d => (d.portEnable p v).reply St.ok) rfl hs (congrArg (fun d : Dev => d.reply St.ok) hx)
    have hcfg' : ∀ e, cfg e = s.dev.portCfg p v e := hcfg
    rw [hcfg' 0, hcfg' 1]
    refine ⟨fun hf => hport _ (Dev.portEnable_fatal p v hf), fun hf => ⟨fun hv hst => hport _ (Dev.portEnable_off hf hv hst), fun hv he hst =>
      hport _ (Dev.portEnable_enabled hf hv he hst), fun hv he => ⟨fun hw => hport _ (Dev.portEnable_starts hf hv he hw), fun hw =>
        hport _ (Dev.portEnable_refused hf hv he hw)⟩⟩, ?route⟩
    case route =>
      rintro rfl
      have hroute : ∀ x, s.dev.routeGo = x → Becomes .routeCommitGo s (x.reply 0) :=
        fun x hx => becomes_live (f := fun d => d.routeGo.reply St.ok) rfl hs (congrArg (fun d : Dev => d.reply St.ok) hx)
      exact ⟨fun hp => hroute _ (Dev.routeGo_pending hp), fun hp => ⟨fun h0 h1 => hroute _ (Dev.routeGo_passed hp h0 h1), fun h1 =>
        hroute _ (Dev.routeGo_waits hp h1), fun h0 => hroute _ (Dev.routeGo_now hp h0)⟩⟩
  case gates =>
    rintro s p n d e force hs hport hd
    have hgo : ∀ x, s.dev.gateGo p n.toNat = x → Becomes (.gateListGo p n) s (x.reply 0) :=
      fun x hx => becomes_live (f := fun d => (d.gateGo p n.toNat).reply St.ok) rfl hs (congrArg (fun d : Dev => d.reply St.ok) hx)
    refine ⟨fun hp => hgo _ (Dev.gateGo_pending hport hd hp), fun hp => ⟨fun h0 hv => hgo _ (Dev.gateGo_invalid hport hd hp ?_ hv), fun hv hforce he ht =>
      hgo _ (Dev.gateGo_waits hport hd hp ?_ hforce he ht)⟩, ?commit, ?idle, ?change⟩
    · exact fun h => h0 (BitVec.eq_of_toNat_eq h)
    · exact hv.imp_left (fun h => by rw [h]; rfl)
    case commit =>
      intro k hk
      exact ⟨becomes_gateListCommit_due hs hk, becomes_gateListCommit_early hs hk⟩
    case idle =>
      intro ha
      exact becomes_gateEntryChange_idle hs ha
    case change =>
      rintro l cyc ha rfl rfl hc
      exact becomes_gateEntryChange_active hs ha hc

end Sys2Proof.Machine
end

section
/-! SUPPORT. Windows, protection domains, peer entries and traffic classes (R379, R387 to R390, R401). -/

namespace Sys2Proof.Machine

/-! ## Windows -/

/-- XPT_WIN_CTRL as a GO writes it. -/
def Dev.winCtrl (d : Dev) (op w pd access : Nat) : Dev :=
  (((d.set R.XPT_WIN_CTRL_OP op).set R.XPT_WIN_CTRL_INDEX w).set R.XPT_WIN_CTRL_PD pd).set R.XPT_WIN_CTRL_ACCESS access

/-- A GO while a window command is in progress is rejected. -/
theorem Dev.winGo_busy (d : Dev) (op : Nat) {w pd access : Nat} (h : (d.winCtrl op w pd access).has R.XPT_WIN_STATUS_BUSY = true) :
    d.winGo op w pd access = (d.winCtrl op w pd access).set R.XPT_WIN_STATUS_GO_REJECTED 1 := if_pos h

theorem Dev.winGo_open {d : Dev} {w pd access : Nat} (h : (d.winCtrl 1 w pd access).has R.XPT_WIN_STATUS_BUSY = false) :
    d.winGo 1 w pd access = (d.winCtrl 1 w pd access).openWin w pd access := by
  delta Dev.winGo
  simp only [Dev.winCtrl] at h ⊢
  simp only [h, Bool.false_eq_true, if_false]

theorem Dev.winGo_revoke {d : Dev} {w pd access : Nat} (h : (d.winCtrl 2 w pd access).has R.XPT_WIN_STATUS_BUSY = false) :
    d.winGo 2 w pd access = (d.winCtrl 2 w pd access).revokeGo w := by
  delta Dev.winGo
  simp only [Dev.winCtrl] at h ⊢
  simp only [h, Bool.false_eq_true, if_false]

/-- An OPEN that its check refuses (R388). -/
theorem Dev.openWin_refused {d : Dev} {w pd : Nat} (access : Nat) {st : Status} (h : d.openCheck w pd = st) (h0 : st ≠ 0) :
    d.openWin w pd access = d.winDoneWith st := by
  subst h; exact if_pos h0

/-- An OPEN that passes gives the window its next generation and makes it ACTIVE. -/
theorem Dev.openWin_accepted {d : Dev} {w pd access a n gen : Nat} (h : d.openCheck w pd = 0) (ha : a = 4096 * d.get R.XPT_WIN_BASE_BASE)
    (hn : n = (d.word R.XPT_WIN_SIZE).toNat) (hg : gen = d.get (R.XPT_WIN_STATE_GEN w)) :
    d.openWin w pd access = ((((d.modXpt (fun t => { t with
      windows := Map.insert t.windows w ⟨a, n, pd, if mediaBase ≤ a then access % 2 else access⟩ })).set
        (R.XPT_WIN_STATE_GEN w) (if gen = 0xFFFF then 1 else gen + 1)).set (R.XPT_WIN_STATE_STATE w) 1).winDoneWith 0) := by
  subst ha hn hg
  simp only [Dev.openWin, h, ne_eq, not_true_eq_false, if_false]

section openCheck
variable {d : Dev} {w pd : Nat} (hf : d.fatal = false)
include hf

theorem Dev.openCheck_state (hs : d.winSt w ≠ 0) : d.openCheck w pd = 0x0533 := by
  simp only [Dev.openCheck, hf, Bool.false_eq_true, if_false]
  exact if_pos hs

variable (hs : d.winSt w = 0)
include hs

theorem Dev.openCheck_length (hn : (d.word R.XPT_WIN_SIZE).toNat = 2 ^ 64 - 1) : d.openCheck w pd = 0x0202 := by
  simp only [Dev.openCheck, hf, hs, hn, Bool.false_eq_true, if_false, ne_eq, not_true_eq_false, if_true]
  rfl

variable (hn : (d.word R.XPT_WIN_SIZE).toNat ≠ 2 ^ 64 - 1)
include hn

theorem Dev.openCheck_invalid (h : d.has (R.XPT_PD_VALID pd) = false ∨ d.windowRangeOk w pd (4096 * d.get R.XPT_WIN_BASE_BASE) (d.word R.XPT_WIN_SIZE).toNat = false) :
    d.openCheck w pd = 0x0132 := by
  simp only [Dev.openCheck, hf, hs, hn, Bool.false_eq_true, if_false, ne_eq, not_true_eq_false]
  split
  · rfl
  · next hv =>
    refine if_pos ?_
    rcases h with h | h
    · exact absurd (by rw [h]; rfl) hv
    · rw [h]; rfl

theorem Dev.openCheck_passed (hv : d.has (R.XPT_PD_VALID pd) = true)
    (hr : d.windowRangeOk w pd (4096 * d.get R.XPT_WIN_BASE_BASE) (d.word R.XPT_WIN_SIZE).toNat = true) : d.openCheck w pd = 0 := by
  simp only [Dev.openCheck, hf, hs, hn, hv, hr, Bool.false_eq_true, if_false, ne_eq, not_true_eq_false, Bool.not_true]

end openCheck

/-- REVOKE of an ACTIVE window fences it and is in progress (R390). -/
theorem Dev.revokeGo_active {d : Dev} {w : Nat} (hf : d.fatal = false) (hs : d.winSt w = 1) :
    d.revokeGo w = ((d.set (R.XPT_WIN_STATE_STATE w) 2).modXpt (fun t => { t with revoking := some w })).set R.XPT_WIN_STATUS_BUSY 1 := by
  simp only [Dev.revokeGo, Dev.revokeWin, hf, hs, Bool.false_eq_true, if_false, ne_eq, not_true_eq_false, if_true]

/-- REVOKE of any other window ends at once. -/
theorem Dev.revokeGo_other {d : Dev} {w : Nat} (hf : d.fatal = false) (hs : d.winSt w ≠ 1) : d.revokeGo w = d.winDoneWith 0 := by
  simp only [Dev.revokeGo, hf, Bool.false_eq_true, if_false]
  exact if_pos hs

theorem Dev.closeWin_waits {d : Dev} {w : Nat} (h : d.winSt w ≠ 2 ∨ d.get (R.XPT_WIN_STATE_ADMITTED w) ≠ 0) : d.closeWin w = d := if_pos h

/-- A DRAINING window whose packets have ended is CLOSED, and the REVOKE that waited for it ends (R390). -/
theorem Dev.closeWin_closed {d x : Dev} {w : Nat} (hs : d.winSt w = 2) (ha : d.get (R.XPT_WIN_STATE_ADMITTED w) = 0)
    (hx : x = (d.set (R.XPT_WIN_STATE_STATE w) 0).modXpt (fun t => { t with windows := Map.erase t.windows w })) :
    d.closeWin w = if x.xpt.revoking = some w then (x.modXpt (fun t => { t with revoking := none })).winDoneWith 0 else x := by
  simp only [Dev.closeWin, hs, ha, ne_eq, not_true_eq_false, or_self, if_false, ← hx]

/-! ## Domains, peers and classes -/

/-- A domain in use keeps what it holds (R387). -/
theorem Dev.pdWrite_used {d : Dev} {p : Nat} (v : Word)
    (h : (∃ e ∈ d.xpt.qps, e.2.setup.pd = p) ∨ ∃ e ∈ d.xpt.windows, d.winSt e.1 ≠ 0 ∧ e.2.pd = p) : d.pdWrite p v = d := by
  refine if_pos (Bool.or_eq_true_iff.2 (h.imp ?_ ?_))
  · rintro ⟨e, he, hp⟩
    exact List.any_eq_true.2 ⟨e, he, decide_eq_true hp⟩
  · rintro ⟨e, he, hs, hp⟩
    exact List.any_eq_true.2 ⟨e, he, by simp [hs, hp]⟩

/-- Any other domain takes what is written. -/
theorem Dev.pdWrite_free {d : Dev} {p : Nat} (v : Word) (hq : ∀ e ∈ d.xpt.qps, e.2.setup.pd ≠ p)
    (hw : ∀ e ∈ d.xpt.windows, d.winSt e.1 = 0 ∨ e.2.pd ≠ p) :
    d.pdWrite p v = (d.set (R.XPT_PD_VALID p) (getBits v 63 63)).set (R.XPT_PD_OWNER p) (getBits v 4 0) := by
  refine if_neg (fun h => ?_)
  rcases Bool.or_eq_true_iff.1 h with h | h
  · obtain ⟨e, he, hp⟩ := List.any_eq_true.1 h
    exact hq e he (of_decide_eq_true hp)
  · obtain ⟨e, he, hp⟩ := List.any_eq_true.1 h
    simp only [Bool.and_eq_true, bne_iff_ne, decide_eq_true_eq] at hp
    exact (hw e he).elim hp.1 (fun h => h hp.2)

/-- A valid peer entry that names another owner's queue pair is not taken (R379). -/
theorem Dev.peerWrite_foreign {d : Dev} {f : Nat} (n : Nat) {v : Word} (hv : v.getLsbD 63 = true) (ho : d.qpOwner (getBits v 19 0) ≠ f) :
    d.peerWrite f n v = d := if_pos (by rw [hv, bne_iff_ne.2 ho]; rfl)

theorem Dev.peerWrite_own {d : Dev} {f : Nat} (n : Nat) {v : Word} (h : v.getLsbD 63 = false ∨ d.qpOwner (getBits v 19 0) = f) :
    d.peerWrite f n v = d.setW (R.XPT_PEER f n) (getBits v 63 63 * 2 ^ 63 + getBits v 19 0) := by
  refine if_neg ?_
  rcases h with h | h
  · rw [h, Bool.false_and]; decide
  · rw [h, bne_self_eq_false, Bool.and_false]; decide

/-- A change of MODE under a READY queue pair is not taken (R401). -/
theorem Dev.tcWrite_used {d : Dev} {t : Nat} {v : Word} (hm : v.getLsbD 0 ≠ d.creditClass t) (h : ∃ e ∈ d.xpt.qps, e.2.st = 1 ∧ e.2.setup.tc = t) :
    d.tcWrite t v = d := by
  obtain ⟨e, he, hs, ht⟩ := h
  exact if_pos (by rw [bne_iff_ne.2 hm, List.any_eq_true.2 ⟨e, he, by simp [hs, ht]⟩]; rfl)

theorem Dev.tcWrite_free {d : Dev} {t : Nat} {v : Word} (h : v.getLsbD 0 = d.creditClass t ∨ ∀ e ∈ d.xpt.qps, e.2.st ≠ 1 ∨ e.2.setup.tc ≠ t) :
    d.tcWrite t v = (((d.set (R.XPT_TC_CWND_MAX t) (getBits v 63 48)).set (R.XPT_TC_TARGET t) (getBits v 47 32)).set (R.XPT_TC_RNR_WAIT t)
      (getBits v 31 24)).set (R.XPT_TC_MODE t) (getBits v 0 0) := by
  refine if_neg (fun hb => ?_)
  obtain ⟨hm, ha⟩ := Bool.and_eq_true_iff.1 hb
  obtain ⟨e, he, hp⟩ := List.any_eq_true.1 ha
  simp only [Bool.and_eq_true, decide_eq_true_eq] at hp
  rcases h with h | h
  · exact bne_iff_ne.1 hm h
  · exact (h e he).elim (fun h => h hp.1) (fun h => h hp.2)

/-- Settles O44: windows by OPEN's check, REVOKE and their packets' end; domains, peers and classes by what uses them. -/
theorem windowsAndDomainsAreSet : Obligations.WindowsAndDomainsAreSet := by
  refine ⟨?windows, ?config⟩
  case windows =>
    rintro s w pd acc d v a n gen hs hd hv ha hn hg
    have hd' : d = s.dev.winCtrl 1 w.toNat pd.toNat acc.toNat := hd
    have hv' : v = s.dev.winCtrl 2 w.toNat (s.dev.get R.XPT_WIN_CTRL_PD) (s.dev.get R.XPT_WIN_CTRL_ACCESS) := hv
    have hopen : ∀ x, s.dev.winGo 1 w.toNat pd.toNat acc.toNat = x → Becomes (.open w pd acc) s (x.reply 0) := fun x hx =>
      becomes_live (f := fun d => (d.winGo 1 w.toNat pd.toNat acc.toNat).reply St.ok) rfl hs (congrArg (fun d : Dev => d.reply St.ok) hx)
    have hrevoke : ∀ x, s.dev.winGo 2 w.toNat (s.dev.get R.XPT_WIN_CTRL_PD) (s.dev.get R.XPT_WIN_CTRL_ACCESS) = x → Becomes (.revoke w) s (x.reply 0) :=
      fun x hx => becomes_live (f := fun d => (d.winGo 2 w.toNat (d.get R.XPT_WIN_CTRL_PD) (d.get R.XPT_WIN_CTRL_ACCESS)).reply St.ok) rfl hs
        (congrArg (fun d : Dev => d.reply St.ok) hx)
    refine ⟨fun hb => hopen _ ((Dev.winGo_busy s.dev 1 (hd' ▸ hb)).trans (by rw [hd'])), fun hb hf => ?opens, fun hb hf => ?revokes, fun hw => ?closes⟩
    case opens =>
      have hgo : s.dev.winGo 1 w.toNat pd.toNat acc.toNat = d.openWin w.toNat pd.toNat acc.toNat := by
        rw [hd'] at hb ⊢; exact Dev.winGo_open hb
      subst ha hn hg
      exact ⟨fun hst => hopen _ (hgo.trans (Dev.openWin_refused _ (Dev.openCheck_state hf hst) (by decide))), fun hst =>
        ⟨fun hlen => hopen _ (hgo.trans (Dev.openWin_refused _ (Dev.openCheck_length hf hst hlen) (by decide))), fun hlen hbad =>
          hopen _ (hgo.trans (Dev.openWin_refused _ (Dev.openCheck_invalid hf hst hlen hbad) (by decide))), fun hlen hpd hrange =>
          hopen _ (hgo.trans (Dev.openWin_accepted (Dev.openCheck_passed hf hst hlen hpd hrange) rfl rfl rfl))⟩⟩
    case revokes =>
      have hgo : s.dev.winGo 2 w.toNat (s.dev.get R.XPT_WIN_CTRL_PD) (s.dev.get R.XPT_WIN_CTRL_ACCESS) = v.revokeGo w.toNat := by
        rw [hv'] at hb ⊢; exact Dev.winGo_revoke hb
      exact ⟨fun hst => hrevoke _ (hgo.trans (Dev.revokeGo_active hf hst)), fun hst => hrevoke _ (hgo.trans (Dev.revokeGo_other hf hst))⟩
    case closes =>
      have hrun : ∀ x, s.dev.closeWin w.toNat = x → Becomes (.windowClosed w) s x := fun x hx => becomes_engine (f := (·.closeWin w.toNat)) rfl hw hx
      exact ⟨fun h => hrun _ (Dev.closeWin_waits h), fun hst hadm x hx => ⟨fun hr => hrun _ ((Dev.closeWin_closed hst hadm hx).trans (if_pos hr)),
        fun hr => hrun _ ((Dev.closeWin_closed hst hadm hx).trans (if_neg hr))⟩⟩
  case config =>
    intro s pd n f t v hs
    have hpd : ∀ x, s.dev.pdWrite pd.toNat v = x → Becomes (.pdWrite pd v) s (x.reply 0) :=
      fun x hx => becomes_live (f := fun d => (d.pdWrite pd.toNat v).reply St.ok) rfl hs (congrArg (fun d : Dev => d.reply St.ok) hx)
    have hpeer : ∀ x, s.dev.peerWrite f.val n.toNat v = x → Becomes (.peerEntryWrite f n v) s (x.reply 0) :=
      fun x hx => becomes_live (f := fun d => (d.peerWrite f.val n.toNat v).reply St.ok) rfl hs (congrArg (fun d : Dev => d.reply St.ok) hx)
    have htc : ∀ x, s.dev.tcWrite t.val v = x → Becomes (.tcConfigWrite t v) s (x.reply 0) :=
      fun x hx => becomes_live (f := fun d => (d.tcWrite t.val v).reply St.ok) rfl hs (congrArg (fun d : Dev => d.reply St.ok) hx)
    exact ⟨fun h => hpd _ (Dev.pdWrite_used v h), fun hq hw => hpd _ (Dev.pdWrite_free v hq hw), fun hv ho => hpeer _ (Dev.peerWrite_foreign _ hv ho),
      fun h => hpeer _ (Dev.peerWrite_own _ h), fun hm h => htc _ (Dev.tcWrite_used hm h), fun h => htc _ (Dev.tcWrite_free h)⟩

end Sys2Proof.Machine
end

section
/-! SUPPORT. Transport packets taken from the inbox, responses, timers and RoCEv2 frames (R374, R381 to R386, R393, R394, R399, R400). -/

namespace Sys2Proof.Machine

/-! ## The transport inbox -/

/-- The commands that take a packet, each with its opcode (R380). -/
theorem becomes_takeXpt {c : Instr} {op : Nat} {s : State} {x : Dev}
    (hc : (c, op) ∈ [(Instr.transportWrite, 1), (.readReq, 2), (.readResp, 3), (.atomic, 4), (.atomicResp, 5), (.ack, 6), (.nak, 7), (.grant, 8)]) (hs : s.Works)
    (hx : s.dev.takeXpt op = x) : Becomes c s x := by
  simp only [List.mem_cons, Prod.mk.injEq, List.not_mem_nil, or_false] at hc
  rcases hc with ⟨rfl, rfl⟩ | ⟨rfl, rfl⟩ | ⟨rfl, rfl⟩ | ⟨rfl, rfl⟩ | ⟨rfl, rfl⟩ | ⟨rfl, rfl⟩ | ⟨rfl, rfl⟩ | ⟨rfl, rfl⟩
  · exact becomes_engine (f := (·.takeXpt 1)) rfl hs hx
  · exact becomes_engine (f := (·.takeXpt 2)) rfl hs hx
  · exact becomes_engine (f := (·.takeXpt 3)) rfl hs hx
  · exact becomes_engine (f := (·.takeXpt 4)) rfl hs hx
  · exact becomes_engine (f := (·.takeXpt 5)) rfl hs hx
  · exact becomes_engine (f := (·.takeXpt 6)) rfl hs hx
  · exact becomes_engine (f := (·.takeXpt 7)) rfl hs hx
  · exact becomes_engine (f := (·.takeXpt 8)) rfl hs hx

/-- With nothing in the inbox nothing is taken. -/
theorem Dev.takeXpt_nil {d : Dev} (op : Nat) (h : d.fab.xptRx = []) : d.takeXpt op = d := by
  have hp : d.purgeXpt = d := by rw [Dev.purgeXpt, h, List.dropWhile_nil, ← h]
  rw [Dev.takeXpt, hp, h]

/-- A well-formed packet at the head is not purged. -/
theorem Dev.purgeXpt_wf {d : Dev} {m : RxPkt} {r : List RxPkt} (h : d.fab.xptRx = m :: r) (hw : xptWf m.payload = true) : d.purgeXpt = d := by
  rw [Dev.purgeXpt, h, List.dropWhile_cons_of_neg (by simp [hw]), ← h]

section takeXpt
variable {d d' : Dev} {m : RxPkt} {r : List RxPkt} {op : Nat} (h : d.fab.xptRx = m :: r) (hw : xptWf m.payload = true)
  (hd : d' = { d with fab := { d.fab with xptRx := r } })
include h hw

/-- A packet of another opcode is left to its own command. -/
theorem Dev.takeXpt_other (ho : (xptHdr m.payload).op ≠ op) : d.takeXpt op = d := by
  rw [Dev.takeXpt, Dev.purgeXpt_wf h hw, h]; exact if_pos ho

include hd

theorem Dev.takeXpt_response (ho : (xptHdr m.payload).op = op) (h3 : op = 3 ∨ 5 ≤ op) : d.takeXpt op = (d'.arriveResponse m).settle := by
  have h1 : ¬ (op = 1 ∨ op = 2 ∨ op = 4) := by omega
  rw [Dev.takeXpt, Dev.purgeXpt_wf h hw, h]
  simp only [ho, h1, ne_eq, not_true_eq_false, if_false, ← hd]

theorem Dev.takeXpt_request (ho : (xptHdr m.payload).op = op) (h1 : op = 1 ∨ op = 2 ∨ op = 4) : d.takeXpt op = (d'.arriveRequest m).settle := by
  rw [Dev.takeXpt, Dev.purgeXpt_wf h hw, h]
  simp only [ho, h1, ne_eq, not_true_eq_false, if_false, if_true, ← hd]

end takeXpt

/-- A request whose queue pair's state is on die is checked at once (R381, R385). -/
theorem Dev.arriveRequest_onDie {d e : Dev} {m : RxPkt} (ho : d.onDie (xptHdr m.payload).qp = true)
    (hm : d.xpt.miss.any (fun x => x.1 = (xptHdr m.payload).qp) = false) (he : d.bringIn (xptHdr m.payload).qp = some e) :
    d.arriveRequest m = e.onRequest (xptHdr m.payload).qp m := by
  simp only [Dev.arriveRequest, ho, hm, he, Bool.not_false, Bool.and_self, if_true, Option.getD_some]

section miss
variable {d : Dev} {m : RxPkt} {x : Qp} (ho : d.onDie (xptHdr m.payload).qp = false) (hf : (xptHdr m.payload).flags.testBit 1 = false)
  (hq : d.qp (xptHdr m.payload).qp = some x) (hr : x.rnrAt = none)
include ho hf hq hr

/-- One whose state is not waits in the miss buffer while an entry is free (R385). -/
theorem Dev.arriveRequest_waits (hfree : 0 < d.missFree) :
    d.arriveRequest m = ((((d.setQp (xptHdr m.payload).qp { x with rnrAt := none }).issue (poolNo 0x10 0) 1).modXpt (fun t => { t with
      miss := t.miss ++ [((xptHdr m.payload).qp, m)] })).inc R.XPT_MISS_MISSES).wantQp (xptHdr m.payload).qp := by
  simp only [Dev.arriveRequest, ho, hf, hq, hr, hfree, Bool.false_and, Bool.false_eq_true, if_false, Option.isSome_none, if_true]

/-- With no entry free it is answered RNR (R386). -/
theorem Dev.arriveRequest_rnr (hfree : d.missFree = 0) :
    d.arriveRequest m = ((d.setQp (xptHdr m.payload).qp { x with rnrAt := some (xptHdr m.payload).psn }).inc R.XPT_MISS_RNR_SENT).sendNak (xptHdr m.payload).qp 1 0
      (xptHdr m.payload).psn (xptHdr m.payload).stamp := by
  simp only [Dev.arriveRequest, ho, hf, hq, hr, hfree, Bool.false_and, Bool.false_eq_true, if_false, Option.isSome_none, Nat.lt_irrefl]

end miss

/-! ## Responses -/

theorem Dev.arriveResponse_none {d : Dev} {m : RxPkt} (hq : d.qp (xptHdr m.payload).qp = none) : d.arriveResponse m = d := by
  simp only [Dev.arriveResponse, hq]

/-- A response of a queue pair that is not READY, not GF or not its sender's is discarded. -/
theorem Dev.arriveResponse_foreign {d : Dev} {m : RxPkt} {x : Qp} (hq : d.qp (xptHdr m.payload).qp = some x)
    (h : x.st ≠ 1 ∨ x.setup.mode ≠ 0 ∨ x.setup.peerNode ≠ m.src) : d.arriveResponse m = d := by
  simp only [Dev.arriveResponse, hq]
  exact if_pos h

section response
variable {d : Dev} {m : RxPkt} {x : Qp} (hq : d.qp (xptHdr m.payload).qp = some x) (hs : x.st = 1) (hm : x.setup.mode = 0) (hp : x.setup.peerNode = m.src)
include hq hs hm hp

theorem Dev.arriveResponse_readData (ho : (xptHdr m.payload).op = 3) :
    d.arriveResponse m = d.onReadData (xptHdr m.payload).qp (xptHdr m.payload).psn (m.payload.drop 32) := by
  simp only [Dev.arriveResponse, hq, hs, hm, hp, ho, ne_eq, not_true_eq_false, or_self, if_false]

theorem Dev.arriveResponse_atomicData (ho : (xptHdr m.payload).op = 5) :
    d.arriveResponse m = d.onAtomicData (xptHdr m.payload).qp (xptHdr m.payload).psn (fld m.payload 32 8) := by
  simp only [Dev.arriveResponse, hq, hs, hm, hp, ho, ne_eq, not_true_eq_false, or_self, if_false]

/-- An ACK acknowledges (R383, R393). -/
theorem Dev.arriveResponse_ack (ho : (xptHdr m.payload).op = 6) :
    d.arriveResponse m = d.onAck (xptHdr m.payload).qp (xptHdr m.payload).psn (some ((d.xptStamp + 2 ^ 32 - (xptHdr m.payload).stamp) % 2 ^ 32)) := by
  simp only [Dev.arriveResponse, hq, hs, hm, hp, ho, ne_eq, not_true_eq_false, or_self, if_false]

section nak
variable (ho : (xptHdr m.payload).op = 7)
include ho

/-- An ERROR NAK fails its part. -/
theorem Dev.arriveResponse_error (hk : bits (xptHdr m.payload).flags 3 2 = 0) :
    d.arriveResponse m = d.onRefused (xptHdr m.payload).qp (xptHdr m.payload).psn (xptHdr m.payload).synd := by
  simp only [Dev.arriveResponse, hq, hs, hm, hp, ho, hk, ne_eq, not_true_eq_false, or_self, if_false]

/-- An RNR NAK waits RNR_WAIT. -/
theorem Dev.arriveResponse_rnr (hk : bits (xptHdr m.payload).flags 3 2 = 1) (hin : x.flight.any (fun t => t.psn = (xptHdr m.payload).psn) = true) {e : Dev}
    (he : e = ((d.modQp (xptHdr m.payload).qp (fun x => { x with rnrFrom := some (xptHdr m.payload).psn })).cutHalf (xptHdr m.payload).qp).disarmRetx
      (xptHdr m.payload).qp) :
    d.arriveResponse m = e.arm (.rnr (xptHdr m.payload).qp) (Machine.ns (100 * max 1 (e.get (R.XPT_TC_RNR_WAIT x.setup.tc)))) := by
  subst he
  simp only [Dev.arriveResponse, hq, hs, hm, hp, ho, hk, hin, ne_eq, not_true_eq_false, or_self, if_false, Bool.not_true, Bool.false_eq_true]

/-- A SEQUENCE NAK halves the window and sends again. -/
theorem Dev.arriveResponse_sequence (hk : bits (xptHdr m.payload).flags 3 2 = 2) :
    d.arriveResponse m = (d.cutHalf (xptHdr m.payload).qp).resendFrom (xptHdr m.payload).qp (xptHdr m.payload).psn := by
  simp only [Dev.arriveResponse, hq, hs, hm, hp, ho, hk, ne_eq, not_true_eq_false, or_self, if_false]

end nak

/-- A GRANT raises the credit up to CREDIT_MAX (R394). -/
theorem Dev.arriveResponse_grant (ho : (xptHdr m.payload).op = 8) {gain : Nat}
    (hg : gain = ((xptHdr m.payload).psn + 2 ^ 32 - x.granted % 2 ^ 32) % 2 ^ 32) (hc : d.credited x = true) (h0 : gain ≠ 0) (h1 : gain < 2 ^ 31) :
    d.arriveResponse m = ((d.setQp (xptHdr m.payload).qp { x with
      granted := x.granted + gain
      unused := min (x.unused + gain) x.setup.creditMax }).add R.XPT_GRANT_EXCESS_GRANT (x.unused + gain - x.setup.creditMax)).xptSend (xptHdr m.payload).qp := by
  simp only [Dev.arriveResponse, hq, hs, hm, hp, ho, hc, ← hg, h0, Nat.not_le.2 h1, ne_eq, not_true_eq_false, or_self, if_false, Bool.not_true, Bool.false_eq_true]

end response

/-! ## Timers and fetches -/

section timers
variable {s : State} (hw : s.Works) {q : BitVec 20}
include hw

/-- The timers of a queue pair in RESET do nothing. -/
theorem becomes_timers_none (hq : s.dev.qp q.toNat = none) :
    Becomes (.transportRetransmitTimeout q) s s.dev ∧ Becomes (.rnrWaitExpiry q) s s.dev ∧ Becomes (.roceAckTimeout q) s s.dev := by
  refine ⟨?_, ?_, ?_⟩
  · rw [Becomes, exec, execTransportRetransmitTimeout, State.act_open _ (Dev.open_engine hw.1 hw.2)]
    simp only [hq]
  · rw [Becomes, exec, execRnrWaitExpiry, State.act_open _ (Dev.open_engine hw.1 hw.2)]
    simp only [hq, Option.bind_none]
  · rw [Becomes, exec, execRoceAckTimeout, State.act_open _ (Dev.open_engine hw.1 hw.2)]
    simp only [hq]

variable {x : Qp} (hq : s.dev.qp q.toNat = some x)
include hq

/-- 16 µs without progress (R383, R393). -/
theorem becomes_retransmitTimeout : Becomes (.transportRetransmitTimeout q) s
    (if s.dev.expired (.retransmit q.toNat) then (s.dev.cutHalf q.toNat).resendFrom q.toNat x.oldest else s.dev) := by
  rw [Becomes, exec, execTransportRetransmitTimeout, State.act_open _ (Dev.open_engine hw.1 hw.2)]
  simp only [hq]

/-- RNR_WAIT past (R383). -/
theorem becomes_rnrWaitExpiry {n : Nat} (hn : x.rnrFrom = some n) : Becomes (.rnrWaitExpiry q) s
    (if s.dev.expired (.rnr q.toNat) then (((s.dev.disarm (.rnr q.toNat)).resendFrom q.toNat n).xptSend q.toNat).settle else s.dev) := by
  rw [Becomes, exec, execRnrWaitExpiry, State.act_open _ (Dev.open_engine hw.1 hw.2)]
  simp only [hq, Option.bind_some, hn]

/-- 65.536 µs without a RoCEv2 acknowledgement (R400). -/
theorem becomes_roceAckTimeout (he : s.dev.expired (.roceAck q.toNat) = true) : Becomes (.roceAckTimeout q) s
    ((if x.retries = 0 then s.dev.qpError q.toNat 0x0801
      else ((s.dev.setQp q.toNat { x with retries := x.retries - 1 }).cutHalf q.toNat).resendFrom q.toNat x.oldest).settle) := by
  rw [Becomes, exec, execRoceAckTimeout, State.act_open _ (Dev.open_engine hw.1 hw.2)]
  simp only [hq, he, if_true, Dev.roceRetry]
  rfl

end timers

/-- A fetched state takes the packets that waited for it (R385). -/
theorem Dev.fetched_takes {d d' e : Dev} {q : Nat} {mine : List (Nat × RxPkt)} (hf : d.xpt.fetching.contains q = true) (hb : d.bringIn q = some d')
    (hm : mine = d'.xpt.miss.filter (fun e => e.1 = q))
    (he : e = mine.foldl (fun d e => ((d.modXpt (fun t => { t with miss := t.miss.erase e })).retire (poolNo 0x10 0) 1).onRequest q e.2) d') :
    d.fetched q = ((e.modXpt (fun t => { t with fetching := t.fetching.filter (· != q) })).topUp q).xptSend q := by
  simp only [Dev.fetched, hf, hb, ← hm, ← he, Bool.not_true, Bool.false_eq_true, if_false]

/-! ## RoCEv2 frames -/

section takeRoce
variable {d d' : Dev} {p : Nat} {f : EthFrame} {r : List (Nat × EthFrame)} (h : d.fab.ethRx = (p, f) :: r)
  (hd : d' = ({ d with fab := { d.fab with ethRx := r } }).ethFree p f)
include h

theorem Dev.takeRoce_other {cnp : Bool} (hc : f.cnp ≠ cnp) : d.takeRoce cnp = d := by
  simp only [Dev.takeRoce, h, bne_iff_ne.2 hc, if_true]

include hd

/-- The frame leaves its priority's buffer and is handled (R374). -/
theorem Dev.takeRoce_own : d.takeRoce f.cnp = (d'.roceFrame p f).settle := by
  simp only [Dev.takeRoce, h, bne_self_eq_false, Bool.false_eq_true, if_false, ← hd]

end takeRoce

/-- A frame that names no READY RoCEv2 queue pair of its sender (R399). -/
theorem Dev.roceFrame_unsupported {d : Dev} {p : Nat} {f : EthFrame} (hq : d.roceQp p f = none) : d.roceFrame p f = d.inc (R.FAB_PORT_ETH_UNSUPPORTED p) := by
  simp only [Dev.roceFrame, hq]

section roceFrame
variable {d : Dev} {p q : Nat} {f : EthFrame} {x : Qp} (hr : d.roceQp p f = some (q, x)) (he : f.pkt.ecnCe = false)
include hr he

/-- A CNP is counted and cuts the window (R400). -/
theorem Dev.roceFrame_cnp (hc : f.cnp = true) :
    d.roceFrame p f = ((d.inc R.XPT_GRANT_CNP).onRtt q 0 (2 * (d.inc R.XPT_GRANT_CNP).get (R.XPT_TC_TARGET x.setup.tc))).xptSend q := by
  simp only [Dev.roceFrame, hr, he, hc, Bool.false_eq_true, if_false, if_true]

variable (hc : f.cnp = false) (hq : d.qp q = some x)
include hc hq

/-- An acknowledgement goes to its queue pair. -/
theorem Dev.roceFrame_ack (ho : f.pkt.op = .ack) :
    d.roceFrame p f = d.onAck q (psnAdd x f.pkt.psn.toNat 1) ((x.flight.find? (fun t => t.psn = f.pkt.psn.toNat)).map (fun t => d.ftNs - t.stamp)) := by
  simp only [Dev.roceFrame, hr, he, hc, hq, ho, Bool.false_eq_true, if_false, Option.getD_some, Dev.roceResponse]

variable {a b : Bool} {c : Option (BitVec 32)} (ho : f.pkt.op = .send a b c [])
include ho

/-- A later PSN is answered with one sequence NAK (R400). -/
theorem Dev.roceFrame_late (hb : psnBefore x x.psnRx f.pkt.psn.toNat = true) (hn : x.seqNaked = false) :
    d.roceFrame p f = ((d.setQp q { x with seqNaked := true }).inc R.XPT_MISS_SEQ_NAKS).roceAck q 0x60 x.psnRx := by
  simp only [Dev.roceFrame, hr, he, hc, hq, ho, Bool.false_eq_true, if_false, Option.getD_some, Dev.roceRequest, hb, hn, if_true]

/-- An earlier request is acknowledged again. -/
theorem Dev.roceFrame_early (hb : psnBefore x x.psnRx f.pkt.psn.toNat = false) (hn : f.pkt.psn.toNat ≠ x.psnRx) :
    d.roceFrame p f = (d.inc R.XPT_DISC_DUPLICATES).roceAck q 0x1F f.pkt.psn.toNat := by
  simp only [Dev.roceFrame, hr, he, hc, hq, ho, Bool.false_eq_true, if_false, Option.getD_some, Dev.roceRequest, hb, beq_false_of_ne hn, Bool.not_false, if_true]

end roceFrame

/-- Settles O46: each packet, timer and frame by the row that its queue pair stands at. -/
theorem transportTrafficIsTaken : Obligations.TransportTrafficIsTaken := by
  refine ⟨?inbox, ?responses, ?timers, ?ethernet, ?frames⟩
  case inbox =>
    rintro s c op m r d h hs hc
    refine ⟨fun hnil => becomes_takeXpt hc hs (Dev.takeXpt_nil op hnil), ?_⟩
    rintro hrx hwf rfl hd
    refine ⟨fun ho => becomes_takeXpt hc hs (Dev.takeXpt_other hrx hwf ho), fun ho h3 => becomes_takeXpt hc hs (Dev.takeXpt_response hrx hwf hd ho h3),
      fun ho h1 => ?request⟩
    case request =>
      have hrun : ∀ x, d.arriveRequest m = x → Becomes c s x.settle := fun x hx =>
        becomes_takeXpt hc hs ((Dev.takeXpt_request hrx hwf hd ho h1).trans (congrArg Dev.settle hx))
      exact ⟨fun e hon hm he => hrun _ (Dev.arriveRequest_onDie hon hm he), fun x hon hf hq hr => ⟨fun hfree => hrun _ (Dev.arriveRequest_waits hon hf hq hr hfree),
        fun hfree => hrun _ (Dev.arriveRequest_rnr hon hf hq hr hfree)⟩⟩
  case responses =>
    rintro d m h x q rfl rfl
    exact ⟨Dev.arriveResponse_none, fun hq => ⟨Dev.arriveResponse_foreign hq, fun hs hm hp =>
      ⟨Dev.arriveResponse_readData hq hs hm hp, Dev.arriveResponse_atomicData hq hs hm hp, Dev.arriveResponse_ack hq hs hm hp,
       Dev.arriveResponse_error hq hs hm hp, fun ho hk hin => Dev.arriveResponse_rnr hq hs hm hp ho hk hin rfl, Dev.arriveResponse_sequence hq hs hm hp,
       fun gain ho hg hc h0 h1 => Dev.arriveResponse_grant hq hs hm hp ho hg hc h0 h1⟩⟩⟩
  case timers =>
    intro s q x hs
    refine ⟨becomes_timers_none hs, fun hq => ⟨fun he => ?_, fun he => ?_, fun n hn => ⟨fun he => ?_, fun he => ?_⟩, fun he => ⟨fun h0 => ?_, fun h0 => ?_⟩⟩,
      fun d e mine hf hb hm he => ?_⟩
    · simpa only [he, if_true] using becomes_retransmitTimeout hs hq
    · simpa only [he, Bool.false_eq_true, if_false] using becomes_retransmitTimeout hs hq
    · simpa only [he, if_true] using becomes_rnrWaitExpiry hs hq hn
    · simpa only [he, Bool.false_eq_true, if_false] using becomes_rnrWaitExpiry hs hq hn
    · simpa only [h0, if_true] using becomes_roceAckTimeout hs hq he
    · simpa only [h0, if_false] using becomes_roceAckTimeout hs hq he
    · exact becomes_engine (f := fun d => (d.fetched q.toNat).settle) rfl hs (congrArg Dev.settle (Dev.fetched_takes hf hb hm he))
  case ethernet =>
    rintro s p f r d hs hrx hd
    have hcnp : ∀ x, s.dev.takeRoce true = x → Becomes .cnp s x := fun x hx => becomes_engine (f := (·.takeRoce true)) rfl hs hx
    have hroce : ∀ x, s.dev.takeRoce false = x → Becomes .rocePacket s x := fun x hx => becomes_engine (f := (·.takeRoce false)) rfl hs hx
    refine ⟨fun hc => ⟨hcnp _ (Dev.takeRoce_other hrx (by rw [hc]; decide)), hroce _ (hc ▸ Dev.takeRoce_own hrx hd)⟩, fun hc =>
      ⟨hroce _ (Dev.takeRoce_other hrx (by rw [hc]; decide)), fun hq => hcnp _ ?_, fun q x hq he => hcnp _ ?_⟩⟩
    · rw [← hc, Dev.takeRoce_own hrx hd, Dev.roceFrame_unsupported hq]
    · rw [← hc, Dev.takeRoce_own hrx hd, Dev.roceFrame_cnp hq he hc]
  case frames =>
    intro d p q f x hc he
    exact ⟨Dev.roceFrame_unsupported, fun hr hq => ⟨Dev.roceFrame_ack hr he hc hq, fun a b c ho hb hn => Dev.roceFrame_late hr he hc hq ho hb hn,
      fun a b c ho hb hn => Dev.roceFrame_early hr he hc hq ho hb hn⟩⟩

end Sys2Proof.Machine
end

section
/-! SUPPORT. Fabric time: the calibration messages, the timers of R448, and the registers that set and read FT (R441 to R451, R466). -/

namespace Sys2Proof.Machine

@[simp] theorem Dev.ptime_setPtime (d : Dev) (p : Nat) (t : PTime) : (d.setPtime p t).ptime p = t := Map.get_put_same _ _ _

/-! ## Messages -/

/-- Nothing is exchanged on a port that is not UP or before its time. -/
theorem Dev.exchangeOut_waits {d : Dev} {p : Nat} (h : d.gfUp p = false ∨ d.expired (.exchange p) = false) : d.exchangeOut p = d := by
  refine if_pos ?_
  rcases h with h | h <;> rw [h]
  · rfl
  · rw [Bool.and_false]; rfl

section exchange
variable {d d' : Dev} {p : Nat} (hu : d.gfUp p = true) (he : d.expired (.exchange p) = true) (hd : d' = d.arm (.exchange p) 1000000)
include hu he hd

theorem Dev.exchangeOut_off (ho : d'.has R.TIM_CTRL_ENABLE = false) : d.exchangeOut p = d' := by
  have hd' : d.arm (.exchange p) (us 125) = d' := hd.symm
  simp only [Dev.exchangeOut, hu, he, hd', Dev.timOn, ho, Bool.and_self, Bool.not_true, Bool.not_false, Bool.false_eq_true, if_false, if_true]

/-- One SYNC and one DELAY_REQ (R445, R446). -/
theorem Dev.exchangeOut_sends (ho : d'.has R.TIM_CTRL_ENABLE = true) :
    d.exchangeOut p = (d'.sendTime p (ctlPayload 1 (b2n (d'.has R.TIM_STATUS_ACCURATE)) (d'.get R.TIM_CTRL_DOMAIN) 0 0 0 0)).sendTime p
      (ctlPayload 2 0 (d'.get R.TIM_CTRL_DOMAIN) 0 0 0 0) := by
  have hd' : d.arm (.exchange p) (us 125) = d' := hd.symm
  simp only [Dev.exchangeOut, hu, he, hd', Dev.timOn, ho, Bool.and_self, Bool.not_true, Bool.false_eq_true, if_false]

end exchange

theorem Dev.timMsg_some {d d' : Dev} {kind : Nat} {m : RxPkt} (g : Dev → RxPkt → Dev) (h : d.takeTim kind = (some m, d')) : d.timMsg kind g = g d' m := by
  rw [Dev.timMsg, h]

theorem Dev.timMsg_none {d d' : Dev} {kind : Nat} (g : Dev → RxPkt → Dev) (h : d.takeTim kind = (none, d')) : d.timMsg kind g = d' := by
  rw [Dev.timMsg, h]

theorem Dev.onSync_off {d : Dev} (m : RxPkt) (h : d.has R.TIM_CTRL_ENABLE = false) : d.onSync m = d := by
  simp only [Dev.onSync, Dev.timOn, h, Bool.not_false, if_true]

section sync
variable {d x y : Dev} {m : RxPkt} {t : PTime} (ho : d.has R.TIM_CTRL_ENABLE = true)
  (ht : t = { d.ptime m.port with
    sync := some (timeOf m.payload 8, m.time)
    accurate := (fld m.payload 1 1).testBit 0
    syncs := if d.delayValid m.port then (d.ptime m.port).syncs + 1 else 0 })
  (hx : x = d.setPtime m.port t)
include ho ht hx

omit ho hx in
theorem synced : (if d.delayValid m.port = true then (d.ptime m.port).syncs + 1 else 0) = t.syncs ∧
    { d.ptime m.port with sync := some (timeOf m.payload 8, m.time), accurate := (fld m.payload 1 1).testBit 0, syncs := t.syncs } = t := by
  subst ht
  exact ⟨rfl, rfl⟩

/-- A SYNC is recorded with its receive time (R446). -/
theorem Dev.onSync_recorded (hu : x.upstream m.port = false) : d.onSync m = x := by
  simp only [Dev.onSync, Dev.timOn, ho, ← ht, ← hx, hu, Bool.not_true, Bool.not_false, Bool.false_eq_true, if_false, if_true]

variable (hy : y = x.arm .syncLoss 8000000) (hu : x.upstream m.port = true)
include hy hu

/-- On the upstream port it starts the 1 ms loss timer again (R448). -/
theorem Dev.onSync_rearmed (hv : y.delayValid m.port = false) : d.onSync m = y := by
  have hy' : x.arm .syncLoss (ms 1) = y := hy.symm
  simp only [Dev.onSync, Dev.timOn, ho, ← ht, ← hx, hu, hy', hv, Bool.not_true, Bool.not_false, Bool.false_eq_true, if_false, if_true]

variable (hv : y.delayValid m.port = true)
include hv

theorem Dev.onSync_syntonizes (hs : y.get R.TIM_STATUS_STATE = 0 ∧ 8 ≤ t.syncs ∨ y.get R.TIM_STATUS_STATE = 3) : d.onSync m = y.syntonize := by
  have hy' : x.arm .syncLoss (ms 1) = y := hy.symm
  obtain ⟨hn, ht'⟩ := synced ht
  simp only [Dev.onSync, Dev.timOn, ho, ht', ← hx, hu, hy', hv, hn, Bool.not_true, Bool.false_eq_true, if_false]
  exact if_pos hs

/-- The offset to the partner is t2 − t1 − d_in (R446). -/
theorem Dev.onSync_steers (h0 : y.get R.TIM_STATUS_STATE ≠ 0 ∨ t.syncs < 8) (h3 : y.get R.TIM_STATUS_STATE ≠ 3) :
    d.onSync m = (y.useOffset ((m.time : Int) - timeOf m.payload 8 - y.delayIn m.port) false).judgeAccurate := by
  have hy' : x.arm .syncLoss (ms 1) = y := hy.symm
  have hs : ¬ (y.get R.TIM_STATUS_STATE = 0 ∧ 8 ≤ t.syncs ∨ y.get R.TIM_STATUS_STATE = 3) := by omega
  have hp : (y.ptime m.port).sync = some (timeOf m.payload 8, m.time) := by
    subst hy hx ht
    exact congrArg PTime.sync (Dev.ptime_setPtime d m.port _)
  have hoff : y.offsetOf m.port = some ((m.time : Int) - timeOf m.payload 8 - y.delayIn m.port) := by
    rw [Dev.offsetOf, hp]; rfl
  obtain ⟨hn, ht'⟩ := synced ht
  simp only [Dev.onSync, Dev.timOn, ho, ht', ← hx, hu, hy', hv, hn, hs, hoff, Bool.not_true, Bool.false_eq_true, if_false]

end sync

theorem Dev.onDelayReq_off {d : Dev} (m : RxPkt) (h : d.has R.TIM_CTRL_ENABLE = false) : d.onDelayReq m = d := by
  simp only [Dev.onDelayReq, Dev.timOn, h, Bool.not_false, if_true]

/-- A DELAY_REQ is answered with its own time stamps (R446). -/
theorem Dev.onDelayReq_answers {d : Dev} (m : RxPkt) (h : d.has R.TIM_CTRL_ENABLE = true) :
    d.onDelayReq m = d.sendTime m.port (ctlPayload 3 0 (d.get R.TIM_CTRL_DOMAIN) 0 0 m.time (timeOf m.payload 8)) := by
  simp only [Dev.onDelayReq, Dev.timOn, h, Bool.not_true, Bool.false_eq_true, if_false]

theorem Dev.onDelayResp_off {d : Dev} (m : RxPkt) (h : d.has R.TIM_CTRL_ENABLE = false) : d.onDelayResp m = d := by
  simp only [Dev.onDelayResp, Dev.timOn, h, Bool.not_false, if_true]

/-- A DELAY_RESP to another request, or before any SYNC, does nothing. -/
theorem Dev.onDelayResp_other {d : Dev} {m : RxPkt} (ho : d.has R.TIM_CTRL_ENABLE = true)
    (h : (d.ptime m.port).reqAt ≠ some (timeOf m.payload 0x12) ∨ (d.ptime m.port).sync = none) : d.onDelayResp m = d := by
  simp only [Dev.onDelayResp, Dev.timOn, ho, Bool.not_true, Bool.false_eq_true, if_false]
  cases hr : (d.ptime m.port).reqAt with
  | none => rfl
  | some r =>
    cases hs : (d.ptime m.port).sync with
    | none => rfl
    | some q =>
      refine if_pos (fun hrt => ?_)
      rcases h with h | h
      · exact h (by rw [hr, hrt])
      · rw [hs] at h; exact absurd h (by simp)

section delayResp
variable {d x y : Dev} {m : RxPkt} {t : PTime} {t1 t2 : Nat} (ho : d.has R.TIM_CTRL_ENABLE = true) (hr : (d.ptime m.port).reqAt = some (timeOf m.payload 0x12))
  (hs : (d.ptime m.port).sync = some (t1, t2))
  (ht : t = { d.ptime m.port with
    reqAt := none
    exchanges := (d.ptime m.port).exchanges + 1
    delay := Config.filterDelay (d.ptime m.port).delay ((((t2 : Int) - t1) + ((timeOf m.payload 8 : Int) - timeOf m.payload 0x12)) / 2) })
  (hx : x = (d.setPtime m.port t).set (R.TIM_PORT_DELAY_DELAY m.port) (wrap 48 t.delay))
  (hy : y = if 16 ≤ t.exchanges then x.set (R.TIM_PORT_DELAY_VALID m.port) 1 else x)
include ho hr hs ht hx hy

omit ho hr hx hy in
theorem exchanged : (d.ptime m.port).exchanges + 1 = t.exchanges ∧
    Config.filterDelay (d.ptime m.port).delay ((((t2 : Int) - t1) + ((timeOf m.payload 8 : Int) - timeOf m.payload 0x12)) / 2) = t.delay ∧
    { d.ptime m.port with sync := some (t1, t2), reqAt := none, exchanges := t.exchanges, delay := t.delay } = t := by
  subst ht
  exact ⟨rfl, rfl, by rw [← hs]⟩

/-- An exchange gives the delay, VALID after 16 of them (R446, R447). -/
theorem Dev.onDelayResp_measured (hu : y.upstream m.port = false ∨ y.delayValid m.port = false) : d.onDelayResp m = y := by
  obtain ⟨hn, hdel, ht'⟩ := exchanged hs ht
  have hu' : (!(y.upstream m.port && y.delayValid m.port)) = true := by rcases hu with h | h <;> simp [h]
  simp only [Dev.onDelayResp, Dev.timOn, ho, hr, hs, hn, hdel, ht', ← hx, ← hy, hu', Bool.not_true, Bool.false_eq_true, if_false, ne_eq, not_true_eq_false, if_true]

variable (hu : y.upstream m.port = true) (hv : y.delayValid m.port = true) {off : Int} {z : Dev} (hoff : y.offsetOf m.port = some off)
  (hz : z = { y with tim := { y.tim with inBound := if off.natAbs ≤ 3276 then y.tim.inBound + 1 else 0 } })
include hu hv hoff hz

/-- From upstream, a node in HOLDOVER becomes SYNTONIZED again, and 16 exchanges in a row within 50 ps lock it (R448). -/
theorem Dev.onDelayResp_judged :
    d.onDelayResp m = if y.get R.TIM_STATUS_STATE = 3 then z.syntonize
      else if y.get R.TIM_STATUS_STATE = 1 ∧ 16 ≤ z.tim.inBound then (z.set R.TIM_STATUS_STATE 2).judgeAccurate else z := by
  obtain ⟨hn, hdel, ht'⟩ := exchanged hs ht
  have hk : z.tim.inBound = if off.natAbs ≤ 3276 then y.tim.inBound + 1 else 0 := by rw [hz]
  simp only [Dev.onDelayResp, Dev.timOn, ho, hr, hs, hn, hdel, ht', ← hx, ← hy, hu, hv, hoff, ← hz, hk, Bool.and_self, Bool.not_true, Bool.false_eq_true, if_false, ne_eq,
    not_true_eq_false, decide_eq_true_eq]

end delayResp

/-! ## Timers -/

/-- A loss in FREE or HOLDOVER, and one elsewhere, which enters HOLDOVER (R448). -/
theorem Dev.holdover_stays {d : Dev} (h : d.get R.TIM_STATUS_STATE = 0 ∨ d.get R.TIM_STATUS_STATE = 3) : d.holdover = d := if_pos h

theorem Dev.holdover_enters {d y : Dev} (h0 : d.get R.TIM_STATUS_STATE ≠ 0) (h3 : d.get R.TIM_STATUS_STATE ≠ 3)
    (hy : y = (d.set R.TIM_STATUS_STATE 3).disarm .syncLoss) :
    d.holdover = ({ y with tim := { y.tim with inBound := 0 } } : Dev).arm .accurate 8000000 := by
  subst hy
  exact if_neg (not_or.2 ⟨h0, h3⟩)

theorem Dev.syncLost_early {d : Dev} (h : d.expired .syncLoss = false) : d.syncLost = d := if_neg (by rw [h]; decide)

theorem Dev.syncLost_expired {d : Dev} (h : d.expired .syncLoss = true) : d.syncLost = (d.disarm .syncLoss).holdover.judgeAccurate := if_pos h

/-! ## Registers -/

/-- FT is set only on the root and only while ticks do not run (R449). -/
theorem Dev.ftSet_refused {d : Dev} (v : Nat) (h : d.has R.TIM_CTRL_ROOT = false ∨ d.has R.SEQ_TICK_CTRL_RUNNING = true) : d.ftSet v = d := by
  refine if_neg ?_
  rcases h with h | h
  · rw [h, Bool.false_and]; decide
  · rw [Dev.ticking, h, Bool.not_true, Bool.and_false]; decide

theorem Dev.ftSet_steps {d : Dev} (v : Nat) (h : d.has R.TIM_CTRL_ROOT = true) (ht : d.has R.SEQ_TICK_CTRL_RUNNING = false) : d.ftSet v = d.stepFt (v * 65536) :=
  if_pos (by rw [h, Dev.ticking, ht]; rfl)

/-- A clamped rate lies within its bounds of nominal (R441, R451). -/
theorem clampRate_bounds (r : Int) : clampRate 1 r ≤ nominalRate + nominalRate / 1000000 ∧ nominalRate - nominalRate / 1000000 ≤ clampRate 1 r := by
  unfold clampRate
  generalize nominalRate = n
  simp only [Nat.mul_one]
  omega

theorem ms_900 : ms 900 = 7200000000 := rfl

/-- An edge less than 900 ms after the last captured one is not taken (R553). -/
theorem Dev.ppsEdge_early {d : Dev} {t : Nat} (h : d.tim.ppsAt = some t) (ht : d.clk < t + 7200000000) : d.ppsEdge = d := by
  have hany : (d.tim.ppsAt.any (fun t => d.clk < t + ms 900)) = true := by
    rw [h, Option.any_some, ms_900]; exact decide_eq_true ht
  simp only [Dev.ppsEdge, hany, if_true]

section pps
variable {d d' : Dev} (h : ∀ t, d.tim.ppsAt = some t → t + 7200000000 ≤ d.clk)
  (hd : d' = ({ d with tim := { d.tim with ppsAt := some d.clk } } : Dev).setW R.TIM_PPS_CAPTURE (d.tim.ft.toNat / 65536))
include h

theorem ppsAt_due : d.tim.ppsAt.any (fun t => d.clk < t + ms 900) = false := by
  cases hp : d.tim.ppsAt with
  | none => rfl
  | some t => rw [Option.any_some, ms_900]; exact decide_eq_false (Nat.not_lt.2 (h t hp))

include hd

/-- An edge captures FT (R451). -/
theorem Dev.ppsEdge_captures (ho : d'.has R.TIM_CTRL_ENABLE = false ∨ d'.has R.TIM_CTRL_ROOT = false ∨ d'.has R.TIM_PPS_ENABLE = false) : d.ppsEdge = d' := by
  have hno : (d'.timOn && d'.has R.TIM_CTRL_ROOT && d'.has R.TIM_PPS_ENABLE) = false := by
    rcases ho with h | h | h <;> simp [Dev.timOn, h]
  rw [← Dev.ftNs] at hd
  simp only [Dev.ppsEdge, ppsAt_due h, ← hd, hno, Bool.false_eq_true, if_false]

/-- On the root with 1PPS enabled it bends the rate. -/
theorem Dev.ppsEdge_steers (ho : d'.has R.TIM_CTRL_ENABLE = true) (hr : d'.has R.TIM_CTRL_ROOT = true) (hp : d'.has R.TIM_PPS_ENABLE = true) :
    d.ppsEdge = { d' with tim := { d'.tim with rate := clampRate 1 (Config.ppsRate d'.tim.rate d'.ppsError) } } := by
  have hon : d'.timOn = true := ho
  rw [← Dev.ftNs] at hd
  simp only [Dev.ppsEdge, ppsAt_due h, ← hd, hon, hr, hp, Bool.and_self, Bool.false_eq_true, if_false, if_true]

end pps

/-- While ticks run DOMAIN and ROOT keep their values (R466). -/
theorem Dev.timCtrl_refused {d : Dev} {v : Word} (hr : d.has R.SEQ_TICK_CTRL_RUNNING = true)
    (h : getBits v 63 48 ≠ d.get R.TIM_CTRL_DOMAIN ∨ getBits v 1 1 ≠ d.get R.TIM_CTRL_ROOT) : d.timCtrl v = d := by
  refine if_pos ?_
  rw [Dev.ticking, hr, Bool.true_and]
  rcases h with h | h
  · rw [bne_iff_ne.2 h]; rfl
  · rw [bne_iff_ne.2 h, Bool.or_true]

section timCtrl
variable {d d' : Dev} {v : Word} (hr : d.has R.SEQ_TICK_CTRL_RUNNING = false)
  (hd : d' = (((d.set R.TIM_CTRL_DOMAIN (getBits v 63 48)).set R.TIM_CTRL_UPSTREAM (getBits v 47 40)).set R.TIM_CTRL_ROOT (getBits v 1 1)).set R.TIM_CTRL_ENABLE
    (getBits v 0 0))
include hr hd

/-- ENABLE 0 takes the node to FREE at the nominal rate (R448). -/
theorem Dev.timCtrl_disables (he : getBits v 0 0 = 0) {x : Dev} (hx : x = ((d'.set R.TIM_STATUS_STATE 0).disarm .syncLoss).disarm .accurate) :
    d.timCtrl v = ({ x with tim := { x.tim with rate := nominalRate, inBound := 0 } } : Dev).judgeAccurate := by
  rw [he] at hd
  simp only [Dev.timCtrl, Dev.ticking, hr, he, ← hd, ← hx, Bool.false_and, Bool.false_eq_true, if_false, if_true]

/-- The root is LOCKED to itself. -/
theorem Dev.timCtrl_root (he : getBits v 0 0 ≠ 0) (h1 : getBits v 1 1 = 1) :
    d.timCtrl v = ((d'.set R.TIM_STATUS_STATE 2).disarm .syncLoss).judgeAccurate := by
  rw [h1] at hd
  simp only [Dev.timCtrl, Dev.ticking, hr, he, h1, ← hd, Bool.false_and, Bool.false_eq_true, if_false, if_true]

end timCtrl

/-- Settles O47: messages by their kind, the timers by R448, the registers by their conditions. -/
theorem fabricTimeFollowsItsMessages : Obligations.FabricTimeFollowsItsMessages := by
  refine ⟨?exchange, ?messages, ?timers, ?registers⟩
  case exchange =>
    intro s p d hs hd
    have hrun : ∀ x, s.dev.exchangeOut p.val = x → Becomes (.timeExchangeSend p) s x := fun x hx => becomes_engine (f := (·.exchangeOut p.val)) rfl hs hx
    exact ⟨fun h => hrun _ (Dev.exchangeOut_waits h), fun hu he => ⟨fun ho => hrun _ (Dev.exchangeOut_off hu he hd ho),
      fun ho => hrun _ (Dev.exchangeOut_sends hu he hd ho)⟩⟩
  case messages =>
    intro s m d hs
    have hsync : ∀ x, s.dev.timMsg 1 Dev.onSync = x → Becomes .sync s x := fun x hx => becomes_engine (f := (·.timMsg 1 Dev.onSync)) rfl hs hx
    have hreq : ∀ x, s.dev.timMsg 2 Dev.onDelayReq = x → Becomes .delayReq s x := fun x hx => becomes_engine (f := (·.timMsg 2 Dev.onDelayReq)) rfl hs hx
    have hresp : ∀ x, s.dev.timMsg 3 Dev.onDelayResp = x → Becomes .delayResp s x := fun x hx => becomes_engine (f := (·.timMsg 3 Dev.onDelayResp)) rfl hs hx
    refine ⟨fun h => ⟨?syncOff, ?syncOn⟩, fun h => ⟨?reqOff, ?reqOn⟩, fun h => ⟨?respOff, ?respOther, ?respOwn⟩, fun h => hsync _ (Dev.timMsg_none _ h),
      fun h => hreq _ (Dev.timMsg_none _ h), fun h => hresp _ (Dev.timMsg_none _ h)⟩
    case syncOff => exact fun ho => hsync _ ((Dev.timMsg_some _ h).trans (Dev.onSync_off m ho))
    case syncOn =>
      intro ho t x y ht hx hy
      have hon : ∀ z, d.onSync m = z → Becomes .sync s z := fun z hz => hsync _ ((Dev.timMsg_some _ h).trans hz)
      exact ⟨fun hu => hon _ (Dev.onSync_recorded ho ht hx hu), fun hu hv => hon _ (Dev.onSync_rearmed ho ht hx hy hu hv),
        fun hu hv hst => hon _ (Dev.onSync_syntonizes ho ht hx hy hu hv hst), fun hu hv h0 h3 => hon _ (Dev.onSync_steers ho ht hx hy hu hv h0 h3)⟩
    case reqOff => exact fun ho => hreq _ ((Dev.timMsg_some _ h).trans (Dev.onDelayReq_off m ho))
    case reqOn => exact fun ho => hreq _ ((Dev.timMsg_some _ h).trans (Dev.onDelayReq_answers m ho))
    case respOff => exact fun ho => hresp _ ((Dev.timMsg_some _ h).trans (Dev.onDelayResp_off m ho))
    case respOther => exact fun ho hr => hresp _ ((Dev.timMsg_some _ h).trans (Dev.onDelayResp_other ho hr))
    case respOwn =>
      intro ho hr t1 t2 t x y hst ht hx hy
      have hon : ∀ z, d.onDelayResp m = z → Becomes .delayResp s z := fun z hz => hresp _ ((Dev.timMsg_some _ h).trans hz)
      refine ⟨fun hu => hon _ (Dev.onDelayResp_measured ho hr hst ht hx hy hu), fun hu hv off z hoff hz => ?judged⟩
      case judged =>
        have hj := Dev.onDelayResp_judged ho hr hst ht hx hy hu hv hoff hz
        refine ⟨fun h3 => hon _ (hj.trans (if_pos h3)), fun h1 hk => hon _ (hj.trans ?_), fun h3 hk => hon _ (hj.trans ?_)⟩
        · rw [if_neg (by rw [h1]; decide), if_pos ⟨h1, hk⟩]
        · rw [if_neg h3, if_neg (by omega)]
  case timers =>
    intro s hs
    have hlost : ∀ x, s.dev.syncLost = x → Becomes .syncLossTimeout s x := fun x hx => becomes_live (f := (·.syncLost)) rfl hs hx
    refine ⟨fun h => hlost _ (Dev.syncLost_early h), fun h x hx => ⟨fun hst => hlost _ ?_, fun h0 h3 y hy => hlost _ ?_⟩, fun h => ?_, fun h => ?_⟩
    · rw [Dev.syncLost_expired h, ← hx, Dev.holdover_stays hst]
    · rw [Dev.syncLost_expired h, ← hx, Dev.holdover_enters h0 h3 hy]
    · exact becomes_live (f := (·.accurateOut)) rfl hs (if_neg (by rw [h]; decide))
    · exact becomes_live (f := (·.accurateOut)) rfl hs (if_pos h)
  case registers =>
    intro s v hs
    have hset : ∀ x, s.dev.ftSet v.toNat = x → Becomes (.ftSet v) s (x.reply 0) := fun x hx =>
      becomes_live (f := fun d => (d.ftSet v.toNat).reply St.ok) rfl hs (congrArg (fun d : Dev => d.reply St.ok) hx)
    have hpps : ∀ x, s.dev.ppsEdge = x → Becomes .ppsEdge s x := fun x hx => becomes_live (f := (·.ppsEdge)) rfl hs hx
    have hctrl : ∀ x, s.dev.timCtrl v = x → Becomes (.timCtrlWrite v) s (x.reply 0) := fun x hx =>
      becomes_live (f := fun d => (d.timCtrl v).reply St.ok) rfl hs (congrArg (fun d : Dev => d.reply St.ok) hx)
    refine ⟨fun h ht => hset _ (Dev.ftSet_steps _ h ht), fun h => hset _ (Dev.ftSet_refused _ h), becomes_live (f := (·.ftNsRead)) rfl hs rfl,
      fun t h ht => hpps _ (Dev.ppsEdge_early h ht), fun h d hd => ⟨fun ho => hpps _ (Dev.ppsEdge_captures h hd ho), fun ho hr hp =>
        ⟨_, (clampRate_bounds _).1, (clampRate_bounds _).2, hpps _ (Dev.ppsEdge_steers h hd ho hr hp)⟩⟩, fun hr h => hctrl _ (Dev.timCtrl_refused hr h),
      fun hr d hd => ⟨fun he x hx => hctrl _ (Dev.timCtrl_disables hr hd he hx), fun he h1 => hctrl _ (Dev.timCtrl_root hr hd he h1)⟩⟩

end Sys2Proof.Machine
end

section
/-! SUPPORT. Barriers: arrivals, the release and its countdown, and CANCEL (R452 to R456). -/

namespace Sys2Proof.Machine

/-! ## Arrivals -/

theorem Dev.arriveLocal_dropped {d : Dev} {b : Nat} (h : d.has (R.TIM_BAR_CFG_LOCAL b) = false ∨ (d.bar b).loc = true) :
    d.arriveLocal b = d.inc R.TIM_DISC_DUP_ARRIVE := by
  refine if_pos ?_
  rcases h with h | h <;> rw [h]
  · rfl
  · rw [Bool.or_true]

/-- A first arrival of the member itself (R452). -/
theorem Dev.arriveLocal_counts {d : Dev} {b : Nat} (h : d.has (R.TIM_BAR_CFG_LOCAL b) = true) (hl : (d.bar b).loc = false) :
    d.arriveLocal b = (d.setBar b { d.bar b with loc := true }).barFull b := by
  simp only [Dev.arriveLocal, h, hl, Bool.not_true, Bool.or_self, Bool.false_eq_true, if_false]

section barArrive
variable {d : Dev} {m : RxPkt} (ho : d.has R.TIM_CTRL_ENABLE = true)
include ho

theorem Dev.onBarArrive_invalid (hv : d.delayValid m.port = false) : d.onBarArrive m = d := by
  simp only [Dev.onBarArrive, Dev.timOn, ho, hv, Bool.not_true, Bool.not_false, Bool.false_eq_true, if_false, if_true]

variable (hv : d.delayValid m.port = true)
include hv

/-- A foreign generation is counted (R452). -/
theorem Dev.onBarArrive_stale (hg : fld m.payload 6 2 ≠ d.get (R.TIM_BAR_STATUS_GEN (fld m.payload 4 1))) : d.onBarArrive m = d.inc R.TIM_DISC_STALE_GEN := by
  simp only [Dev.onBarArrive, Dev.timOn, ho, hv, Bool.not_true, Bool.false_eq_true, if_false]
  exact if_pos hg

variable (hg : fld m.payload 6 2 = d.get (R.TIM_BAR_STATUS_GEN (fld m.payload 4 1)))
include hg

/-- A second arrival of one source is counted. -/
theorem Dev.onBarArrive_dup (hp : m.port ∈ (d.bar (fld m.payload 4 1)).ports) : d.onBarArrive m = d.inc R.TIM_DISC_DUP_ARRIVE := by
  simp only [Dev.onBarArrive, Dev.timOn, ho, hv, ← hg, List.contains_iff_mem.2 hp, Bool.not_true, Bool.false_eq_true, if_false, ne_eq, not_true_eq_false, if_true]

theorem Dev.onBarArrive_counts (hp : m.port ∉ (d.bar (fld m.payload 4 1)).ports) :
    d.onBarArrive m = (d.setBar (fld m.payload 4 1) { d.bar (fld m.payload 4 1) with
      ports := insNat m.port (d.bar (fld m.payload 4 1)).ports }).barFull (fld m.payload 4 1) := by
  have hc : (d.bar (fld m.payload 4 1)).ports.contains m.port = false := by simpa using hp
  simp only [Dev.onBarArrive, Dev.timOn, ho, hv, ← hg, hc, Bool.not_true, Bool.false_eq_true, if_false, ne_eq, not_true_eq_false]

end barArrive

section barFull
variable {d x : Dev} {b n : Nat} (hn : n = (d.bar b).ports.length + b2n (d.bar b).loc)
  (hx : x = (d.set (R.TIM_BAR_STATUS_COUNT b) n).set (R.TIM_BAR_STATUS_WAITING b) (b2n (n < d.get (R.TIM_BAR_CFG_EXPECT b) + d.get (R.TIM_BAR_CFG_LOCAL b))))
include hn hx

/-- A count that is not full is shown. -/
theorem Dev.barFull_waits (hf : n ≠ d.get (R.TIM_BAR_CFG_EXPECT b) + d.get (R.TIM_BAR_CFG_LOCAL b)) : d.barFull b = x := by
  simp only [Dev.barFull, ← hn, ← hx]
  exact if_pos hf

variable (hf : n = d.get (R.TIM_BAR_CFG_EXPECT b) + d.get (R.TIM_BAR_CFG_LOCAL b))
include hf

/-- At the root a full count starts the release: R_FT is FT's integer ns, rounded up, plus LEAD_NS (R453). -/
theorem Dev.barFull_root (hr : x.has (R.TIM_BAR_CFG_ROOT b) = true) {rft : Nat} (hrft : rft = cdiv x.tim.ft.toNat 65536 + x.get (R.TIM_BAR_CFG_LEAD_NS b)) :
    d.barFull b = ((x.setBar b { d.bar b with
      countdown := some ((rft * 65536 : Nat) - (x.tim.ft.toNat : Int))
      rft := rft }).set (R.TIM_BAR_STATUS_COUNTING b) 1).sendRelease b (d.get (R.TIM_BAR_STATUS_GEN b)) rft (d.bar b).ports := by
  rw [← hf] at hx
  simp only [Dev.barFull, ← hn, ← hf, ← hx, ← hrft, hr, ne_eq, not_true_eq_false, if_false, if_true]

/-- Elsewhere it goes up to PARENT (R452). -/
theorem Dev.barFull_up (hr : x.has (R.TIM_BAR_CFG_ROOT b) = false) (hu : x.gfUp (x.get (R.TIM_BAR_CFG_PARENT b)) = true)
    (hv : x.delayValid (x.get (R.TIM_BAR_CFG_PARENT b)) = true) :
    d.barFull b = x.sendTime (x.get (R.TIM_BAR_CFG_PARENT b)) (ctlPayload 0x10 0 (x.get R.TIM_CTRL_DOMAIN) b (d.get (R.TIM_BAR_STATUS_GEN b)) 0 0) := by
  rw [← hf] at hx
  simp only [Dev.barFull, ← hn, ← hf, ← hx, hr, hu, hv, ne_eq, not_true_eq_false, if_false, Bool.false_eq_true, Bool.and_self, if_true]

end barFull

/-! ## Releases -/

section barRelease
variable {d : Dev} {m : RxPkt} (ho : d.has R.TIM_CTRL_ENABLE = true)
include ho

theorem Dev.barReleaseIn_invalid (hv : d.delayValid m.port = false) : d.barReleaseIn m = d := by
  simp only [Dev.barReleaseIn, Dev.onBarRelease, Dev.timOn, ho, hv, Bool.not_true, Bool.not_false, Bool.false_eq_true, if_false, if_true]

variable (hv : d.delayValid m.port = true)
include hv

theorem Dev.barReleaseIn_stale (hg : fld m.payload 6 2 ≠ d.get (R.TIM_BAR_STATUS_GEN (fld m.payload 4 1))) :
    d.barReleaseIn m = d.inc R.TIM_DISC_STALE_GEN := by
  simp only [Dev.barReleaseIn, Dev.onBarRelease, Dev.timOn, ho, hv, hg, Bool.not_true, Bool.false_eq_true, if_false, ne_eq, not_false_eq_true, if_true]

variable (hg : fld m.payload 6 2 = d.get (R.TIM_BAR_STATUS_GEN (fld m.payload 4 1))) {left : Int} (hl : left = (timeOf m.payload 8 : Int) - d.delayIn m.port) {x : Dev}
  (hx : x = ((d.setBar (fld m.payload 4 1) { d.bar (fld m.payload 4 1) with
    countdown := some left
    rft := timeOf m.payload 0x12 / 65536 }).set (R.TIM_BAR_STATUS_COUNTING (fld m.payload 4 1)) 1).sendRelease (fld m.payload 4 1)
      (d.get (R.TIM_BAR_STATUS_GEN (fld m.payload 4 1))) (timeOf m.payload 0x12 / 65536) (d.bar (fld m.payload 4 1)).ports)
include hg hl hx

/-- The countdown T_A − d_in starts, and the release is forwarded (R453). -/
theorem Dev.barReleaseIn_counts (h0 : 0 < left) : d.barReleaseIn m = x := by
  simp only [Dev.barReleaseIn, Dev.onBarRelease, Dev.timOn, ho, hv, hg, ← hl, ← hx, Int.not_le.2 h0, Bool.not_true, Bool.false_eq_true, if_false, ne_eq,
    not_true_eq_false]

/-- One that comes late releases at once (R455). -/
theorem Dev.barReleaseIn_late (h0 : left ≤ 0) :
    d.barReleaseIn m = (x.set (R.TIM_BAR_STATUS_LATE (fld m.payload 4 1)) 1).release (fld m.payload 4 1) := by
  simp only [Dev.barReleaseIn, Dev.onBarRelease, Dev.timOn, ho, hv, hg, ← hl, ← hx, h0, Bool.not_true, Bool.false_eq_true, if_false, ne_eq, not_true_eq_false,
    if_true]

end barRelease

theorem Dev.countdownEnd_waits {d : Dev} {b : Nat} (h : ∀ c, (d.bar b).countdown = some c → 0 < c) : d.countdownEnd b = d := by
  refine if_neg ?_
  cases hc : (d.bar b).countdown with
  | none => exact Bool.false_ne_true
  | some c => rw [Option.any_some, decide_eq_true_eq]; exact Int.not_le.2 (h c hc)

theorem Dev.countdownEnd_releases {d : Dev} {b : Nat} {c : Int} (h : (d.bar b).countdown = some c) (h0 : c ≤ 0) : d.countdownEnd b = d.release b :=
  if_pos (by rw [h, Option.any_some, decide_eq_true_eq]; exact h0)

section release
variable {d x : Dev} {b : Nat} (hx : x = (d.set (R.TIM_BAR_STATUS_RELEASED b) 1).setWord (R.TIM_BAR_RELEASE b) (BitVec.ofNat 64 (d.bar b).rft))
include hx

/-- What a release does at its member: RELEASED, R_FT, a new generation, and FT where the member is not LOCKED (R454). -/
theorem Dev.barReleased_eq :
    d.barReleased b = if (x.barClear b).get R.TIM_STATUS_STATE = 2 then x.barClear b else (x.barClear b).stepFt ((d.bar b).rft * 65536) := by
  simp only [Dev.barReleased, ← hx]

/-- Without an ARM that waits on the barrier that is all. -/
theorem Dev.release_alone
    (h : d.has R.SEQ_TICK_CTRL_ARM = false ∨ d.has R.SEQ_TICK_CTRL_RUNNING = true ∨ d.has R.SEQ_TICK_CTRL_SRC = false ∨ d.get R.SEQ_TICK_CTRL_BARRIER ≠ b) :
    d.release b = if (x.barClear b).get R.TIM_STATUS_STATE = 2 then x.barClear b else (x.barClear b).stepFt ((d.bar b).rft * 65536) := by
  have hno : (d.has R.SEQ_TICK_CTRL_ARM && !d.ticking && d.has R.SEQ_TICK_CTRL_SRC && d.get R.SEQ_TICK_CTRL_BARRIER == b) = false := by
    rcases h with h | h | h | h <;> simp [Dev.ticking, h]
  simp only [Dev.release, hno, Bool.false_eq_true, if_false]
  exact Dev.barReleased_eq hx

omit hx in
/-- An ARM that waits on it lets tick 0 fall. -/
theorem Dev.release_ticks (ha : d.has R.SEQ_TICK_CTRL_ARM = true) (hr : d.has R.SEQ_TICK_CTRL_RUNNING = false) (hs : d.has R.SEQ_TICK_CTRL_SRC = true)
    (hb : d.get R.SEQ_TICK_CTRL_BARRIER = b) {y : Dev} (hy : d.barReleased b = y) (hf : (y.setW R.SEQ_LAUNCH_FT (d.bar b).rft).fatal = false) :
    d.release b = (y.setW R.SEQ_LAUNCH_FT (d.bar b).rft).tickFall 0 := by
  simp only [Dev.release, Dev.ticking, ha, hr, hs, hb, hy, Bool.not_false, Bool.and_self, beq_self_eq_true, if_true]
  exact Dev.unlessFatal_of_works _ hf

end release

/-- Settles O48: arrivals and releases by the conditions of R452 to R455, CANCEL by R456. -/
theorem barriersArriveAndRelease : Obligations.BarriersArriveAndRelease := by
  refine ⟨?arrivals, ?releases⟩
  case arrivals =>
    intro s b hs
    have harr : ∀ x, s.dev.arriveLocal b.val = x → Becomes (.arrive b) s (x.reply 0) := fun x hx =>
      becomes_live (f := fun d => (d.arriveLocal b.val).reply St.ok) rfl hs (congrArg (fun d : Dev => d.reply St.ok) hx)
    refine ⟨fun h => harr _ (Dev.arriveLocal_dropped h), fun h hl => harr _ (Dev.arriveLocal_counts h hl), ?messages, fun d x k n rft hn hx hrft =>
      ⟨fun hf => Dev.barFull_waits hn hx hf, fun hf hr => Dev.barFull_root hn hx hf hr hrft, fun hf hr hu hv => Dev.barFull_up hn hx hf hr hu hv⟩⟩
    case messages =>
      rintro hw m d k rfl htake ho
      have hrun : ∀ x, d.onBarArrive m = x → Becomes .barArrive s x := fun x hx =>
        becomes_engine (f := (·.timMsg 0x10 Dev.onBarArrive)) rfl hw ((Dev.timMsg_some _ htake).trans hx)
      exact ⟨fun hv => hrun _ (Dev.onBarArrive_invalid ho hv), fun hv => ⟨fun hg => hrun _ (Dev.onBarArrive_stale ho hv hg),
        fun hg hp => hrun _ (Dev.onBarArrive_dup ho hv hg hp), fun hg hp => hrun _ (Dev.onBarArrive_counts ho hv hg hp)⟩⟩
  case releases =>
    intro s b hs
    have hend : ∀ x, s.dev.countdownEnd b.val = x → Becomes (.barrierRelease b) s x := fun x hx => becomes_live (f := (·.countdownEnd b.val)) rfl hs hx
    refine ⟨?messages, fun h => hend _ (Dev.countdownEnd_waits h), fun c h h0 => hend _ (Dev.countdownEnd_releases h h0), ?members, fun x hx => ?cancel⟩
    case messages =>
      rintro hw m d x k left rfl htake ho hl hx
      have hrun : ∀ x, d.barReleaseIn m = x → Becomes .barRelease s x := fun x hx =>
        becomes_engine (f := (·.timMsg 0x11 Dev.barReleaseIn)) rfl hw ((Dev.timMsg_some _ htake).trans hx)
      exact ⟨fun hv => hrun _ (Dev.barReleaseIn_invalid ho hv), fun hv hg => hrun _ (Dev.barReleaseIn_stale ho hv hg),
        fun hv hg h0 => hrun _ (Dev.barReleaseIn_counts ho hv hg hl hx h0), fun hv hg h0 => hrun _ (Dev.barReleaseIn_late ho hv hg hl hx h0)⟩
    case members =>
      intro d x y k hx hy
      exact ⟨fun h => (Dev.release_alone hx h).trans hy.symm, fun ha hr hst hb hf => Dev.release_ticks ha hr hst hb ((Dev.barReleased_eq hx).trans hy.symm) hf⟩
    case cancel =>
      subst hx
      exact becomes_live (f := fun d => (d.barClear b.val).reply St.ok) rfl hs rfl

end Sys2Proof.Machine
end

section
/-! SUPPORT. Memory errors and their containment, what a fatal cause does, and the dump (R308, R473 to R476). -/

namespace Sys2Proof.Machine

/-! ## FATAL stays set -/

theorem Dev.fatal_of_regs {d e : Dev} (h : e.regs = d.regs) : e.fatal = d.fatal := by
  unfold Dev.fatal Dev.has
  rw [Dev.get_congr h]

theorem Dev.fatal_setWord {d : Dev} {off : Nat} (w : Word) (h : R.LGR_STATUS ≠ off) : (d.setWord off w).fatal = d.fatal := by
  unfold Dev.fatal Dev.has
  rw [Dev.get_setWord_other d w _ h]

theorem Dev.fatal_set {d : Dev} {r : FRef} (v : Nat) (h : R.LGR_STATUS ≠ r.off) : (d.set r v).fatal = d.fatal := Dev.fatal_setWord _ h

theorem Dev.fatal_arm (d : Dev) (t : Timer) (n : Nat) : (d.arm t n).fatal = d.fatal := Dev.fatal_of_regs rfl

theorem Dev.fatal_disarm (d : Dev) (t : Timer) : (d.disarm t).fatal = d.fatal := Dev.fatal_of_regs rfl

theorem Dev.fatal_report (d : Dev) (fn block : Nat) (st : Status) (obj : Nat) : (d.report fn block st obj).fatal = d.fatal := Dev.fatal_of_regs rfl

theorem Dev.fatal_retire (d : Dev) (k n : Nat) : (d.retire k n).fatal = d.fatal := by
  unfold Dev.retire
  split
  · rfl
  · exact Dev.fatal_setWord _ (by unfold R.LGR_STATUS R.LGR_POOL_RETIRED; omega)

theorem Dev.fatal_retireAt (d : Dev) (kind p n : Nat) : (d.retireAt kind p n).fatal = d.fatal :=
  (Dev.fatal_retire _ _ _).trans (Dev.fatal_of_regs rfl)

theorem Dev.fatal_freePkt (d : Dev) (k : Pkt) : (d.freePkt k).fatal = d.fatal := by
  rw [Dev.freePkt]
  cases k.inPort with
  | none => exact Dev.fatal_retire d _ _
  | some p => exact (Dev.fatal_retireAt _ _ _ _).trans ((Dev.fatal_of_regs rfl).trans (Dev.fatal_retire d _ _))

/-- What every step of a fold keeps, the fold keeps. -/
theorem Dev.fatal_foldl {α : Type} {g : Dev → α → Dev} (h : ∀ d x, (g d x).fatal = d.fatal) (l : List α) (d : Dev) : (l.foldl g d).fatal = d.fatal := by
  induction l generalizing d with
  | nil => rfl
  | cons x l ih => exact (ih (g d x)).trans (h d x)

theorem Dev.fatal_flushPort (d : Dev) (p : Nat) : (d.flushPort p).fatal = d.fatal :=
  (Dev.fatal_of_regs rfl).trans ((Dev.fatal_retireAt _ _ _ _).trans ((Dev.fatal_foldl Dev.fatal_freePkt _ _).trans (Dev.fatal_of_regs rfl)))

theorem Dev.fatal_holdover (d : Dev) : d.holdover.fatal = d.fatal := by
  by_cases h : d.get R.TIM_STATUS_STATE = 0 ∨ d.get R.TIM_STATUS_STATE = 3
  · rw [Dev.holdover_stays h]
  · obtain ⟨h0, h3⟩ := not_or.1 h
    rw [Dev.holdover_enters h0 h3 rfl, Dev.fatal_arm]
    exact (Dev.fatal_of_regs rfl).trans (Dev.fatal_set 3 (by decide))

theorem Dev.fatal_ite {c : Prop} [Decidable c] {x y : Dev} {b : Bool} (hx : x.fatal = b) (hy : y.fatal = b) : (if c then x else y).fatal = b := by
  split
  · exact hx
  · exact hy

theorem Dev.fatal_leaveUp (d : Dev) (p : Nat) : (d.leaveUp p).fatal = d.fatal := by
  have hquiet : ((((d.disarm (.linkRx p)).disarm (.heartbeat p)).disarm (.heartbeatSend p)).disarm (.exchange p)).fatal = d.fatal := by
    simp only [Dev.fatal_disarm]
  have hheld := Dev.fatal_ite (c := (((((d.disarm (.linkRx p)).disarm (.heartbeat p)).disarm (.heartbeatSend p)).disarm (.exchange p)).upstream p) = true)
    ((Dev.fatal_holdover _).trans hquiet) hquiet
  rw [Dev.leaveUp]
  refine Dev.fatal_ite rfl (Dev.fatal_ite ?_ hheld)
  rw [Dev.fatal_set 0 (by decide)]
  exact (Dev.fatal_of_regs rfl).trans hheld

theorem Dev.fatal_enterDisabled (d : Dev) (p : Nat) : (d.enterDisabled p).fatal = d.fatal := by
  have hoff : R.LGR_STATUS ≠ (R.FAB_PORT_STATE_STATE p).off := by
    simp only [R.LGR_STATUS, R.FAB_PORT_STATE_STATE, R.FAB_PORT_STATE]; omega
  rw [Dev.enterDisabled, Dev.fatal_disarm, Dev.fatal_disarm, Dev.setPstate, Dev.fatal_set 0 hoff, Dev.fatal_flushPort, Dev.fatal_leaveUp]

theorem Dev.fatal_disableAll (d : Dev) : d.disableAll.fatal = d.fatal := by
  refine Dev.fatal_foldl (fun d p => ?_) _ d
  split
  · rfl
  · exact Dev.fatal_enterDisabled d p

theorem Dev.fatal_dropUpdate (d : Dev) : d.dropUpdate.fatal = d.fatal := by
  unfold Dev.dropUpdate
  split
  · rfl
  · exact (Dev.fatal_set _ (by decide)).trans ((Dev.fatal_set _ (by decide)).trans ((Dev.fatal_set _ (by decide)).trans (Dev.fatal_of_regs rfl)))

/-! ## A fatal cause -/

/-- A second cause is only recorded (R475). -/
theorem Dev.goFatal_again {d : Dev} (cause : Status) (h : d.fatal = true) : d.goFatal cause = d.report 0xFF 0x0D cause 0 :=
  if_pos ((Dev.fatal_report d _ _ _ _).trans h)

/-- The first cause sets FATAL and CAUSE, latches the state, begins the dump and disables the ports (R474, R475). -/
theorem Dev.goFatal_first {d x : Dev} {cause : Status} (h : d.fatal = false)
    (hx : x = ((d.report 0xFF 0x0D cause 0).set R.LGR_STATUS_FATAL 1).set R.LGR_STATUS_CAUSE cause.toNat) :
    d.goFatal cause = ((({ x with lgr := { x.lgr with latch := some ⟨x.regs, x.clk, x.timers, x.irq, x.tim, x.fab, x.lgr.ports⟩ } } : Dev).set
      R.LGR_STATUS_DUMP 1).dropUpdate).disableAll := by
  have hx' : x = ((d.report 0xFF 0x0D cause 0).set R.LGR_STATUS_FATAL 1).setSt R.LGR_STATUS_CAUSE cause := hx
  simp only [Dev.goFatal, Dev.fatal_report, h, Bool.false_eq_true, if_false, ← hx']

/-- A device with a fatal cause is a device with FATAL set. -/
theorem Dev.goFatal_fatal (d : Dev) (cause : Status) : (d.goFatal cause).fatal = true := by
  cases h : d.fatal with
  | true => rw [Dev.goFatal_again cause h, Dev.fatal_report, h]
  | false =>
    rw [Dev.goFatal_first h rfl, Dev.fatal_disableAll, Dev.fatal_dropUpdate]
    have hkeep : ∀ (e : Dev) (r : FRef) (v : Nat), r.lo ≤ r.hi → r.hi < 64 → 0 < r.lo → (e.set r v).fatal = e.fatal := by
      intro e r v hlo hhi h0
      unfold Dev.fatal Dev.has
      rw [Dev.get_set_apart e r R.LGR_STATUS_FATAL v hlo hhi (Nat.le_refl _) (Or.inr h0)]
    rw [hkeep _ R.LGR_STATUS_DUMP 1 (by decide) (by decide) (by decide)]
    have hset : ∀ e : Dev, (e.set R.LGR_STATUS_FATAL 1).fatal = true := by
      intro e
      unfold Dev.fatal
      rw [Dev.has_set_same e R.LGR_STATUS_FATAL 1 (by decide) (by decide)]
      decide
    have hlatch : ∀ (e : Dev) (l : Lgr), ({ e with lgr := l } : Dev).fatal = e.fatal := fun e l => Dev.fatal_of_regs rfl
    rw [hlatch, hkeep _ R.LGR_STATUS_CAUSE _ (by decide) (by decide) (by decide), hset]

/-! ## Memory errors -/

theorem hbmSize_eq : hbmSize = 0xA000000000 := rfl

section errors
variable {s : State}

theorem becomes_uncorrectable (hs : s.Live) {loc : ErrLoc} {x : Dev} (hx : s.dev.uncorrectable loc = x) : Becomes (.uncorrectableError loc) s x.settle :=
  becomes_live (f := fun d => (d.uncorrectable loc).settle) rfl hs (congrArg Dev.settle hx)

/-- An error in a location of a loaded function stalls what it stands for (R473). -/
theorem Dev.uncorrectable_ofFunction {d : Dev} {f : FnId} (hf : d.loaded f = true) (a : Nat) :
    d.uncorrectable (.channelBuf f a) = (d.memErr a 0x0F02 1).stall f (2 ^ 80 + a) 0x0F02 ∧
    d.uncorrectable (.stateArea f a) = (d.memErr a 0x0F02 3).stall f (2 ^ 80 + a) 0x0F02 ∧
    d.uncorrectable (.planTables f a) = (d.memErr a 0x0F02 1).stall f (2 ^ 81 + a) 0x0F02 ∧
    d.uncorrectable (.gtcCode f a) = (d.memErr a 0x0F02 7).stall f (2 ^ 81 + a) 0x0F02 :=
  ⟨if_pos hf, if_pos hf, if_pos hf, if_pos hf⟩

/-- CORE_FAILURE of a core that the part has is an uncorrectable error of the core (R308). -/
theorem becomes_coreFailure {c a : Nat} (hw : s.Works) (hc : c < s.dev.get R.GLB_UNITS_THR_CORES) :
    Becomes (.coreFailure c a) s (s.dev.uncorrectable (.core c a)) := by
  rw [Becomes, exec, execCoreFailure, State.act_open _ (Dev.open_engine hw.1 hw.2)]
  simp only [hc, if_true]

theorem becomes_coreFailure_other {c a : Nat} (hw : s.Works) (hc : s.dev.get R.GLB_UNITS_THR_CORES ≤ c) : Becomes (.coreFailure c a) s s.dev := by
  rw [Becomes, exec, execCoreFailure, State.act_open _ (Dev.open_engine hw.1 hw.2)]
  simp only [Nat.not_lt.2 hc, if_false]

/-- What the scrub finds at an address of HBM is counted, and recorded where it is uncorrectable (R473). -/
theorem becomes_hbmScrub {a : Nat} (hs : s.Live) (ha : a < hbmSize) :
    Becomes (.hbmScrub a .clean) s s.dev ∧ Becomes (.hbmScrub a .correctable) s (s.dev.inc R.LGR_ECC_CORRECTED) ∧
      Becomes (.hbmScrub a .uncorrectable) s (s.dev.memErr a 0x0F02 3) := by
  have hin : ¬ hbmSize ≤ a := Nat.not_le.2 ha
  refine ⟨?_, ?_, ?_⟩ <;> rw [Becomes, exec, execHbmScrub, State.act_open _ (Dev.open_live hs), if_neg hin]
  rfl

theorem becomes_hbmScrub_outside {a : Nat} (x : Scrub) (hs : s.Live) (ha : hbmSize ≤ a) : Becomes (.hbmScrub a x) s s.dev := by
  rw [Becomes, exec, execHbmScrub, State.act_open _ (Dev.open_live hs)]
  simp only [ha, if_true]

theorem becomes_hbmScrub_clean {a : Nat} (hs : s.Live) : Becomes (.hbmScrub a .clean) s s.dev := by
  rcases Nat.lt_or_ge a hbmSize with h | h
  · exact (becomes_hbmScrub hs h).1
  · exact becomes_hbmScrub_outside .clean hs h

end errors

/-! ## The dump -/

section dump
variable {d : Dev}

theorem Dev.dumpEnd_none (ok : Bool) (bad : List Nat) (h : d.lgr.latch = none) : d.dumpEnd ok bad = d := by
  rw [Dev.dumpEnd, h]

variable {l : Latch} (h : d.lgr.latch = some l) (hfw : d.get R.MGT_FW_STATUS_STATE ≠ 3)
include h hfw

/-- A dump whose header could not be written has FAILED (R476). -/
theorem Dev.dumpEnd_failed (bad : List Nat) :
    d.dumpEnd false bad = ({ d with lgr := { d.lgr with latch := none } } : Dev).set R.LGR_STATUS_DUMP 3 := by
  rw [Dev.dumpEnd, h]
  simp only [hfw, if_false, Bool.not_false, if_true]

/-- A dump that is written whole is COMPLETE, and LENGTH is its length (R475, R476). -/
theorem Dev.dumpEnd_complete {bad : List Nat} {f e : Dev} {b dig sig : Bytes} (hf : f = d.latched l) (hb : b = dumpBody d f bad) (hdig : dig = sha512 b)
    (hsig : sig = edSign d.sec.seed dig)
    (he : e = ({ d with free := d.free + 2 * f.dumpObjects.length, lgr := { d.lgr with latch := none } } : Dev).addWord R.SEC_SIGNED 1) :
    d.dumpEnd true bad = ((e.write dumpBase (b ++ dig ++ sig)).set R.LGR_DUMP_LENGTH (b ++ dig ++ sig).length).set R.LGR_STATUS_DUMP 2 := by
  subst he hsig hdig hb hf
  rw [Dev.dumpEnd, h]
  simp only [hfw, if_false, Bool.not_true, Bool.false_eq_true, Dev.signWith]

end dump

/-- Settles O51: errors by their location, a fatal cause and what it keeps, the dump by its ending. -/
theorem faultsAreContained : Obligations.FaultsAreContained := by
  refine ⟨?errors, ?fatal, ?dump⟩
  case errors =>
    intro s f p q c a hs e he
    have he' : ∀ a st b, e a st b = s.dev.memErr a st b := he
    simp only [he']
    have hrun : ∀ {loc : ErrLoc} {x : Dev}, s.dev.uncorrectable loc = x → Becomes (.uncorrectableError loc) s x.settle := fun hx => becomes_uncorrectable hs hx
    refine ⟨hrun rfl, fun hf => ?function, hrun rfl, hrun rfl, fun l b hl => ?own, hrun rfl, fun hf => ⟨fun hc => becomes_coreFailure ⟨hs, hf⟩ hc,
      fun hc => becomes_coreFailure_other ⟨hs, hf⟩ hc⟩, becomes_hbmScrub_clean hs, fun ha x => becomes_hbmScrub_outside x hs (hbmSize_eq ▸ ha),
      fun ha => (becomes_hbmScrub hs (hbmSize_eq ▸ ha)).2, becomes_live (f := (·.goFatal St.firmwareAssert)) rfl hs rfl⟩
    case function =>
      obtain ⟨h1, h2, h3, h4⟩ := Dev.uncorrectable_ofFunction hf a
      exact ⟨hrun h1, hrun h2, hrun h3, hrun h4⟩
    case own =>
      simp only [List.mem_cons, Prod.mk.injEq, List.not_mem_nil, or_false] at hl
      rcases hl with ⟨rfl, rfl⟩ | ⟨rfl, rfl⟩ | ⟨rfl, rfl⟩ | ⟨rfl, rfl⟩ <;> exact hrun rfl
  case fatal =>
    rintro s cause d x rfl hx
    exact ⟨Dev.goFatal_again cause, fun h => Dev.goFatal_first h hx, Dev.goFatal_fatal _ cause, fun c hc =>
      everyCommandAnswersNext.2 c _ (Or.inr ⟨hc, Dev.goFatal_fatal _ cause⟩)⟩
  case dump =>
    intro s ok bad hs
    have hrun : ∀ x, s.dev.dumpEnd ok (bad.map (·.val)) = x → Becomes (.dumpComplete ok bad) s x := by
      rintro x rfl
      rw [Becomes, exec, execDumpComplete, State.act_open _ (Dev.open_live hs)]
    refine ⟨fun h => hrun _ (Dev.dumpEnd_none _ _ h), fun l h hfw => ⟨?_, ?_⟩, becomes_live (f := fun d => d.dumpRelease.reply St.ok) rfl hs rfl⟩
    · rintro rfl; exact hrun _ (Dev.dumpEnd_failed h hfw _)
    · rintro rfl f d b dig sig hf hb hdig hsig hd
      exact hrun _ (Dev.dumpEnd_complete h hfw hf hb hdig hsig hd)

end Sys2Proof.Machine
end

section
/-! SUPPORT. Node IDs, fences, leases and heartbeats (R362, R375, R479 to R482). -/

namespace Sys2Proof.Machine

/-! ## Node IDs and fences -/

/-- FAB_NODE_ID keeps its node while a function is loaded (R375). -/
theorem Dev.nodeWrite_kept {d : Dev} {v : Word} (hn : getBits v 11 0 ≠ d.node) (hl : d.loadedFns ≠ []) (ha : d.node ≠ 0xFFF) : d.nodeWrite v = d :=
  if_pos ⟨hn, by rw [List.isEmpty_eq_false_iff.2 hl]; rfl, ha⟩

theorem Dev.nodeWrite_taken {d : Dev} {v : Word} (h : getBits v 11 0 = d.node ∨ d.loadedFns = [] ∨ d.node = 0xFFF) :
    d.nodeWrite v = (d.set R.FAB_NODE_ID_NODE (getBits v 11 0)).set R.FAB_NODE_ID_ADMIT_EPOCH (getBits v 63 32) := by
  refine if_neg ?_
  rintro ⟨hn, hl, ha⟩
  rcases h with h | h | h
  · exact hn h
  · rw [h] at hl; exact absurd hl (by decide)
  · exact ha h

section fence
variable {d : Dev} {n : Nat} (hn : n < 0xFFF) {valid : Bool} {epoch : Nat}
include hn

/-- A fence is not cleared, and its epoch neither lowered nor repeated (R362). -/
theorem Dev.fence_kept (hv : d.has (R.FAB_FENCE_VALID n) = true) (h : valid = false ∨ epoch ≤ d.get (R.FAB_FENCE_EPOCH n)) : d.fence n valid epoch = d := by
  have hno : (d.has (R.FAB_FENCE_VALID n) && (!valid || decide (epoch ≤ d.get (R.FAB_FENCE_EPOCH n)))) = true := by
    rcases h with h | h <;> simp [hv, h]
  simp only [Dev.fence, Nat.not_le.2 hn, hno, if_false, if_true]

variable (h : d.has (R.FAB_FENCE_VALID n) = false ∨ valid = true ∧ d.get (R.FAB_FENCE_EPOCH n) < epoch) {x : Dev}
  (hx : x = (d.set (R.FAB_FENCE_VALID n) (b2n valid)).set (R.FAB_FENCE_EPOCH n) epoch)
include h hx

/-- A first fence, and one of a higher epoch, is taken, and its node's queue pairs go to ERROR (R385, R392). -/
theorem Dev.fence_taken : d.fence n valid epoch = if valid then (x.xptFence n).settle else x := by
  have hno : (d.has (R.FAB_FENCE_VALID n) && (!valid || decide (epoch ≤ d.get (R.FAB_FENCE_EPOCH n)))) = false := by
    rcases h with h | ⟨hv, he⟩
    · rw [h, Bool.false_and]
    · rw [hv, decide_eq_false (Nat.not_le.2 he), Bool.not_true, Bool.or_self, Bool.and_false]
  simp only [Dev.fence, Nat.not_le.2 hn, hno, Bool.false_eq_true, if_false, ← hx]

end fence

/-! ## Leases -/

theorem Dev.leaseOut_early {d : Dev} (h : d.expired .lease = false) : d.leaseOut = d := if_pos (by rw [h]; rfl)

section lease
variable {d d' : Dev} (h : d.expired .lease = true) (hd : d' = (d.disarm .lease).set R.LGR_LEASE_ACTIVE 0)
include h hd

/-- A lease that runs out in a fenced node is over (R480). -/
theorem Dev.leaseOut_fenced (hf : d'.has R.LGR_STATUS_SELF_FENCED = true) : d.leaseOut = d' := by
  simp only [Dev.leaseOut, h, ← hd, hf, Bool.not_true, Bool.false_eq_true, if_false, if_true]

/-- One that runs out in another node makes it fence itself at its ADMIT_EPOCH (R481). -/
theorem Dev.leaseOut_fences (hf : d'.has R.LGR_STATUS_SELF_FENCED = false) : d.leaseOut = d'.selfFence (d'.get R.FAB_NODE_ID_ADMIT_EPOCH) := by
  simp only [Dev.leaseOut, h, ← hd, hf, Bool.not_true, Bool.false_eq_true, if_false]

end lease

/-- A node that fences itself: SELF_FENCED and FENCE_EPOCH, its queue pairs to other nodes, and a KILL for each function that is not STOPPED (R481). -/
theorem Dev.selfFence_eq {d x y : Dev} {epoch : Nat}
    (hx : x = (d.set R.LGR_STATUS_SELF_FENCED 1).set R.LGR_LEASE_FENCE_EPOCH (max epoch ((d.set R.LGR_STATUS_SELF_FENCED 1).get R.LGR_LEASE_FENCE_EPOCH)))
    (hy : y = ((((x.xpt.qps.filter (fun e => e.2.st = 1 && e.2.setup.peerNode != x.node)).map (·.1)).foldl (fun d q => d.qpError q 0x0502) x)).settle) :
    d.selfFence epoch = (y.loadedFns.filter (fun e => y.fnState e.1 != 1)).foldl (fun d e => d.killWrite e.1) y := by
  have hy' : y = ((((x.xpt.qps.filter (fun e => e.2.st = 1 && e.2.setup.peerNode != x.node)).map (·.1)).foldl (fun d q => d.qpError q St.fenced) x)).settle := hy
  rw [Dev.get_set_off _ _ _ _ (by decide)] at hx
  simp only [Dev.selfFence, ← hx, ← hy', stStopped]

/-! ## Heartbeats -/

theorem Dev.heartbeatOut_waits {d : Dev} {p : Nat} (h : d.gfUp p = false ∨ d.expired (.heartbeatSend p) = false) : d.heartbeatOut p = d := by
  refine if_pos ?_
  rcases h with h | h <;> rw [h]
  · rfl
  · rw [Bool.and_false]; rfl

section heartbeat
variable {d d' : Dev} {p : Nat} (hu : d.gfUp p = true) (he : d.expired (.heartbeatSend p) = true) (hd : d' = d.arm (.heartbeatSend p) 8000000)
include hu he hd

theorem Dev.heartbeatOut_unassigned (hn : d'.node = 0xFFF) : d.heartbeatOut p = d' := by
  have hd' : d.arm (.heartbeatSend p) (ms 1) = d' := hd.symm
  simp only [Dev.heartbeatOut, hu, he, hd', hn, Bool.and_self, Bool.not_true, Bool.false_eq_true, if_false, if_true]

/-- A port that is UP sends a heartbeat while a node ID is assigned (R482). -/
theorem Dev.heartbeatOut_sends (hn : d'.node ≠ 0xFFF) :
    d.heartbeatOut p = d'.sendTime p ([0x20, BitVec.ofNat 8 (d'.get R.LGR_STATUS_SELF_FENCED)] ++ List.replicate 6 0 ++ timeField d'.tim.ft.toNat
      ++ List.replicate 10 0 ++ le 4 (d'.get R.FAB_NODE_ID_ADMIT_EPOCH)) := by
  have hd' : d.arm (.heartbeatSend p) (ms 1) = d' := hd.symm
  simp only [Dev.heartbeatOut, hu, he, hd', hn, Bool.and_self, Bool.not_true, Bool.false_eq_true, if_false]

end heartbeat

theorem Dev.heartbeatIn_none {d d' : Dev} (h : d.takeTim 0x20 = (none, d')) : d.heartbeatIn = d' := by
  rw [Dev.heartbeatIn, h]

/-- A received heartbeat is recorded and starts 4 ms anew (R482). -/
theorem Dev.heartbeatIn_some {d d' x : Dev} {m : RxPkt} (h : d.takeTim 0x20 = (some m, d'))
    (hx : x = ((d'.set (R.LGR_NBR_ADMIT_EPOCH m.port) (fld m.payload 0x1C 4)).set (R.LGR_NBR_NODE m.port) m.src).set (R.LGR_NBR_SELF_FENCED m.port)
      (fld m.payload 1 1 % 2)) :
    d.heartbeatIn = ((x.set (R.LGR_NBR_SILENT m.port) 0).set (R.LGR_NBR_HEARD m.port) 1).arm (.heartbeat m.port) 32000000 := by
  have hms : ms 4 = 32000000 := rfl
  rw [Dev.heartbeatIn, h]
  simp only [← hx, hms]

/-- After 4 ms without one the neighbour shows as SILENT. -/
theorem becomes_neighbourSilent {s : State} (p : PortId) (hw : s.Works) :
    Becomes (.neighbourSilent p) s (if s.dev.gfUp p.val && s.dev.expired (.heartbeat p.val) then (s.dev.disarm (.heartbeat p.val)).set (R.LGR_NBR_SILENT p.val) 1
      else s.dev) := by
  rw [Becomes, exec, execNeighbourSilent, State.act_open _ (Dev.open_engine hw.1 hw.2)]

/-- Settles O52: node IDs and fences by what they hold, leases by their end, heartbeats by their timers. -/
theorem nodesAreFencedAndHeard : Obligations.NodesAreFencedAndHeard := by
  refine ⟨?fences, ?leases, ?heartbeats⟩
  case fences =>
    intro s n v hs
    have hnode : ∀ x, s.dev.nodeWrite v = x → Becomes (.nodeIdWrite v) s (x.reply 0) := fun x hx =>
      becomes_live (f := fun d => (d.nodeWrite v).reply St.ok) rfl hs (congrArg (fun d : Dev => d.reply St.ok) hx)
    have hfence : ∀ x, s.dev.fence n.toNat (v.getLsbD 63) (getBits v 31 0) = x → Becomes (.fenceWrite n v) s (x.reply 0) := fun x hx =>
      becomes_live (f := fun d => (d.fence n.toNat (v.getLsbD 63) (getBits v 31 0)).reply St.ok) rfl hs (congrArg (fun d : Dev => d.reply St.ok) hx)
    refine ⟨fun hn hl ha => hnode _ (Dev.nodeWrite_kept hn hl ha), fun h => hnode _ (Dev.nodeWrite_taken h), fun hn =>
      ⟨fun hv h => hfence _ (Dev.fence_kept hn hv h), fun h d hd => ?_⟩⟩
    exact ⟨fun hv => hfence _ ((Dev.fence_taken hn h hd).trans (if_pos hv)), fun hv => hfence _ ((Dev.fence_taken hn h hd).trans (if_neg (by rw [hv]; decide)))⟩
  case leases =>
    intro s hs
    have hrun : ∀ x, s.dev.leaseOut = x → Becomes .leaseExpiry s x := fun x hx => becomes_live (f := (·.leaseOut)) rfl hs hx
    exact ⟨fun h => hrun _ (Dev.leaseOut_early h), fun h d hd => ⟨fun hf => hrun _ (Dev.leaseOut_fenced h hd hf), fun hf x y hx hy =>
      hrun _ ((Dev.leaseOut_fences h hd hf).trans (Dev.selfFence_eq hx hy))⟩⟩
  case heartbeats =>
    intro s p hs
    have hout : ∀ x, s.dev.heartbeatOut p.val = x → Becomes (.heartbeatSend p) s x := fun x hx => becomes_engine (f := (·.heartbeatOut p.val)) rfl hs hx
    have hin : ∀ x, s.dev.heartbeatIn = x → Becomes .heartbeat s x := fun x hx => becomes_engine (f := (·.heartbeatIn)) rfl hs hx
    refine ⟨fun h => hout _ (Dev.heartbeatOut_waits h), fun hu he d hd => ⟨fun hn => hout _ (Dev.heartbeatOut_unassigned hu he hd hn), fun hn =>
      hout _ (Dev.heartbeatOut_sends hu he hd hn)⟩, fun d h => hin _ (Dev.heartbeatIn_none h), fun m d x h hx => hin _ (Dev.heartbeatIn_some h hx), fun h => ?_,
      fun hu he => ?_⟩
    · have hno : (s.dev.gfUp p.val && s.dev.expired (.heartbeat p.val)) = false := by rcases h with h | h <;> simp [h]
      simpa only [hno, Bool.false_eq_true, if_false] using becomes_neighbourSilent p hs
    · simpa only [hu, he, Bool.and_self, if_true] using becomes_neighbourSilent p hs

end Sys2Proof.Machine
end

section
/-! SUPPORT. Recovery records: their checks, their actions and their replies (R483 to R485). -/

namespace Sys2Proof.Machine

/-! ## A record that arrives -/

section recNet
variable {d : Dev} {b : Bytes} (to_ : Sender)

/-- A live update holds the datagram (R507). -/
theorem Dev.recNet_held (h : d.get R.MGT_FW_STATUS_STATE = 3) : d.recNet b to_ = { d with mgt := { d.mgt with heldNet := d.mgt.heldNet ++ [(b, to_)] } } := if_pos h

/-- A bad signature is counted (R483). -/
theorem Dev.recNet_unsigned (h : d.get R.MGT_FW_STATUS_STATE ≠ 3) (hs : d.recSigned b = false) : d.recNet b to_ = d.inc R.MGT_STATUS_NET_BAD := by
  rw [Dev.recNet, if_neg h, hs]; rfl

theorem Dev.recNet_signed (h : d.get R.MGT_FW_STATUS_STATE ≠ 3) (hs : d.recSigned b = true) :
    d.recNet b to_ = d.recTake (b.take (b.length - 64)) (.net to_) := by
  rw [Dev.recNet, if_neg h, hs]; rfl

end recNet

section recTake
variable {d : Dev} {b : Bytes} {to_ : ReplyTo}

/-- A record that its check refuses is answered with the check's status. -/
theorem Dev.recTake_refused (h : d.recCheck b ≠ 0) (hl : 8 ≤ b.length) (hn : fld b 6 2 ≤ 64) :
    d.recTake b to_ = d.sendReply to_ (d.recCheck b) (fld b 8 8) (fld b 6 2) [] := by
  simp only [Dev.recTake, ne_eq, h, not_false_eq_true, if_true, hn, hl, and_self]

variable (h : d.recCheck b = 0)
include h

/-- A repeated RSN repeats the statuses of its record (R485). -/
theorem Dev.recTake_repeated {r : RecoveryReply} (ha : fld b 8 8 ∈ d.lgr.accepted) (hr : d.lgr.replies.find? (fun r => r.rsn = fld b 8 8) = some r) :
    d.recTake b to_ = d.sendReply to_ r.status (fld b 8 8) r.count r.stats := by
  simp only [Dev.recTake, ne_eq, h, not_true_eq_false, if_false, List.contains_iff_mem.2 ha, if_true, hr]

variable (ha : fld b 8 8 ∉ d.lgr.accepted)
include ha

/-- An RSN that is not above LGR_RSN is stale. -/
theorem Dev.recTake_stale (hr : fld b 8 8 ≤ (d.word R.LGR_RSN).toNat) : d.recTake b to_ = d.sendReply to_ 0x0536 (fld b 8 8) (fld b 6 2) [] := by
  have hc : d.lgr.accepted.contains (fld b 8 8) = false := by simpa using ha
  simp only [Dev.recTake, ne_eq, h, not_true_eq_false, if_false, hc, Bool.false_eq_true, hr, if_true]
  rfl

variable (hr : (d.word R.LGR_RSN).toNat < fld b 8 8)
include hr

/-- A full queue takes no record. -/
theorem Dev.recTake_full (hq : 16 ≤ d.lgr.queue.length) : d.recTake b to_ = d.sendReply to_ 0x0601 (fld b 8 8) (fld b 6 2) [] := by
  have hc : d.lgr.accepted.contains (fld b 8 8) = false := by simpa using ha
  simp only [Dev.recTake, ne_eq, h, not_true_eq_false, if_false, hc, Bool.false_eq_true, Nat.not_le.2 hr, hq, if_true]
  rfl

/-- An accepted record joins the queue (R483). -/
theorem Dev.recTake_accepted (hq : d.lgr.queue.length < 16) :
    d.recTake b to_ = ((({ d with lgr := { d.lgr with
      queue := d.lgr.queue ++ [⟨fld b 8 8, (List.range (fld b 6 2)).map (actionOf b), [], false, [to_]⟩]
      accepted := (fld b 8 8 :: d.lgr.accepted).take 64 } } : Dev).setW R.LGR_RSN (fld b 8 8)).recSettle 17) := by
  have hc : d.lgr.accepted.contains (fld b 8 8) = false := by simpa using ha
  simp only [Dev.recTake, ne_eq, h, not_true_eq_false, if_false, hc, Bool.false_eq_true, Nat.not_le.2 hr, Nat.not_le.2 hq]

end recTake

/-! ## The check of a record -/

theorem Dev.recCheck_fatal {d : Dev} (b : Bytes) (h : d.fatal = true) : d.recCheck b = 0x0F04 := if_pos h

section recCheck
variable {d : Dev} {b : Bytes} (hf : d.fatal = false)
include hf

/-- A record that is no record (R484). -/
theorem Dev.recCheck_malformed (h : b.length < 32 ∨ b.take 4 ≠ [0x47, 0x4C, 0x52, 0x52] ∨ fld b 4 2 ≠ 1) : d.recCheck b = 0x0138 := by
  simp only [Dev.recCheck, hf, Bool.false_eq_true, if_false]
  exact if_pos h

variable (hl : 32 ≤ b.length) (hm : b.take 4 = [0x47, 0x4C, 0x52, 0x52]) (hv : fld b 4 2 = 1)
include hl hm hv

theorem Dev.recCheck_reserved (hn : fld b 6 2 = 0xFFFF) : d.recCheck b = 0x0202 := by
  simp only [Dev.recCheck, hf, Nat.not_lt.2 hl, hm, hv, hn, Bool.false_eq_true, if_false, ne_eq, not_true_eq_false, or_self, if_true]
  rfl

theorem Dev.recCheck_long (h64 : 64 < fld b 6 2) (hn : fld b 6 2 < 0xFFFF) : d.recCheck b = 0x0201 := by
  simp only [Dev.recCheck, hf, Nat.not_lt.2 hl, hm, hv, Nat.ne_of_lt hn, h64, Bool.false_eq_true, if_false, ne_eq, not_true_eq_false, or_self, if_true]
  rfl

variable (hn : fld b 6 2 ≤ 64)
include hn

/-- A record whose length, reserved bytes or actions are wrong. -/
theorem Dev.recCheck_badBody
    (h : b.length ≠ 32 + 32 * fld b 6 2 ∨ allZero (slice b 0x10 16) = false ∨ ∃ a ∈ (List.range (fld b 6 2)).map (actionOf b), a.wf = false) :
    d.recCheck b = 0x0138 := by
  have hne : fld b 6 2 ≠ 0xFFFF := by omega
  simp only [Dev.recCheck, hf, Nat.not_lt.2 hl, hm, hv, hne, Nat.not_lt.2 hn, Bool.false_eq_true, if_false, ne_eq, not_true_eq_false, or_self]
  split
  · rfl
  · next hshape =>
    refine if_pos ?_
    rcases h with h | h | ⟨a, ha, hw⟩
    · exact absurd (Or.inl h) hshape
    · exact absurd (Or.inr (by rw [h]; rfl)) hshape
    · obtain ⟨i, hi, rfl⟩ := List.mem_map.1 ha
      rw [List.all_eq_false.2 ⟨i, hi, by rw [hw]; decide⟩]
      rfl

theorem Dev.recCheck_passed (hlen : b.length = 32 + 32 * fld b 6 2) (hz : allZero (slice b 0x10 16) = true)
    (hw : ∀ a ∈ (List.range (fld b 6 2)).map (actionOf b), a.wf = true) : d.recCheck b = 0 := by
  have hne : fld b 6 2 ≠ 0xFFFF := by omega
  have hall : (List.range (fld b 6 2)).all (fun i => (actionOf b i).wf) = true :=
    List.all_eq_true.2 (fun i hi => hw _ (List.mem_map_of_mem hi))
  simp only [Dev.recCheck, hf, Nat.not_lt.2 hl, hm, hv, hne, Nat.not_lt.2 hn, hz, hall, Bool.false_eq_true, if_false, ne_eq, not_true_eq_false, or_self, Bool.not_true]
  rw [if_neg (by rintro (h | h); exact h hlen; exact h)]

end recCheck

/-! ## Actions -/

/-- The record `r` stands at the head of the queue with the action `a` to run, and no update is under way. -/
structure Dev.Acts (d : Dev) (r : RecoveryRec) (rest : List RecoveryRec) (a : Action) : Prop where
  free : d.get R.MGT_FW_STATUS_STATE ≠ 3
  head : d.lgr.queue = r :: rest
  ready : r.waiting = false
  next : r.actions[r.stats.length]? = some a

section actions
variable {d : Dev} {r : RecoveryRec} {rest : List RecoveryRec} {a : Action} (h : d.Acts r rest a)
include h

/-- A command whose action is not the next one does nothing. -/
theorem Dev.action_other {code : Nat} (body : Dev → Action → Option Status × Dev) (hc : a.code ≠ code) : d.action code body = d := by
  obtain ⟨h1, h2, h3, h4⟩ := h
  rw [Dev.action, if_neg h1, h2]
  simp only [h3, h4, hc, Bool.false_eq_true, if_false, ne_eq, not_false_eq_true, if_true]

/-- An action that ends. -/
theorem Dev.action_ends {code : Nat} {body : Dev → Action → Option Status × Dev} {st : Status} {x : Dev} (hc : a.code = code) (hb : body d a = (some st, x)) :
    d.action code body = x.actionEnd st := by
  obtain ⟨h1, h2, h3, h4⟩ := h
  rw [Dev.action, if_neg h1, h2]
  simp only [h3, h4, hc, hb, Bool.false_eq_true, if_false, ne_eq, not_true_eq_false]

/-- An action that waits for its tick. -/
theorem Dev.action_waits {code : Nat} {body : Dev → Action → Option Status × Dev} {x : Dev} (hc : a.code = code) (hb : body d a = (none, x)) :
    d.action code body = { x with lgr := { x.lgr with queue := { r with waiting := true } :: rest } } := by
  obtain ⟨h1, h2, h3, h4⟩ := h
  rw [Dev.action, if_neg h1, h2]
  simp only [h3, h4, hc, hb, Bool.false_eq_true, if_false, ne_eq, not_true_eq_false]

end actions

section bodies
variable {d : Dev} {a : Action}

/-- FENCE raises another node's fence (R484). -/
theorem Dev.actFence_other (h : a.node ≠ d.node) : d.actFence a = (some 0, d.fence a.node true a.epoch) := if_neg h

/-- FENCE of this node at a lower epoch than its own does nothing. -/
theorem Dev.actFence_stale (h : a.node = d.node) (he : a.epoch < d.get R.FAB_NODE_ID_ADMIT_EPOCH) : d.actFence a = (some 0, d) := by
  rw [Dev.actFence, if_pos h, if_neg (Nat.not_le.2 he)]

theorem Dev.actFence_self (h : a.node = d.node) (he : d.get R.FAB_NODE_ID_ADMIT_EPOCH ≤ a.epoch) : d.actFence a = (some 0, d.selfFence a.epoch) := by
  rw [Dev.actFence, if_pos h, if_pos he]

/-- ADMIT of an epoch that is too low (R480). -/
theorem Dev.actAdmit_low (h : a.epoch ≤ d.get R.LGR_LEASE_FENCE_EPOCH ∨ a.epoch < d.get R.FAB_NODE_ID_ADMIT_EPOCH) : d.actAdmit a = (some 0x0518, d) := if_pos h

/-- ADMIT sets the epoch, clears the fenced state and starts the lease (R480). -/
theorem Dev.actAdmit_admits (h : d.get R.LGR_LEASE_FENCE_EPOCH < a.epoch) (he : d.get R.FAB_NODE_ID_ADMIT_EPOCH ≤ a.epoch) :
    d.actAdmit a = (some 0, (((((d.set R.FAB_NODE_ID_ADMIT_EPOCH a.epoch).set R.LGR_LEASE_FENCE_EPOCH 0).set R.LGR_STATUS_SELF_FENCED 0).set R.LGR_STATUS_ADMITTED 1).set
      R.LGR_LEASE_ACTIVE 1).arm .lease (ms 2000)) :=
  if_neg (not_or.2 ⟨Nat.not_le.2 h, Nat.not_lt.2 he⟩)

/-- LEASE of a fenced node, or of another epoch (R481). -/
theorem Dev.actLease_refused (h : a.epoch ≠ d.get R.FAB_NODE_ID_ADMIT_EPOCH ∨ d.has R.LGR_STATUS_SELF_FENCED = true) : d.actLease a = (some 0x0502, d) := if_pos h

/-- LEASE renews the lease. -/
theorem Dev.actLease_renews (h : a.epoch = d.get R.FAB_NODE_ID_ADMIT_EPOCH) (hf : d.has R.LGR_STATUS_SELF_FENCED = false) (hl : d.has R.LGR_LEASE_ACTIVE = true) :
    d.actLease a = (some 0, d.arm .lease (ms 2000)) := by
  rw [Dev.actLease, if_neg (by rintro (h' | h'); exact h' h; rw [hf] at h'; exact absurd h' (by decide)), if_pos hl]

/-- KILL of a function that is not loaded. -/
theorem Dev.actKill_unloaded (h : d.loaded a.fn = false) : d.actKill a = (some 0x0514, d) := by
  rw [Dev.actKill, h]; rfl

theorem Dev.actKill_stopped (h : d.loaded a.fn = true) (hs : d.fnState a.fn = 1) : d.actKill a = (some 0, d) := by
  have hs' : d.fnState a.fn = stStopped := hs
  simp only [Dev.actKill, h, hs', Bool.not_true, Bool.false_eq_true, if_false, if_true]

/-- KILL of any other function waits for its tick (R485). -/
theorem Dev.actKill_waits (h : d.loaded a.fn = true) (hs : d.fnState a.fn ≠ 1) :
    d.actKill a = (none, d.modFn a.fn (fun r => { r with
      pendKill := true
      pendStop := false })) := by
  have hs' : d.fnState a.fn ≠ stStopped := hs
  simp only [Dev.actKill, Dev.killWrite, h, hs', Bool.not_true, Bool.false_eq_true, if_false]

section start
variable {x : Dev} (hx : x = (((d.set (R.SEQ_FN_FROM_USE a.fn) (a.arg0 / 2 ^ 63)).set (R.SEQ_FN_FROM_RECORD a.fn) (a.arg0 % 2 ^ 48)).setW (R.SEQ_FN_START_AT a.fn)
  a.arg1).set (R.SEQ_FN_CTRL_CMD a.fn) 1)
include hx

/-- START with a status that refuses it. -/
theorem Dev.actStart_refused {st : Status} (h : x.startCheck a.fn a.arg1 (a.arg0.testBit 63) (a.arg0 % 2 ^ 48) = st) (h0 : st ≠ 0) :
    d.actStart a = (some st, x.fnDone a.fn st) := by
  simp only [Dev.actStart, ← hx, Dev.startFn, h, h0, ne_eq, not_false_eq_true, if_true, if_false]

/-- START accepted waits for its tick. -/
theorem Dev.actStart_waits (h : x.startCheck a.fn a.arg1 (a.arg0.testBit 63) (a.arg0 % 2 ^ 48) = 0) :
    d.actStart a = (none, (x.modFn a.fn (fun r => { r with
      pendStart := some (a.arg1, (x.resumePoint a.fn (a.arg0.testBit 63) (a.arg0 % 2 ^ 48)).1)
      pendUse := a.arg0.testBit 63 })).setFnState a.fn stStarting) := by
  simp only [Dev.actStart, ← hx, Dev.startFn, h, ne_eq, not_true_eq_false, if_false, if_true]

end start

section membership
variable {same : Memb → Bool} (hs : same = fun m => m.epoch == a.epoch && m.steep == a.arg0 && m.consumers == a.arg2)
include hs

/-- MEMBERSHIP of an epoch that is staged or in force. -/
theorem Dev.actMembership_same (h : (d.fn a.fn).staged.any same = true ∨ (d.fn a.fn).memb.any same = true) : d.actMembership a = (some 0, d) := by
  subst hs
  exact if_pos (Bool.or_eq_true_iff.2 h)

/-- Any other MEMBERSHIP stages. -/
theorem Dev.actMembership_stages {st : Status} {x : Dev} (h1 : (d.fn a.fn).staged.any same = false) (h2 : (d.fn a.fn).memb.any same = false) (hc : a.arg2 < 0xFFFF)
    (hx : d.stageMemb a.fn a.epoch a.arg0 a.arg1 a.arg2 = (st, x)) : d.actMembership a = (some st, x) := by
  have hne : a.arg2 ≠ 2 ^ 64 - 1 := by omega
  subst hs
  simp only [Dev.actMembership, h1, h2, Bool.or_self, Bool.false_eq_true, if_false, hne, hc, if_true, hx]

end membership
end bodies

/-! ## The end of actions and records -/

/-- An action that has ended adds its status to its record and a trace event (R485). -/
theorem Dev.actionEnd_eq {d : Dev} {r : RecoveryRec} {rest : List RecoveryRec} {a : Action} (st : Status) (h : d.lgr.queue = r :: rest)
    (ha : r.actions[r.stats.length]? = some a) :
    d.actionEnd st = ((({ d with lgr := { d.lgr with queue := { r with
      stats := r.stats ++ [st]
      waiting := false } :: rest } } : Dev).trace 3 (if a.code < 4 then 0xFF else a.fn) 13 st r.rsn a.code).recSettle 17) := by
  rw [Dev.actionEnd, h]
  simp only [ha]

section recSettle
variable {d : Dev} {r : RecoveryRec} {rest : List RecoveryRec} (h : d.lgr.queue = r :: rest)
include h

/-- A record with an action left and no failing status stays. -/
theorem Dev.recSettle_stays (n : Nat) (hl : r.stats.length ≠ r.actions.length) (h0 : ∀ x ∈ r.stats, x = 0) : d.recSettle n = d := by
  have he : r.ended = false := by
    have hany : r.stats.any (· != 0) = false := List.any_eq_false.2 (fun x hx => by rw [h0 x hx]; decide)
    rw [RecoveryRec.ended, hany, beq_false_of_ne hl]; rfl
  cases n with
  | zero => rfl
  | succ n => rw [Dev.recSettle, h]; exact if_neg (by rw [he]; decide)

/-- A record that has ended leaves the queue and is answered (R485). -/
theorem Dev.recSettle_leaves (n : Nat) (he : r.stats.length = r.actions.length ∨ ∃ x ∈ r.stats, x ≠ 0) {l : List Status}
    (hl : l = (List.range r.actions.length).map (fun i => r.stats.getD i 0)) :
    d.recSettle (n + 1) = ((r.replyTo.foldl (fun d x => d.sendReply x (firstBad r.stats) r.rsn r.actions.length l)
      ({ d with lgr := { d.lgr with
        queue := rest
        replies := ((⟨r.rsn, firstBad r.stats, l, r.actions.length⟩ : RecoveryReply) :: d.lgr.replies).take 64 } } : Dev)).recSettle n) := by
  have hend : r.ended = true := by
    refine Bool.or_eq_true_iff.2 (he.imp beq_iff_eq.2 ?_)
    rintro ⟨x, hx, h0⟩
    exact List.any_eq_true.2 ⟨x, hx, bne_iff_ne.2 h0⟩
  rw [Dev.recSettle, h]
  simp only [hend, if_true, Dev.recEnd, h, List.drop_one, List.tail_cons, ← hl]

end recSettle

/-- Settles O53: a record by its check and its RSN, an action by its code, a record's end by its statuses. -/
theorem recoveryRecordsRun : Obligations.RecoveryRecordsRun := by
  refine ⟨?records, ?actions, ?ends⟩
  case records =>
    rintro s b to_ body rsn n acts hs hbody rfl rfl rfl
    have hrun : ∀ x, s.dev.recNet b to_ = x → Becomes (.recoveryRecord b to_) s x := fun x hx => becomes_live (f := (·.recNet b to_)) rfl hs hx
    refine ⟨fun h => hrun _ (Dev.recNet_held to_ h), fun h => ⟨fun hsig => hrun _ (Dev.recNet_unsigned to_ h hsig), fun hsig => ?signed⟩,
      Dev.recCheck_fatal body, fun hf => ⟨Dev.recCheck_malformed hf, fun hl hm hv => ⟨Dev.recCheck_reserved hf hl hm hv, Dev.recCheck_long hf hl hm hv,
      Dev.recCheck_badBody hf hl hm hv, Dev.recCheck_passed hf hl hm hv⟩⟩⟩
    case signed =>
      have htake : ∀ x, s.dev.recTake body (.net to_) = x → Becomes (.recoveryRecord b to_) s x := fun x hx =>
        hrun _ ((Dev.recNet_signed to_ h hsig).trans (hbody ▸ hx))
      exact ⟨fun hc hl hn => htake _ (Dev.recTake_refused hc hl hn), fun hc => ⟨fun r ha hr => htake _ (Dev.recTake_repeated hc ha hr),
        fun ha hr => htake _ (Dev.recTake_stale hc ha hr), fun ha hr hq => htake _ (Dev.recTake_full hc ha hr hq),
        fun ha hr hq => htake _ (Dev.recTake_accepted hc ha hr hq)⟩⟩
  case actions =>
    rintro s r rest a d wait hs hfw rfl hq hwait hnext hw
    have h : s.dev.Acts r rest a := ⟨hfw, hq, hwait, hnext⟩
    have hfence : ∀ x, s.dev.action 1 Dev.actFence = x → Becomes .recoveryFence s x := fun x hx => becomes_engine (f := (·.action 1 Dev.actFence)) rfl hs hx
    have hadmit : ∀ x, s.dev.action 2 Dev.actAdmit = x → Becomes .admitNode s x := fun x hx => becomes_engine (f := (·.action 2 Dev.actAdmit)) rfl hs hx
    have hlease : ∀ x, s.dev.action 3 Dev.actLease = x → Becomes .lease s x := fun x hx => becomes_engine (f := (·.action 3 Dev.actLease)) rfl hs hx
    have hkill : ∀ x, s.dev.action 4 Dev.actKill = x → Becomes .recoveryKill s x := fun x hx => becomes_engine (f := (·.action 4 Dev.actKill)) rfl hs hx
    have hstart : ∀ x, s.dev.action 5 Dev.actStart = x → Becomes .recoveryStart s x := fun x hx => becomes_engine (f := (·.action 5 Dev.actStart)) rfl hs hx
    have hmemb : ∀ x, s.dev.action 6 Dev.actMembership = x → Becomes .membership s x := fun x hx =>
      becomes_engine (f := (·.action 6 Dev.actMembership)) rfl hs hx
    refine ⟨?other, ?fence, ?admission, ?lease, ?kill, ?start, ?membership⟩
    case other =>
      intro c k hc hk
      simp only [List.mem_cons, Prod.mk.injEq, List.not_mem_nil, or_false] at hc
      rcases hc with ⟨rfl, rfl⟩ | ⟨rfl, rfl⟩ | ⟨rfl, rfl⟩ | ⟨rfl, rfl⟩ | ⟨rfl, rfl⟩ | ⟨rfl, rfl⟩
      · exact hfence _ (Dev.action_other h _ hk)
      · exact hadmit _ (Dev.action_other h _ hk)
      · exact hlease _ (Dev.action_other h _ hk)
      · exact hkill _ (Dev.action_other h _ hk)
      · exact hstart _ (Dev.action_other h _ hk)
      · exact hmemb _ (Dev.action_other h _ hk)
    case fence =>
      exact fun hc => ⟨fun hn => hfence _ (Dev.action_ends h hc (Dev.actFence_other hn)), fun hn he => hfence _ (Dev.action_ends h hc (Dev.actFence_stale hn he)),
        fun hn he => hfence _ (Dev.action_ends h hc (Dev.actFence_self hn he))⟩
    case admission =>
      exact fun hc => ⟨fun hl => hadmit _ (Dev.action_ends h hc (Dev.actAdmit_low hl)), fun hf he => hadmit _ (Dev.action_ends h hc (Dev.actAdmit_admits hf he))⟩
    case lease =>
      exact fun hc => ⟨fun hr => hlease _ (Dev.action_ends h hc (Dev.actLease_refused hr)), fun he hf hl =>
        hlease _ (Dev.action_ends h hc (Dev.actLease_renews he hf hl))⟩
    case kill =>
      exact fun hc => ⟨fun hl => hkill _ (Dev.action_ends h hc (Dev.actKill_unloaded hl)), fun hl hst => hkill _ (Dev.action_ends h hc (Dev.actKill_stopped hl hst)),
        fun hl hst => hkill _ ((Dev.action_waits h hc (Dev.actKill_waits hl hst)).trans (hw _).symm)⟩
    case start =>
      exact fun hc x hx => ⟨fun st hst h0 => hstart _ (Dev.action_ends h hc (Dev.actStart_refused hx hst h0)), fun hst =>
        hstart _ ((Dev.action_waits h hc (Dev.actStart_waits hx hst)).trans (hw _).symm)⟩
    case membership =>
      exact fun hc same hsame => ⟨fun hs' => hmemb _ (Dev.action_ends h hc (Dev.actMembership_same hsame hs')), fun st x h1 h2 hn hx =>
        hmemb _ (Dev.action_ends h hc (Dev.actMembership_stages hsame h1 h2 hn hx))⟩
  case ends =>
    intro d r rest a st h ha
    exact ⟨Dev.actionEnd_eq st h ha, fun n hl h0 => Dev.recSettle_stays h n hl h0, fun n he l hl => Dev.recSettle_leaves h n he hl⟩

end Sys2Proof.Machine
end

section
/-! SUPPORT. The interrupt controller: whom a pending source goes to, what a delivery leaves, and what raises the sources of
watchdogs and management ports (R490 to R497, R509). -/

namespace Sys2Proof.Machine

/-! ## The lowest CURRENT first, from the rotation pointer on -/

/-- The lowest value of `cur` in a list of targets, at most 256. -/
def lowestOf (cur : Nat → Nat) (l : List Nat) : Nat := l.foldl (fun n t => min n (cur t)) 256

/-- The first target at or after `rot`, or else the first one at all. -/
def firstFrom (rot : Nat) (l : List Nat) : Option Nat :=
  match l.find? (fun t => rot ≤ t) with
  | some t => some t
  | none => l.head?

theorem foldl_min_le_init (cur : Nat → Nat) (l : List Nat) (n : Nat) : l.foldl (fun n t => min n (cur t)) n ≤ n := by
  induction l generalizing n with
  | nil => exact le_rfl
  | cons t r ih => exact (ih _).trans (min_le_left _ _)

theorem foldl_min_le (cur : Nat → Nat) {l : List Nat} {t : Nat} (h : t ∈ l) (n : Nat) : l.foldl (fun n t => min n (cur t)) n ≤ cur t := by
  induction l generalizing n with
  | nil => exact absurd h List.not_mem_nil
  | cons u r ih =>
    rcases List.mem_cons.1 h with rfl | hr
    · exact (foldl_min_le_init cur r _).trans (min_le_right _ _)
    · exact ih hr _

theorem foldl_min_attained (cur : Nat → Nat) (l : List Nat) (n : Nat) :
    l.foldl (fun n t => min n (cur t)) n = n ∨ ∃ t ∈ l, cur t = l.foldl (fun n t => min n (cur t)) n := by
  induction l generalizing n with
  | nil => exact .inl rfl
  | cons u r ih =>
    rcases ih (min n (cur u)) with hr | ⟨t, ht, hr⟩
    · rcases min_choice n (cur u) with hm | hm
      · exact .inl (hr.trans hm)
      · exact .inr ⟨u, List.mem_cons_self, (hr.trans hm).symm⟩
    · exact .inr ⟨t, List.mem_cons_of_mem _ ht, hr⟩

theorem lowest_le (cur : Nat → Nat) {l : List Nat} {t : Nat} (h : t ∈ l) : lowestOf cur l ≤ cur t := foldl_min_le cur h 256

theorem lowest_attained {cur : Nat → Nat} {l : List Nat} {t : Nat} (h : t ∈ l) (hb : cur t < 256) : ∃ u ∈ l, cur u = lowestOf cur l := by
  rcases foldl_min_attained cur l 256 with hr | hr
  · exact absurd (lowest_le cur h) (by rw [lowestOf, hr]; omega)
  · exact hr

theorem firstFrom_eq_none {rot : Nat} {l : List Nat} : firstFrom rot l = none ↔ l = [] := by
  unfold firstFrom
  split
  next t h => exact ⟨nofun, fun hl => by rw [hl] at h; exact nomatch h⟩
  next => exact List.head?_eq_none_iff

/-- In an ascending list of targets the first from `rot` on is the nearest after `rot`, round the 16 targets. -/
theorem firstFrom_nearest {rot t : Nat} {l : List Nat} (hl : l.Pairwise (· < ·)) (hr : rot < 16) (hb : ∀ u ∈ l, u < 16) (h : firstFrom rot l = some t) :
    t ∈ l ∧ ∀ u ∈ l, (t + 16 - rot) % 16 ≤ (u + 16 - rot) % 16 := by
  unfold firstFrom at h
  split at h
  next x hx =>
    cases h
    obtain ⟨hrt, as, bs, rfl, has⟩ := List.find?_eq_some_iff_append.1 hx
    have hle : rot ≤ t := of_decide_eq_true hrt
    have htb := hb t (by simp)
    refine ⟨by simp, fun u hu => ?_⟩
    have hub := hb u hu
    rcases List.mem_append.1 hu with ha | hc
    · have hlt : u < rot := by simpa using has u ha
      omega
    · rcases List.mem_cons.1 hc with rfl | hc
      · exact le_rfl
      · have hlt : t < u := (List.pairwise_cons.1 (List.pairwise_append.1 hl).2.1).1 u hc
        omega
  next hx =>
    have hlow : ∀ u ∈ l, u < rot := fun u hu => by simpa using List.find?_eq_none.1 hx u hu
    cases l with
    | nil => exact nomatch h
    | cons v r =>
      cases h
      refine ⟨List.mem_cons_self, fun u hu => ?_⟩
      have hv := hlow t List.mem_cons_self
      have hu' := hlow u hu
      rcases List.mem_cons.1 hu with rfl | hc
      · exact le_rfl
      · have hlt : t < u := (List.pairwise_cons.1 hl).1 u hc
        omega

/-! ## The target of a source (R494) -/

/-- The targets that may receive source `x`. -/
def Dev.targetsOf (d : Dev) (x : Nat) (used : List Nat) : List Nat :=
  (List.range 16).filter (fun t => (d.get (R.INT_SRC_CTRL_TARGETS x)).testBit t && d.has (R.INT_TGT_CTRL_ENABLE t)
    && d.current t < d.srcPrio x && !used.contains t)

theorem Dev.pickTarget_eq (d : Dev) (x : Nat) (used : List Nat) :
    d.pickTarget x used = firstFrom d.irq.rot ((d.targetsOf x used).filter (fun t => d.current t = lowestOf d.current (d.targetsOf x used))) := rfl

theorem Dev.mem_eligible {d : Dev} {x t : Nat} {used : List Nat} : t ∈ d.targetsOf x used ↔
    t < 16 ∧ (d.get (R.INT_SRC_CTRL_TARGETS x)).testBit t = true ∧ d.has (R.INT_TGT_CTRL_ENABLE t) = true ∧ d.current t < d.srcPrio x ∧ t ∉ used := by
  simp [Dev.targetsOf, and_assoc]

theorem Dev.eligible_ascending (d : Dev) (x : Nat) (used : List Nat) : (d.targetsOf x used).Pairwise (· < ·) := List.pairwise_lt_range.filter _

theorem Dev.srcPrio_lt (d : Dev) (x : Nat) : d.srcPrio x < 256 := Nat.mod_lt _ (Nat.two_pow_pos 8)

theorem Dev.current_lt_of_eligible {d : Dev} {x t : Nat} {used : List Nat} (h : t ∈ d.targetsOf x used) : d.current t < 256 := by
  obtain ⟨-, -, -, hc, -⟩ := Dev.mem_eligible.1 h
  exact hc.trans (d.srcPrio_lt x)

/-- A source has no target exactly where none is eligible. -/
theorem Dev.pickTarget_eq_none {d : Dev} {x : Nat} {used : List Nat} : d.pickTarget x used = none ↔ ∀ t, t ∉ d.targetsOf x used := by
  rw [Dev.pickTarget_eq, firstFrom_eq_none]
  constructor
  · intro h t ht
    obtain ⟨u, hu, hc⟩ := lowest_attained ht (Dev.current_lt_of_eligible ht)
    exact List.not_mem_nil (h ▸ List.mem_filter.2 ⟨hu, decide_eq_true hc⟩)
  · intro h
    rw [List.eq_nil_iff_forall_not_mem.2 h]; rfl

/-- The target of a source is eligible, of the lowest CURRENT, and among those the nearest after the rotation pointer. -/
theorem Dev.pickTarget_spec {d : Dev} {x t : Nat} {used : List Nat} (hr : d.irq.rot < 16) (h : d.pickTarget x used = some t) :
    t ∈ d.targetsOf x used ∧ ∀ u ∈ d.targetsOf x used, d.current t ≤ d.current u ∧
      (d.current u = d.current t → (t + 16 - d.irq.rot) % 16 ≤ (u + 16 - d.irq.rot) % 16) := by
  rw [Dev.pickTarget_eq] at h
  obtain ⟨ht, hn⟩ := firstFrom_nearest ((d.eligible_ascending x used).filter _) hr
    (fun u hu => (Dev.mem_eligible.1 (List.mem_filter.1 hu).1).1) h
  obtain ⟨hte, htl⟩ := List.mem_filter.1 ht
  have hlow : d.current t = lowestOf d.current (d.targetsOf x used) := of_decide_eq_true htl
  refine ⟨hte, fun u hu => ⟨hlow ▸ lowest_le _ hu, fun hc => hn u (List.mem_filter.2 ⟨hu, decide_eq_true (hc.trans hlow)⟩)⟩⟩

/-! ## One management cycle -/

theorem Dev.takeOrder_nil {d : Dev} (h : d.irq.pend = []) : d.takeOrder = [] := by
  simp [Dev.takeOrder, h]

/-- The one entry of a range that satisfies an equation. -/
theorem flatMap_range_single (x k n : Nat) :
    (List.range n).flatMap (fun i => if i = k then [x] else []) = if k < n then [x] else [] := by
  induction n with
  | zero => rfl
  | succ n ih =>
    rw [List.range_succ, List.flatMap_append, ih]
    rcases Nat.lt_trichotomy k n with h | h | h
    · simp [h, Nat.lt_succ_of_lt h, h.ne']
    · simp [h]
    · simp [h.not_gt, show ¬ k < n + 1 by omega, h.ne]

/-- A single pending source of positive priority is the one that is taken. -/
theorem Dev.takeOrder_single {d : Dev} {x : Nat} (h : d.irq.pend = [x]) (hp : 0 < d.srcPrio x) : d.takeOrder = [x] := by
  have hb := d.srcPrio_lt x
  have hf : ∀ i ∈ List.range 255, d.irq.pend.filter (fun s => d.srcPrio s = 255 - i) = if i = 255 - d.srcPrio x then [x] else [] := by
    intro i hi
    have hi' := List.mem_range.1 hi
    have hiff : d.srcPrio x = 255 - i ↔ i = 255 - d.srcPrio x := by omega
    simp only [h, List.filter_singleton, hiff, Bool.cond_decide]
  rw [Dev.takeOrder, List.flatMap_congr hf, flatMap_range_single, if_pos (by omega)]

theorem Dev.deliver_nil {d : Dev} (h : d.irq.pend = []) : d.deliver = d := by
  rw [Dev.deliver, Dev.takeOrder_nil h]; rfl

section single
variable {d : Dev} {x : Nat} (h : d.irq.pend = [x]) (hp : 0 < d.srcPrio x) (hs : d.irq.inService x = false)
include h hp hs

/-- A source without a target stays pending. -/
theorem Dev.deliver_held (ht : d.pickTarget x [] = none) : d.deliver = d := by
  rw [Dev.deliver, Dev.takeOrder_single h hp]
  simp only [List.foldl_cons, List.foldl_nil, hs, Bool.false_eq_true, if_false, ht]

/-- A delivery puts the source in service and moves the pointer behind its target. -/
theorem Dev.deliver_taken {t : Nat} (ht : d.pickTarget x [] = some t) : d.deliver = { d with irq := { d.irq with
    pend := []
    count := Map.erase d.irq.count x
    service := d.irq.service ++ [(x, t)]
    rot := (t + 1) % 16 } } := by
  rw [Dev.deliver, Dev.takeOrder_single h hp]
  simp only [List.foldl_cons, List.foldl_nil, hs, Bool.false_eq_true, if_false, ht]
  simp [h]

end single

/-- With nothing host-pending, nothing is sent to the host. -/
theorem Dev.sendHostInts_nil {d : Dev} (h : d.irq.hostPend = []) : d.sendHostInts = d := by
  rw [Dev.sendHostInts, h]; exact ite_self d

/-- Without a path to the host nothing is sent. -/
theorem Dev.sendHostInts_down {d : Dev} (h : d.hostPathUp = false) : d.sendHostInts = d := by
  rw [Dev.sendHostInts, h]; rfl

/-- The one host-pending source is sent over the host link that is UP. -/
theorem Dev.sendHostInts_single {d e : Dev} {x : Nat} (hu : d.mgt.hostUp = true) (h : d.irq.hostPend = [x]) (hs : x ∉ d.irq.hostService)
    (he : e = { d with irq := { d.irq with hostPend := [], hostService := insNat x d.irq.hostService } }) :
    d.sendHostInts = e.emit (.host (e.hostIntTxn x)) := by
  have hf : [x].filter (fun s => !d.irq.hostService.contains s) = [x] := by simp [hs]
  have hx : d.irq.hostPend.filter (· != x) = [] := by simp [h]
  have hp : d.hostPathUp = true := by simp [Dev.hostPathUp, hu]
  have hup : e.mgt.hostUp = true := by rw [he]; exact hu
  rw [Dev.sendHostInts, hp, h, hf]
  simp only [Bool.not_true, Bool.false_eq_true, if_false, List.foldl_cons, List.foldl_nil, hx, ← he]
  rw [Dev.toHost, hup, he]; rfl

/-! ## A write to PEND, watchdogs and management ports -/

section setPending
variable {d : Dev} {x : Nat}

theorem Dev.setPending_held (hp : x ∈ d.irq.pend) (hh : d.has (R.INT_SRC_CTRL_HOST x) = false) : d.setPending x = d := by
  simp [Dev.setPending, Dev.pendSource, hh, hp]

variable (hp : x ∉ d.irq.pend)
include hp

theorem Dev.setPending_target (hh : d.has (R.INT_SRC_CTRL_HOST x) = false) :
    d.setPending x = ({ d with irq := { d.irq with pend := insNat x d.irq.pend } } : Dev).trace 1 0xFF (sourceBlock x) 0 x 0 := by
  simp [Dev.setPending, Dev.pendSource, hh, hp]

theorem Dev.setPending_host (hh : d.has (R.INT_SRC_CTRL_HOST x) = true) (hq : x ∉ d.irq.hostPend) :
    d.setPending x = ({ d with irq := { d.irq with
      pend := insNat x d.irq.pend
      hostPend := d.irq.hostPend ++ [x] } } : Dev).trace 1 0xFF (sourceBlock x) 0 x 0 := by
  simp [Dev.setPending, Dev.pendSource, hh, hp, hq]

end setPending

theorem ms_1000 : ms 1000 = 8000000000 := rfl

section watchdog
variable {d : Dev} {c : Nat}

theorem Dev.watchdog_suspended (h : d.get R.MGT_FW_STATUS_STATE = 3) : d.watchdog c = d := if_pos h

variable (h : d.get R.MGT_FW_STATUS_STATE ≠ 3)
include h

/-- An expiry is counted and raised, and starts the second in which another one of the core is fatal. -/
theorem Dev.watchdog_first (ha : d.armed (.watchdogAgain c) = false ∨ d.expired (.watchdogAgain c) = true) :
    d.watchdog c = ((d.inc R.MGT_STATUS_WDT_EXPIRED).raise 16 c).arm (.watchdogAgain c) 8000000000 := by
  have hn : (d.armed (.watchdogAgain c) && !d.expired (.watchdogAgain c)) = false := by
    rcases ha with ha | ha <;> simp [ha]
  rw [Dev.watchdog, if_neg h, ms_1000]
  simp only [hn, Bool.false_eq_true, if_false]

theorem Dev.watchdog_again (ha : d.armed (.watchdogAgain c) = true) (he : d.expired (.watchdogAgain c) = false) :
    d.watchdog c = (((d.inc R.MGT_STATUS_WDT_EXPIRED).raise 16 c).arm (.watchdogAgain c) 8000000000).goFatal 0x0F05 := by
  rw [Dev.watchdog, if_neg h, ms_1000]
  simp only [ha, he, Bool.not_false, Bool.and_self, if_true]
  rfl

end watchdog

theorem Dev.netLink_same {d : Dev} {p : Nat} {up : Bool} (h : d.mgt.netUp.contains p = up) : d.netLink p up = d := by
  rw [Dev.netLink, if_pos (beq_iff_eq.2 h)]

theorem Dev.netLink_rises {d : Dev} {p : Nat} (h : p ∉ d.mgt.netUp) :
    d.netLink p true = ({ d with mgt := { d.mgt with netUp := insNat p d.mgt.netUp } } : Dev).raise 19 p := by
  simp [Dev.netLink, h]

theorem Dev.netLink_falls {d : Dev} {p : Nat} (h : p ∈ d.mgt.netUp) :
    d.netLink p false = ({ d with mgt := { d.mgt with netUp := d.mgt.netUp.filter (· != p) } } : Dev).raise 19 p := by
  simp [Dev.netLink, h]

/-! ## The statement -/

/-- Settles O54: the target of a source is the nearest eligible one of the lowest CURRENT; one cycle delivers to it; the writes and the
watchdogs act by the rules above. -/
theorem interruptsAndWatchdogs : Obligations.InterruptsAndWatchdogs := by
  refine ⟨?delivery, ?writes, ?raised⟩
  case delivery =>
    rintro s d hs rfl
    have hrun : ∀ x, s.dev.deliver.sendHostInts = x → Becomes .interruptDelivery s x := fun x hx =>
      becomes_live (f := fun d => d.deliver.sendHostInts) rfl hs hx
    refine ⟨?target, ?pending, ?nothing, ?host⟩
    case target =>
      intro x used el hr hel
      have hmem : ∀ t, el t ↔ t ∈ s.dev.targetsOf x used := fun t => (hel t).trans Dev.mem_eligible.symm
      refine ⟨?_, fun t ht => ?_⟩
      · simp only [hmem]; exact Dev.pickTarget_eq_none
      · simp only [hmem]; exact Dev.pickTarget_spec hr ht
    case pending =>
      intro x hp h0 hsv hh
      refine ⟨fun ht => hrun _ ?_, fun t ht => hrun _ ?_⟩
      · rw [Dev.deliver_held hp h0 hsv ht, Dev.sendHostInts_nil hh]
      · rw [Dev.deliver_taken hp h0 hsv ht]; exact Dev.sendHostInts_nil hh
    case nothing =>
      intro hp hu hr
      exact hrun _ (by rw [Dev.deliver_nil hp, Dev.sendHostInts_down (by simp [Dev.hostPathUp, hu, hr])])
    case host =>
      intro x hp hu hh hns e he
      exact hrun _ (by rw [Dev.deliver_nil hp, Dev.sendHostInts_single hu hh hns he])
  case writes =>
    intro s t x hs
    have hpend : ∀ y, s.dev.setPending x.toNat = y → Becomes (.intPendWrite x) s (y.reply 0) := fun y hy =>
      becomes_live (f := fun d => (d.setPending x.toNat).reply St.ok) rfl hs (congrArg (fun d : Dev => d.reply St.ok) hy)
    exact ⟨becomes_live (f := fun d => (d.eoi t.val x.toNat).reply St.ok) rfl hs rfl,
      fun hp hh => hpend _ (Dev.setPending_target hp hh),
      fun hp hh hq => hpend _ (Dev.setPending_host hp hh hq),
      fun hp hh => hpend _ (Dev.setPending_held hp hh),
      becomes_live (f := fun d => (d.hostEoi x.toNat).reply St.ok) rfl hs rfl⟩
  case raised =>
    intro s c p hs
    have hdog : ∀ y, s.dev.watchdog c.val = y → Becomes (.watchdogExpiry c) s y := fun y hy =>
      becomes_live (f := (·.watchdog c.val)) rfl hs hy
    have hnet : ∀ up y, s.dev.netLink p.val up = y → Becomes (.mgtNetLink p up) s y := fun up y hy =>
      becomes_live (f := (·.netLink p.val up)) rfl hs hy
    refine ⟨fun h => hdog _ (Dev.watchdog_suspended h), ?expiry, fun h => ?isUp, fun h => ?isDown⟩
    case expiry =>
      rintro h d rfl
      exact ⟨fun ha => hdog _ (Dev.watchdog_first h ha), fun ha he => hdog _ (Dev.watchdog_again h ha he)⟩
    case isUp => exact ⟨hnet true _ (Dev.netLink_same (by simpa using h)), hnet false _ (Dev.netLink_falls h)⟩
    case isDown => exact ⟨hnet false _ (Dev.netLink_same (by simpa using h)), hnet true _ (Dev.netLink_rises h)⟩

end Sys2Proof.Machine
end

section
/-! SUPPORT. The part's protection: sensors and trips, throttling and droops, the SMBus target, and the loss of a SerDes reference clock
(R530 to R536, R550). -/

namespace Sys2Proof.Machine

/-! ## What leaves the ports as they are -/

/-- Every port keeps its width and its state. -/
structure Dev.SamePorts (d e : Dev) : Prop where
  width : ∀ p < 256, (e.link p).width = (d.link p).width
  pstate : ∀ p < 256, e.pstate p = d.pstate p

theorem Dev.samePorts_of_eq {d e : Dev} (hr : e.regs = d.regs) (hf : e.fab = d.fab) : d.SamePorts e :=
  ⟨fun p _ => by rw [Dev.link, Dev.link, hf], fun p _ => Dev.get_congr hr (R.FAB_PORT_STATE_STATE p)⟩

theorem Dev.samePorts_refl (d : Dev) : d.SamePorts d := Dev.samePorts_of_eq rfl rfl

theorem Dev.SamePorts.trans {d e f : Dev} (h : d.SamePorts e) (g : e.SamePorts f) : d.SamePorts f :=
  ⟨fun p hp => (g.width p hp).trans (h.width p hp), fun p hp => (g.pstate p hp).trans (h.pstate p hp)⟩

theorem Dev.samePorts_ite {c : Prop} [Decidable c] {d x y : Dev} (hx : d.SamePorts x) (hy : d.SamePorts y) : d.SamePorts (if c then x else y) := by
  split
  · exact hx
  · exact hy

theorem Dev.samePorts_foldl {α : Type} {g : Dev → α → Dev} (h : ∀ (d : Dev) x, d.SamePorts (g d x)) (l : List α) (d : Dev) : d.SamePorts (l.foldl g d) := by
  induction l generalizing d with
  | nil => exact d.samePorts_refl
  | cons x l ih => exact (h d x).trans (ih _)

/-- A write outside the ports' state registers. -/
theorem Dev.samePorts_setWord (d : Dev) {off : Nat} (w : Word) (h : ∀ p < 256, R.FAB_PORT_STATE p ≠ off) : d.SamePorts (d.setWord off w) :=
  ⟨fun _ _ => rfl, fun p hp => Dev.get_setWord_other d w (R.FAB_PORT_STATE_STATE p) (h p hp)⟩

theorem Dev.samePorts_set (d : Dev) {r : FRef} (v : Nat) (h : ∀ p < 256, R.FAB_PORT_STATE p ≠ r.off) : d.SamePorts (d.set r v) :=
  ⟨fun _ _ => rfl, fun p hp => Dev.get_set_off d r (R.FAB_PORT_STATE_STATE p) v (h p hp)⟩

theorem Dev.link_setLink_same (d : Dev) (p : Nat) (l : Link) : (d.setLink p l).link p = l := Map.get_put_same _ _ _

theorem Dev.link_setLink_other (d : Dev) {p q : Nat} (l : Link) (h : q ≠ p) : (d.setLink p l).link q = d.link q := Map.get_put_other _ h

theorem Dev.samePorts_setLink (d : Dev) {p : Nat} {l : Link} (h : l.width = (d.link p).width) : d.SamePorts (d.setLink p l) := by
  refine ⟨fun q _ => ?_, fun q _ => rfl⟩
  by_cases hq : q = p
  · rw [hq, Dev.link_setLink_same, h]
  · rw [Dev.link_setLink_other d l hq]

theorem Dev.samePorts_retire (d : Dev) (k n : Nat) : d.SamePorts (d.retire k n) :=
  Dev.samePorts_ite d.samePorts_refl (d.samePorts_setWord _ (fun p hp => by unfold R.FAB_PORT_STATE R.LGR_POOL_RETIRED; omega))

theorem Dev.samePorts_retireAt (d : Dev) (kind p n : Nat) : d.SamePorts (d.retireAt kind p n) := by
  refine Dev.SamePorts.trans ?_ (Dev.samePorts_retire _ _ _)
  exact Dev.samePorts_of_eq rfl rfl

theorem Dev.samePorts_arm (d : Dev) (t : Timer) (n : Nat) : d.SamePorts (d.arm t n) := Dev.samePorts_of_eq rfl rfl

theorem Dev.samePorts_disarm (d : Dev) (t : Timer) : d.SamePorts (d.disarm t) := Dev.samePorts_of_eq rfl rfl

theorem Dev.samePorts_freeUnits (d : Dev) (p v n : Nat) : d.SamePorts (d.freeUnits p v n) := by
  refine Dev.SamePorts.trans ?_ (Dev.samePorts_retireAt _ _ _ _)
  exact Dev.samePorts_setLink d rfl

theorem Dev.samePorts_freePkt (d : Dev) (k : Pkt) : d.SamePorts (d.freePkt k) := by
  have hr := d.samePorts_retire (poolNo 0x14 0) 1
  rw [Dev.freePkt]
  cases k.inPort with
  | none => exact hr
  | some p => exact hr.trans (Dev.samePorts_freeUnits _ _ _ _)

theorem Dev.samePorts_flushPort (d : Dev) (p : Nat) : d.SamePorts (d.flushPort p) := by
  refine Dev.SamePorts.trans ?_ (Dev.samePorts_disarm _ _)
  refine Dev.SamePorts.trans ?_ (Dev.samePorts_retireAt _ _ _ _)
  refine Dev.SamePorts.trans ?_ (Dev.samePorts_foldl Dev.samePorts_freePkt _ _)
  exact Dev.samePorts_setLink d rfl

theorem Dev.samePorts_holdover (d : Dev) : d.SamePorts d.holdover := by
  by_cases h : d.get R.TIM_STATUS_STATE = 0 ∨ d.get R.TIM_STATUS_STATE = 3
  · rw [Dev.holdover_stays h]; exact d.samePorts_refl
  · obtain ⟨h0, h3⟩ := not_or.1 h
    rw [Dev.holdover_enters h0 h3 rfl]
    refine Dev.SamePorts.trans ?_ (Dev.samePorts_arm _ _ _)
    refine Dev.SamePorts.trans (d.samePorts_set (r := R.TIM_STATUS_STATE) 3 (fun p hp => ?_)) (Dev.samePorts_of_eq rfl rfl)
    unfold R.FAB_PORT_STATE R.TIM_STATUS_STATE R.TIM_STATUS; dsimp only; omega

theorem Dev.samePorts_leaveUp (d : Dev) (p : Nat) : d.SamePorts (d.leaveUp p) := by
  have hquiet : d.SamePorts ((((d.disarm (.linkRx p)).disarm (.heartbeat p)).disarm (.heartbeatSend p)).disarm (.exchange p)) :=
    Dev.samePorts_of_eq rfl rfl
  have hheld := Dev.samePorts_ite (c := (((((d.disarm (.linkRx p)).disarm (.heartbeat p)).disarm (.heartbeatSend p)).disarm (.exchange p)).upstream p) = true)
    (hquiet.trans (Dev.samePorts_holdover _)) hquiet
  rw [Dev.leaveUp]
  refine Dev.samePorts_ite d.samePorts_refl (Dev.samePorts_ite ?_ hheld)
  refine Dev.SamePorts.trans (Dev.SamePorts.trans hheld ?_) (Dev.samePorts_set _ 0 (fun q hq => ?_))
  · exact Dev.samePorts_of_eq rfl rfl
  · unfold R.FAB_PORT_STATE R.MGT_HOST_LINK R.MGT_HOST; dsimp only; omega

theorem Dev.sameBut_raise (d : Dev) (s n : Nat) : d.sameBut (d.raise s n) := by
  have hc := d.sameBut_countSource s n
  unfold Dev.raise
  dsimp only
  split
  · exact hc
  · split
    · exact Dev.sameBut_trans hc (Dev.sameBut_pendSource _ _ _ _)
    · exact Dev.sameBut_trans hc (Dev.sameBut_pendSource _ _ _ _)

theorem Dev.samePorts_raise (d : Dev) (s n : Nat) : d.SamePorts (d.raise s n) := by
  rw [d.sameBut_raise s n]; exact Dev.samePorts_of_eq rfl rfl

/-! ## A port that enters DOWN (R359) -/

/-- What a port drops before it shows DOWN. -/
def Dev.dropPort (d : Dev) (p : Nat) : Dev :=
  let e := d.leaveUp p
  let f := (e.flushPort p).add (R.FAB_PORT_DISC_DOWN p) ((e.link p).allPkts.length + (e.link p).replay.length)
  f.setLink p { f.link p with attempt := false }

theorem Dev.enterDown_eq (d : Dev) (p : Nat) :
    d.enterDown p = ((((d.dropPort p).setPstate p 5).disarm (.retrain p)).arm (.down p) (ms 100)).raise 513 p := rfl

theorem Dev.samePorts_dropPort (d : Dev) (p : Nat) : d.SamePorts (d.dropPort p) := by
  refine Dev.SamePorts.trans ?_ (Dev.samePorts_setLink _ rfl)
  refine Dev.SamePorts.trans ?_ (Dev.samePorts_set _ _ (fun q hq => ?_))
  · exact (d.samePorts_leaveUp p).trans (Dev.samePorts_flushPort _ p)
  · unfold R.FAB_PORT_STATE R.FAB_PORT_DISC_DOWN R.FAB_PORT_DISC; dsimp only; omega

/-- DOWN is shown, and the port's timers and source follow. -/
theorem Dev.samePorts_enterDown (d : Dev) (p : Nat) : ((d.dropPort p).setPstate p 5).SamePorts (d.enterDown p) := by
  rw [Dev.enterDown_eq]
  exact ((Dev.samePorts_disarm _ _).trans (Dev.samePorts_arm _ _ _)).trans (Dev.samePorts_raise _ _ _)

theorem Dev.link_setPstate (d : Dev) (p v q : Nat) : (d.setPstate p v).link q = d.link q := rfl

theorem Dev.width_enterDown (d : Dev) (p : Nat) {q : Nat} (hq : q < 256) : ((d.enterDown p).link q).width = (d.link q).width := by
  rw [(d.samePorts_enterDown p).width q hq, Dev.link_setPstate, (d.samePorts_dropPort p).width q hq]

theorem Dev.isPort_enterDown (d : Dev) (p q : Nat) : (d.enterDown p).isPort q = d.isPort q := by
  unfold Dev.isPort
  by_cases hq : q < 256
  · rw [d.width_enterDown p hq]
  · simp [hq]

theorem Dev.pstate_enterDown_same (d : Dev) {p : Nat} (hp : p < 256) : (d.enterDown p).pstate p = 5 :=
  ((d.samePorts_enterDown p).pstate p hp).trans (Dev.get_set_same _ (R.FAB_PORT_STATE_STATE p) 5 (Nat.zero_le 2) (by decide : 2 < 64))

theorem Dev.pstate_enterDown_other (d : Dev) {p q : Nat} (hq : q < 256) (h : q ≠ p) : (d.enterDown p).pstate q = d.pstate q := by
  rw [(d.samePorts_enterDown p).pstate q hq, ← (d.samePorts_dropPort p).pstate q hq]
  exact Dev.get_set_off _ _ _ _ (by simp only [R.FAB_PORT_STATE_STATE, R.FAB_PORT_STATE]; omega)

/-! ## The loss of a SerDes reference clock (R532) -/

/-- The port is DISABLED or DOWN. -/
def Dev.portIdle (d : Dev) (p : Nat) : Prop := d.pstate p = 0 ∨ d.pstate p = 5

/-- An enabled port goes to DOWN. -/
def Dev.portLost (d : Dev) (p : Nat) : Dev := if d.isPort p = true ∧ d.pstate p ≠ 0 ∧ d.pstate p ≠ 5 then d.enterDown p else d

theorem Dev.isPort_lt {d : Dev} {p : Nat} (h : d.isPort p = true) : p < 256 := by
  obtain ⟨hp, -⟩ := (Bool.and_eq_true_iff).1 h
  exact of_decide_eq_true hp

theorem Dev.isPort_portLost (d : Dev) (p q : Nat) : (d.portLost p).isPort q = d.isPort q := by
  unfold Dev.portLost
  split
  · exact d.isPort_enterDown p q
  · rfl

theorem Dev.portIdle_portLost_same {d : Dev} {p : Nat} (h : d.isPort p = true) : (d.portLost p).portIdle p := by
  unfold Dev.portLost Dev.portIdle
  split
  · exact .inr (d.pstate_enterDown_same (Dev.isPort_lt h))
  next hn => by_contra hc; exact hn ⟨h, not_or.1 hc⟩

theorem Dev.portIdle_portLost {d : Dev} {p q : Nat} (hq : q < 256) (h : d.portIdle q) : (d.portLost p).portIdle q := by
  by_cases hpq : q = p
  · subst hpq
    unfold Dev.portLost
    rwa [if_neg (fun ⟨_, h0, h5⟩ => h.elim h0 h5)]
  · unfold Dev.portLost
    split
    · unfold Dev.portIdle; rwa [d.pstate_enterDown_other hq hpq]
    · exact h

/-- After all ports of a list are lost, those that are ports are DISABLED or DOWN. -/
theorem Dev.portIdle_foldl {l : List Nat} {d : Dev} {q : Nat} (hq : d.isPort q = true) (h : q ∈ l ∨ d.portIdle q) : (l.foldl Dev.portLost d).portIdle q := by
  induction l generalizing d with
  | nil => exact h.resolve_left List.not_mem_nil
  | cons p r ih =>
    refine ih ((d.isPort_portLost p q).trans hq) ?_
    rcases h with h | h
    · rcases List.mem_cons.1 h with rfl | hr
      · exact .inr (Dev.portIdle_portLost_same hq)
      · exact .inl hr
    · exact .inr (Dev.portIdle_portLost (Dev.isPort_lt hq) h)

theorem Dev.refclkLoss_eq (d : Dev) (g : Nat) : d.refclkLoss g =
    if g = 0 then (((List.range 32).map (fun i => 32 * g + i)).foldl Dev.portLost d).linkDown
    else ((List.range 32).map (fun i => 32 * g + i)).foldl Dev.portLost d := by
  have hf : ∀ (d : Dev) (i : Nat), (if d.isPort (32 * g + i) && d.pstate (32 * g + i) != 0 && d.pstate (32 * g + i) != 5 then
      d.enterDown (32 * g + i) else d) = d.portLost (32 * g + i) := fun d i => by
    simp only [Dev.portLost, Bool.and_eq_true, bne_iff_ne, and_assoc]
  rw [Dev.refclkLoss, List.foldl_map]
  simp only [hf]

/-! ## Trips and samples -/

theorem Dev.trip_rail (d : Dev) : d.trip false = { d.set R.GLB_RESET_CAUSE_PREV 0x11 with pwr := { d.pwr with
    phase := .tripped
    faultN := false } } := by
  simp [Dev.trip]

theorem Dev.trip_thermal (d : Dev) : d.trip true = { d.set R.GLB_RESET_CAUSE_PREV 0x10 with pwr := { d.pwr with
    phase := .tripped
    thermtripN := false } } := by
  simp [Dev.trip]

/-- What a sample of the sensors shows, before a trip. -/
theorem Dev.thermal_cons {s d e : Dev} {x : BitVec 16} {r : List (BitVec 16)} {tj : Int} (ht : tj = r.foldl (fun m s => max m s.toInt) x.toInt)
    (hd : d = (s.set R.GLB_THERMAL_TJ (wrap 16 tj)).set R.GLB_THERMAL_TJ_PEAK (wrap 16 (max tj (sext 16 (s.get R.GLB_THERMAL_TJ_PEAK)))))
    (he : e = { d with
      pwr := { d.pwr with cool := if tj < 1648 then d.pwr.cool + 1 else 0 }
      med := { d.med with tj := some (match d.med.tj with
        | some h => (max h.1 (tj / 16), min h.2 (tj / 16))
        | none => (tj / 16, tj / 16)) } }) :
    s.thermal (x :: r) = if 1840 ≤ tj then e.trip true else e := by
  subst he hd ht; rfl

/-! ## Throttling -/

section throttle
variable {s d : Dev} {amps level cap lim : Nat} {tj : Int}

theorem Dev.throttle_eq (ht : tj = sext 16 (s.get R.GLB_THERMAL_TJ)) (hl : level = s.get R.GLB_THERMAL_LEVEL)
    (hc : cap = min 16 (max 4 (s.get R.GLB_LIMITS_LEVEL_CAP))) (hm : lim = min 1150 (s.get R.GLB_LIMITS_CORE_ILIMIT))
    (hd : d = { s with pwr := { s.pwr with calm := if 100 * amps < 95 * lim then s.pwr.calm + 1 else 0 } }) :
    s.throttle amps = if 1680 ≤ tj ∨ lim ≤ amps ∨ cap < level then d.set R.GLB_THERMAL_LEVEL (max 4 (level - 1))
      else if 100 ≤ d.pwr.cool ∧ 10 ≤ d.pwr.calm then d.set R.GLB_THERMAL_LEVEL (min cap (level + 1)) else d := by
  subst ht hl hc hm hd; rfl

end throttle

/-! ## Droops -/

/-- What a sensed die voltage leaves. -/
def Dev.sensed (d : Dev) (mv : Nat) : Dev :=
  let v := d.set R.GLB_AVS_SENSED_MV mv
  if mv + 50 ≤ v.get R.GLB_AVS_TARGET_MV then { v with pwr := { v.pwr with droop := true } } else v

theorem exec_voltageDroop (mv : BitVec 16) (s : State) : exec (.voltageDroop mv) s = s.act .live (fun d => d.sensed mv.toNat) := rfl

section sensed
variable {d v : Dev} {mv : Nat} (hv : v = d.set R.GLB_AVS_SENSED_MV mv)
include hv

theorem Dev.sensed_low (h : mv + 50 ≤ v.get R.GLB_AVS_TARGET_MV) : d.sensed mv = { v with pwr := { v.pwr with droop := true } } := by
  rw [Dev.sensed, ← hv]; exact if_pos h

theorem Dev.sensed_good (h : v.get R.GLB_AVS_TARGET_MV < mv + 50) : d.sensed mv = v := by
  rw [Dev.sensed, ← hv]; exact if_neg (not_le.2 h)

end sensed

/-! ## The SMBus target -/

theorem smbusReg_none {c : Nat} (h : 6 ≤ c) : smbusReg c = none :=
  match c, h with
  | _ + 6, _ => rfl

theorem Dev.smbusRead_some {d : Dev} {c r : Nat} (h : smbusReg c = some r) : d.smbusRead c = d.emit (.smbus (le 8 (d.word r).toNat)) := by
  rw [Dev.smbusRead, h]

theorem Dev.smbusRead_none {d : Dev} {c : Nat} (h : smbusReg c = none) : d.smbusRead c = d.emit .smbusNack := by
  rw [Dev.smbusRead, h]

theorem Dev.alertN_low {d : Dev} : d.alertN = false ↔ d.fatal = true ∨ d.get R.GLB_THERMAL_LEVEL < 16 := by
  rw [Dev.alertN, Bool.not_eq_false', Bool.or_eq_true, decide_eq_true_iff]

/-! ## The statement -/

/-- Settles O60: samples, trips, the throttle level, droops and the SMBus reads case by case, and, port by port, the loss of a reference clock. -/
theorem thePartProtectsItself : Obligations.ThePartProtectsItself := by
  refine ⟨?sample, ?limits, ?refclk⟩
  case sample =>
    intro s x r
    have hth : ∀ l y, (if s.dev.pwr.phase = .tripped then s.dev else s.dev.thermal l) = y → Becomes (.thermalSample l) s y := fun l y hy =>
      becomes_always (f := fun d => if d.pwr.phase = .tripped then d else d.thermal l) rfl hy
    have hrf : ∀ y, (if s.dev.pwr.phase = .tripped then s.dev else s.dev.trip false) = y → Becomes .railFault s y := fun y hy =>
      becomes_always (f := fun d => if d.pwr.phase = .tripped then d else d.trip false) rfl hy
    refine ⟨fun h => ⟨hth _ _ (if_pos h), hrf _ (if_pos h)⟩, fun h => ⟨hrf _ ((if_neg h).trans s.dev.trip_rail), hth _ _ (if_neg h), ?_⟩⟩
    intro tj d e ht hd he
    have hx : (if s.dev.pwr.phase = .tripped then s.dev else s.dev.thermal (x :: r)) = if 1840 ≤ tj then e.trip true else e :=
      (if_neg h).trans (Dev.thermal_cons ht hd he)
    exact ⟨fun hc => hth _ _ (hx.trans (if_neg (not_le.2 hc))), fun hc => hth _ _ (hx.trans ((if_pos hc).trans e.trip_thermal))⟩
  case limits =>
    intro s amps mv c tj level cap lim d ht hl hc hm hd
    refine ⟨fun hs => ⟨?falls, ?rises, ?droop⟩, ?smbus, fun hr hn => ?silent, by rw [hl]; exact Dev.alertN_low⟩
    case falls =>
      intro h
      exact becomes_live (f := (·.throttle amps)) rfl hs ((Dev.throttle_eq ht hl hc hm hd).trans (if_pos h))
    case rises =>
      intro h1 h2 h3
      have hx := (Dev.throttle_eq ht hl hc hm hd).trans (if_neg (by rw [not_or, not_or]; exact ⟨not_le.2 h1, not_le.2 h2, not_lt.2 h3⟩))
      exact ⟨fun h4 h5 => becomes_live (f := (·.throttle amps)) rfl hs (hx.trans (if_pos ⟨h4, h5⟩)),
        fun h4 => becomes_live (f := (·.throttle amps)) rfl hs (hx.trans (if_neg (by omega)))⟩
    case droop =>
      intro v hv
      refine ⟨fun h => becomes_live (exec_voltageDroop mv s) hs (Dev.sensed_low hv h),
        fun h => becomes_live (exec_voltageDroop mv s) hs (Dev.sensed_good hv h), ?_⟩
      rw [Becomes, exec, execVoltageDroopEnd, State.act_open _ (Dev.open_live hs), hv, Dev.set_pwr]
    case smbus =>
      intro hp
      have hrun : ∀ y, s.dev.smbusRead c.toNat = y → Becomes (.smbusBlockRead c) s y := fun y hy =>
        becomes_always (f := fun d => if d.pwr.phase = .running ∨ d.pwr.phase = .dead then d.smbusRead c.toNat else d) rfl ((if_pos hp).trans hy)
      refine ⟨fun r h => hrun _ (Dev.smbusRead_some ?_), fun h => hrun _ (Dev.smbusRead_none (smbusReg_none h))⟩
      simp only [List.mem_cons, Prod.mk.injEq, List.not_mem_nil, or_false] at h
      rcases h with ⟨rfl, rfl⟩ | ⟨rfl, rfl⟩ | ⟨rfl, rfl⟩ | ⟨rfl, rfl⟩ | ⟨rfl, rfl⟩ | ⟨rfl, rfl⟩ <;> rfl
    case silent =>
      exact becomes_always (f := fun d => if d.pwr.phase = .running ∨ d.pwr.phase = .dead then d.smbusRead c.toNat else d) rfl
        (if_neg (not_or.2 ⟨hr, hn⟩))
  case refclk =>
    intro s g hs d hd
    have hfold : d = ((List.range 32).map (fun i => 32 * g.val + i)).foldl Dev.portLost s.dev := by
      rw [hd, List.foldl_map]; rfl
    have hrun : ∀ y, s.dev.refclkLoss g.val = y → Becomes (.serdesRefclkLoss g) s y.settle := fun y hy =>
      becomes_live (f := fun d => (d.refclkLoss g.val).settle) rfl hs (congrArg Dev.settle hy)
    refine ⟨fun i hi hp => ?_, fun h => hrun _ ?_, fun h => hrun _ ?_⟩
    · rw [hfold]
      exact Dev.portIdle_foldl hp (.inl (List.mem_map.2 ⟨i, List.mem_range.2 hi, rfl⟩))
    · rw [Dev.refclkLoss_eq, if_neg (fun h0 : g.val = 0 => h (Fin.ext h0)), hfold]
    · rw [Dev.refclkLoss_eq, if_pos (h ▸ rfl : g.val = 0), hfold]

end Sys2Proof.Machine
end

section
/-! SUPPORT. What a reset keeps, and the steps of the boot ROM (R513, R518, R519, R537 to R540). -/

namespace Sys2Proof.Machine

/-! ## What a reset leaves (R537, R538) -/

/-- Canonical memory cut at an address reads below it as before. -/
theorem Mem.readFrom_below {m : List Host.Cell} (h : Mem.wf m = true) {b a n : Nat} (hb : a + n ≤ b) :
    Mem.readFrom (m.filter (fun c => c.1 < b)) a n = Mem.readFrom m a n := by
  obtain ⟨hord, hne⟩ := Map.wf_iff.1 h
  have hf : Mem.wf (m.filter (fun c => c.1 < b)) = true := Map.wf_iff.2 ⟨hord.filter _, fun e he => hne e (List.mem_of_mem_filter he)⟩
  rw [Mem.readFrom_eq hf, Mem.readFrom_eq h]
  refine List.map_congr_left (fun i hi => Mem.at_congr hf h (fun v => ?_))
  have hi' := List.mem_range.1 hi
  simp only [List.mem_filter, decide_eq_true_eq]
  exact and_iff_left (by omega)

theorem Mem.readFrom_nil (a n : Nat) : Mem.readFrom [] a n = List.replicate n 0 := by
  cases n <;> rfl

/-- The registers after a reset are those of a device without listed values, but for PREV. -/
theorem Dev.wipe_word (d : Dev) (warm : Bool) (p : Phase) (o : Nat) :
    (d.wipe warm p).word o = (({ d with regs := [] } : Dev).setWord R.GLB_RESET_CAUSE (BitVec.ofNat 64 (256 * d.prev))).word o :=
  Dev.word_congr rfl o

theorem Dev.wipe_word_other (d : Dev) (warm : Bool) (p : Phase) {o : Nat} (h : o ≠ R.GLB_RESET_CAUSE) : (d.wipe warm p).word o = regReset o := by
  rw [Dev.wipe_word, Dev.word_setWord_other _ _ h]; rfl

theorem Dev.wipe_prev (d : Dev) (warm : Bool) (p : Phase) : (d.wipe warm p).get R.GLB_RESET_CAUSE_PREV = d.get R.GLB_RESET_CAUSE_PREV := by
  have hb : d.prev < 256 := Nat.mod_lt _ (Nat.two_pow_pos 8)
  have hw : (d.wipe warm p).get R.GLB_RESET_CAUSE_PREV = getBits (BitVec.ofNat 64 (256 * d.prev)) 15 8 := by
    rw [Dev.get, Dev.wipe_word, show R.GLB_RESET_CAUSE_PREV.off = R.GLB_RESET_CAUSE from rfl, Dev.word_setWord_same]; rfl
  rw [hw, ← Dev.prev, getBits, bits, BitVec.toNat_ofNat, Nat.shiftRight_eq_div_pow]
  omega

theorem Dev.wipe_cause (d : Dev) (warm : Bool) (p : Phase) : (d.wipe warm p).get R.GLB_RESET_CAUSE_CAUSE = 0 := by
  have hw : (d.wipe warm p).get R.GLB_RESET_CAUSE_CAUSE = getBits (BitVec.ofNat 64 (256 * d.prev)) 7 0 := by
    rw [Dev.get, Dev.wipe_word, show R.GLB_RESET_CAUSE_CAUSE.off = R.GLB_RESET_CAUSE from rfl, Dev.word_setWord_same]; rfl
  rw [hw, getBits, bits, BitVec.toNat_ofNat, Nat.shiftRight_eq_div_pow]
  omega

theorem Dev.wipe_faultN (d : Dev) (warm : Bool) (p : Phase) : (d.wipe warm p).pwr.faultN = false ↔ p = .clockFault := by
  rw [show (d.wipe warm p).pwr.faultN = (p != .clockFault) from rfl, bne_eq_false_iff_eq]

theorem Dev.wipe_lost (d : Dev) (warm : Bool) (p : Phase) :
    (d.wipe warm p).med.lost = true ↔ d.med.lost = true ∨ warm = false ∧ d.med.dirty = true := by
  rw [show (d.wipe warm p).med.lost = (d.med.lost || (!warm && d.med.dirty)) from rfl, Bool.or_eq_true, Bool.and_eq_true, Bool.not_eq_true']

theorem Dev.wipe_read_warm {d : Dev} (h : Mem.wf d.mem = true) (p : Phase) {a n : Nat} (hb : a + n ≤ hbmSize) : (d.wipe true p).read a n = d.read a n := by
  rw [Dev.read_mem, Dev.read_mem]; exact Mem.readFrom_below h hb

theorem Dev.wipe_read_cold (d : Dev) (p : Phase) (a n : Nat) : (d.wipe false p).read a n = List.replicate n 0 := by
  rw [Dev.read_mem]; exact Mem.readFrom_nil a n

/-! ## The pins and the clocks -/

theorem Dev.heldByPor_iff {d : Dev} : d.heldByPor = true ↔ d.pwr.phase = .tripped ∨ d.pwr.phase = .inReset 1 := by
  simp [Dev.heldByPor]

theorem Dev.resetWrite_eq (d : Dev) (k : BitVec 16) : d.resetWrite k.toNat = if k = 0x5752 then d.wipe true (.inReset 3) else d := by
  have hk : k.toNat = 0x5752 ↔ k = 0x5752 := ⟨fun h => BitVec.eq_of_toNat_eq h, fun h => h ▸ rfl⟩
  rw [Dev.resetWrite]
  exact if_congr hk rfl rfl

/-! ## Step 2 of the boot ROM: the identity (R513, R539) -/

/-- Outside a reset nothing is released. -/
theorem Dev.boot_held {d : Dev} (n : Nat) (seed e : Option Bytes) (h : ∀ c, d.pwr.phase ≠ .inReset c) : d.boot n seed e = d := by
  unfold Dev.boot
  split
  next c hc => exact absurd hc (h c)
  next => rfl

theorem Dev.boot_released {d : Dev} {c : Nat} (n : Nat) (seed e : Option Bytes) (h : d.pwr.phase = .inReset c) :
    d.boot n seed e = ((({ d with pwr := { d.pwr with straps := n } } : Dev).set R.GLB_RESET_CAUSE_CAUSE c).set R.GLB_BOOT_STAGE 1).bootIdentity seed e := by
  unfold Dev.boot
  split
  next c' hc => cases hc.symm.trans h; rfl
  next hn => exact absurd h (hn c)

/-- The copies of a TYPE that the root key signs. -/
def Dev.rootCopies (d : Dev) (t : Nat) : List Bytes := ((d.copies t).filter (fun x => recSignedBy d.sec.rootKey x.2)).map (·.2)

theorem Dev.rootCopies_eq_nil {d : Dev} {t : Nat} : d.rootCopies t = [] ↔ ∀ x ∈ d.copies t, recSignedBy d.sec.rootKey x.2 = false := by
  simp [Dev.rootCopies, List.filter_eq_nil_iff]

theorem Dev.rootCopies_ne_nil {d : Dev} {t : Nat} (h : ∃ x ∈ d.copies t, recSignedBy d.sec.rootKey x.2 = true) : d.rootCopies t ≠ [] := by
  obtain ⟨x, hx, hs⟩ := h
  exact fun hn => absurd (Dev.rootCopies_eq_nil.1 hn x hx) (by rw [hs]; decide)

section identity
variable {b d : Dev} {seed e : Option Bytes} (hd : d = b.set R.GLB_BOOT_STAGE 2)
include hd

theorem Dev.bootIdentity_bare (h : d.rootCopies 1 = [] ∨ d.rootCopies 2 = []) : b.bootIdentity seed e = (d.set R.SEC_STATUS_IDENTITY 2).bootStop 2 := by
  subst hd; exact if_pos h

variable (h : ¬ (d.rootCopies 1 = [] ∨ d.rootCopies 2 = []))
include h

theorem Dev.bootIdentity_unseeded (hs : seed = none) : b.bootIdentity seed e = (d.set R.SEC_STATUS_IDENTITY 2).bootStop 1 := by
  subst hd hs; exact if_neg h

/-- With a seed the key pair is derived, and both identity records are selected. -/
theorem Dev.bootIdentity_seeded {x : Bytes} {k z : Dev} (hs : seed = some x) (hk : k = { d with sec := { d.sec with seed := x, pub := edPublic x } })
    (hz : z = (((List.range 4).foldl (fun d i => d.setW (R.SEC_DEVICE_KEY i) (fld d.sec.pub (8 * i) 8)) k).selectRec 1 (fun _ => true)).selectRec 2 (fun _ => true)) :
    b.bootIdentity seed e = if z.recOf 1 = [] ∨ z.recOf 2 = [] ∨ slice (recBody (z.recOf 2)) 0 32 ≠ z.sec.pub then (z.set R.SEC_STATUS_IDENTITY 2).bootStop 1
      else (z.set R.SEC_STATUS_IDENTITY 1).bootSelect e := by
  subst hd hs hk hz; exact if_neg h

end identity

/-! ## Steps 3 to 6: the records and the slot (R518, R519) -/

section select
variable {d x y : Dev} {e : Option Bytes}
  (hx : x = ((((d.set R.GLB_BOOT_STAGE 3).selectRec 4 (fun _ => true)).selectRec 3 unitsOk).selectRec 5 (fun _ => true)).selectRec 6 (fun _ => true))
include hx

theorem Dev.bootSelect_unitless (h3 : x.recOf 3 = []) : d.bootSelect e = x.bootStop 3 := by
  unfold Dev.bootSelect
  extract_lets d₃ d₄
  have h4 : d₄ = x := hx.symm
  rw [h4, if_pos h3]

variable (h3 : x.recOf 3 ≠ [])
include h3

theorem Dev.bootSelect_versionless (h5 : x.recOf 5 = []) : d.bootSelect e = x.bootStop 4 := by
  unfold Dev.bootSelect
  extract_lets d₃ d₄
  have h4 : d₄ = x := hx.symm
  rw [h4, if_neg h3, if_pos h5]

/-- With both records the slots are judged in turn. -/
theorem Dev.bootSelect_slots {n : Nat} (h5 : x.recOf 5 ≠ []) (hy : y = (x.setW R.SEC_MIN_VERSION (fld (recBody (x.recOf 5)) 0 8)).set R.GLB_BOOT_STAGE 5)
    (hn : n = y.mgt.slotSelect % 2) :
    d.bootSelect e = if y.slotStarts n then y.firmwareBoot n false e
      else if y.slotStarts (1 - n) then ({ y with mgt := { y.mgt with slotSelect := 1 - n } } : Dev).firmwareBoot (1 - n) true e
      else y.bootStop (if y.mgt.slotA.verified || y.mgt.slotB.verified then 6 else 5) := by
  unfold Dev.bootSelect
  extract_lets d₃ d₄ d₅ m
  have h4 : d₄ = x := hx.symm
  have hy' : d₅ = y := by rw [hy, ← h4]
  have hm : m = n := by rw [hn, ← hy']
  subst hy'
  rw [h4, if_neg h3, if_neg h5, hm]

end select

/-! ## Firmware's part (R540) -/

theorem Dev.bootStop_code (d : Dev) (c : Nat) : (d.bootStop c).get R.GLB_BOOT_CODE = c % 256 :=
  (Dev.get_congr rfl _).trans (Dev.get_set_same d R.GLB_BOOT_CODE c (by decide) (by decide))

theorem Dev.foldl_mem {α : Type} {g : Dev → α → Dev} (h : ∀ d x, (g d x).mem = d.mem) (l : List α) (d : Dev) : (l.foldl g d).mem = d.mem := by
  induction l generalizing d with
  | nil => rfl
  | cons x l ih => exact (ih (g d x)).trans (h d x)

theorem Dev.mem_pwr (d : Dev) (q : Pwr) : ({ d with pwr := q } : Dev).mem = d.mem := rfl

/-- The lane polarities of an EEPROM record. -/
def Dev.lanesInverted (d : Dev) (b : Bytes) : Dev :=
  (List.range 256).foldl (fun d n =>
    (d.set (R.FAB_LANE_TX_INV n) (b2n (bmBit (slice b 8 32) n))).set (R.FAB_LANE_RX_INV n) (b2n (bmBit (slice b 0x28 32) n))) d

theorem Dev.lanesInverted_mem (d : Dev) (b : Bytes) : (d.lanesInverted b).mem = d.mem := by
  refine Dev.foldl_mem ?_ _ d
  exact fun _ _ => (Dev.set_mem _ _ _).trans (Dev.set_mem _ _ _)

theorem Dev.polarities_some {d : Dev} {e : Option Bytes} {b : Bytes} (h : eepromOk e = some b) :
    d.polarities e = { d.lanesInverted b with pwr := { (d.lanesInverted b).pwr with hostInv := fld b 0x48 1 % 16 } } := by
  rw [Dev.polarities, h, Dev.lanesInverted]

theorem Dev.polarities_mem (d : Dev) (e : Option Bytes) : (d.polarities e).mem = d.mem := by
  cases h : eepromOk e with
  | none => rw [Dev.polarities, h]
  | some b => rw [Dev.polarities_some h, Dev.mem_pwr, Dev.lanesInverted_mem]

theorem Dev.mem_ite {c : Prop} [Decidable c] {x y : Dev} {m : List Host.Cell} (hx : x.mem = m) (hy : y.mem = m) : (if c then x else y).mem = m := by
  split
  · exact hx
  · exact hy

theorem Dev.keptDump_mem (d : Dev) : d.keptDump.mem = d.mem := by
  unfold Dev.keptDump
  extract_lets n dig good
  exact Dev.mem_ite rfl (Dev.mem_ite rfl ((Dev.set_mem _ _ _).trans (Dev.set_mem _ _ _)))

/-- What firmware shows of the OWNER record. -/
def Dev.ownerShown (d : Dev) : Dev :=
  if d.ownerKey = [] then d else (d.set R.SEC_STATUS_OWNED 1).setW R.SEC_OWNER_KEY_ID (Sys2Proof.Machine.keyId d.ownerKey)

theorem Dev.ownerShown_mem (d : Dev) : d.ownerShown.mem = d.mem :=
  Dev.mem_ite rfl ((Dev.setW_mem _ _ _).trans (Dev.set_mem _ _ _))

/-- What firmware shows of the UNITS record: its GRADE and its counts. -/
def Dev.unitsShown (d : Dev) (g : Nat) (k : List Nat) : Dev :=
  (((((((d.set R.GLB_ID_GRADE g).set R.GLB_UNITS_THR_CORES (k.getD 0 0)).set R.GLB_UNITS_VDE (k.getD 1 0)).set R.GLB_UNITS_JPG (k.getD 2 0)).set
    R.GLB_UNITS_RCX (k.getD 3 0)).set R.GLB_UNITS_BPE_LANES (k.getD 4 0)).set R.GLB_UNITS_MASK_UNITS (k.getD 5 0)).set R.GLB_UNITS_DETOK (k.getD 6 0)

theorem Dev.unitsShown_mem (d : Dev) (g : Nat) (k : List Nat) : (d.unitsShown g k).mem = d.mem := by
  rw [Dev.unitsShown, Dev.set_mem, Dev.set_mem, Dev.set_mem, Dev.set_mem, Dev.set_mem, Dev.set_mem, Dev.set_mem, Dev.set_mem]

/-- What firmware shows of the slots' versions. -/
def Dev.versionsShown (d : Dev) (slot : Nat) : Dev :=
  (d.setW (R.MGT_FW_VERSION 0) (fwVersion (d.slotOf slot).bytes)).setW (R.MGT_FW_VERSION 1)
    (if (d.slotOf (1 - slot)).verified then fwVersion (d.slotOf (1 - slot)).bytes else 0)

theorem Dev.versionsShown_mem (d : Dev) (n : Nat) : (d.versionsShown n).mem = d.mem := by
  rw [Dev.versionsShown, Dev.setW_mem, Dev.setW_mem]

/-- What firmware shows of the slot it runs in. -/
def Dev.slotShown (d : Dev) (slot : Nat) (fallback : Bool) : Dev :=
  ((((d.set R.MGT_FW_STATUS_RUNNING_SLOT slot).set R.MGT_FW_STATUS_NEXT_SLOT (d.mgt.slotSelect % 2)).set R.GLB_BOOT_SLOT slot).set R.GLB_BOOT_FALLBACK
    (b2n fallback)).set R.GLB_BOOT_STAGE 7

theorem Dev.slotShown_mem (d : Dev) (n : Nat) (fb : Bool) : (d.slotShown n fb).mem = d.mem := by
  rw [Dev.slotShown, Dev.set_mem, Dev.set_mem, Dev.set_mem, Dev.set_mem, Dev.set_mem]

/-- The records that firmware keeps for the rest of its run. -/
def Dev.recordsKept (d : Dev) : Dev := { d with sec := { d.sec with
  bootUnits := d.recOf 3
  bootMedia := d.recOf 6 } }

theorem Dev.recordsKept_mem (d : Dev) : d.recordsKept.mem = d.mem := rfl

/-- All that firmware shows before READY. -/
def Dev.bootShown (d : Dev) (n : Nat) (fb : Bool) (e : Option Bytes) : Dev :=
  (((((d.recordsKept.unitsShown (fld (recBody (d.recOf 3)) 0 1) (unitCounts (d.recOf 3))).ownerShown).versionsShown n).slotShown n fb).polarities e).keptDump

theorem Dev.bootShown_mem (d : Dev) (n : Nat) (fb : Bool) (e : Option Bytes) : (d.bootShown n fb e).mem = d.mem := by
  rw [Dev.bootShown, Dev.keptDump_mem, Dev.polarities_mem, Dev.slotShown_mem, Dev.versionsShown_mem, Dev.ownerShown_mem, Dev.unitsShown_mem,
    Dev.recordsKept_mem]

theorem Dev.firmwareBoot_eq (d : Dev) (n : Nat) (fb : Bool) (e : Option Bytes) : d.firmwareBoot n fb e =
    { (d.bootShown n fb e).set R.GLB_BOOT_READY 1 with pwr := { ((d.bootShown n fb e).set R.GLB_BOOT_READY 1).pwr with phase := .running } } := rfl

theorem Dev.firmwareBoot_mem (d : Dev) (n : Nat) (fb : Bool) (e : Option Bytes) : (d.firmwareBoot n fb e).mem = d.mem := by
  rw [Dev.firmwareBoot_eq, Dev.mem_pwr, Dev.set_mem, Dev.bootShown_mem]

theorem Dev.has_pwr (d : Dev) (q : Pwr) (r : FRef) : ({ d with pwr := q } : Dev).has r = d.has r := rfl

theorem Dev.firmwareBoot_ready (d : Dev) (n : Nat) (fb : Bool) (e : Option Bytes) : (d.firmwareBoot n fb e).has R.GLB_BOOT_READY = true := by
  rw [Dev.firmwareBoot_eq, Dev.has_pwr, Dev.has_set_same _ R.GLB_BOOT_READY 1 (by decide) (by decide)]
  rfl

/-! ## The statement -/

/-- Settles O58: the resets keep what `Dev.wipe` keeps, and the boot ROM's steps end as their records and slots say. -/
theorem resetsAndBoot : Obligations.ResetsAndBoot := by
  refine ⟨?resets, ?boots⟩
  case resets =>
    intro s
    have hwarm : ∀ y, (if s.dev.heldByPor || s.dev.pwr.phase = .clockFault then s.dev else s.dev.wipe true (.inReset 2)) = y →
        Becomes .warmResetPin s y := fun y hy =>
      becomes_always (f := fun d => if d.heldByPor || d.pwr.phase = .clockFault then d else d.wipe true (.inReset 2)) rfl hy
    have hclk : ∀ y, (if s.dev.heldByPor then s.dev else s.dev.wipe true .clockFault) = y → Becomes .clockFault s y := fun y hy =>
      becomes_always (f := fun d => if d.heldByPor then d else d.wipe true .clockFault) rfl hy
    have hend : ∀ y, (if s.dev.pwr.phase = .clockFault then { s.dev with pwr := { s.dev.pwr with
        phase := .inReset 4
        faultN := true } } else s.dev) = y → Becomes .clockFaultEnd s y := fun y hy =>
      becomes_always (f := fun d => if d.pwr.phase = .clockFault then { d with pwr := { d.pwr with
        phase := .inReset 4
        faultN := true } } else d) rfl hy
    refine ⟨becomes_always (f := (·.wipe false (.inReset 1))) rfl rfl, fun h => hwarm _ (if_pos ?held), fun ht hr => ?free, fun h => hclk _ (if_pos (Dev.heldByPor_iff.2 h)),
      fun hs k => ?write, fun h => hend _ (if_pos h), fun h => hend _ (if_neg h), fun warm p d hd => ?wiped⟩
    case held =>
      rw [Bool.or_eq_true, Dev.heldByPor_iff, decide_eq_true_iff, or_assoc]; exact h
    case free =>
      have hn : ¬ s.dev.heldByPor = true := fun h => (Dev.heldByPor_iff.1 h).elim ht hr
      refine ⟨hclk _ (if_neg hn), fun hc => hwarm _ (if_neg ?_)⟩
      rw [Bool.or_eq_true, decide_eq_true_iff]; exact fun h => h.elim hn hc
    case write =>
      exact becomes_live (f := fun d => (d.resetWrite k.toNat).reply St.ok) rfl hs (congrArg (fun d : Dev => d.reply St.ok) (s.dev.resetWrite_eq k))
    case wiped =>
      subst hd
      refine ⟨fun o ho => Dev.wipe_word_other _ _ _ ho, Dev.wipe_prev _ _ _, Dev.wipe_cause _ _ _, rfl, Dev.wipe_faultN _ _ _, rfl, rfl, rfl, rfl, rfl, rfl, rfl, rfl, rfl, rfl, rfl,
        rfl, rfl, rfl, rfl, rfl, Dev.wipe_lost _ _ _, ?_, ?_⟩
      · rintro rfl hm a n hb
        exact Dev.wipe_read_warm hm p hb
      · rintro rfl a n
        exact Dev.wipe_read_cold _ p a n
  case boots =>
    intro s straps seed e
    have hrun : ∀ y, s.dev.boot straps.toNat seed e = y → Becomes (.resetRelease straps seed e) s y := fun y hy =>
      becomes_always (f := fun d => d.boot straps.toNat seed e) rfl hy
    refine ⟨fun h => hrun _ (Dev.boot_held _ _ _ h), ?released, ?select, ?firmware⟩
    case released =>
      intro c d hc hd
      have hb := Dev.boot_released straps.toNat seed e hc
      refine ⟨fun h => hrun _ (hb.trans (Dev.bootIdentity_bare hd (h.imp Dev.rootCopies_eq_nil.2 Dev.rootCopies_eq_nil.2))), fun h1 h2 => ?_⟩
      have hn : ¬ (d.rootCopies 1 = [] ∨ d.rootCopies 2 = []) := not_or.2 ⟨Dev.rootCopies_ne_nil h1, Dev.rootCopies_ne_nil h2⟩
      refine ⟨fun h => hrun _ (hb.trans (Dev.bootIdentity_unseeded hd hn h)), fun x k z hs hk hz => ?_⟩
      have hz' := hb.trans (Dev.bootIdentity_seeded hd hn hs hk hz)
      exact ⟨fun h => hrun _ (hz'.trans (if_pos h)),
        fun g1 g2 g3 => hrun _ (hz'.trans (if_neg (fun h => h.elim g1 (fun h => h.elim g2 (fun h => h g3)))))⟩
    case select =>
      intro d x y hx hy
      refine ⟨fun h3 => Dev.bootSelect_unitless hx h3, fun h3 h5 => Dev.bootSelect_versionless hx h3 h5, fun h3 h5 n hn => ?_⟩
      have hs := Dev.bootSelect_slots (e := e) hx h3 h5 hy hn
      exact ⟨fun h => hs.trans (if_pos h), fun h g => hs.trans ((if_neg (by rw [h]; decide)).trans (if_pos g)),
        fun h g => hs.trans ((if_neg (by rw [h]; decide)).trans (if_neg (by rw [g]; decide)))⟩
    case firmware =>
      intro d c n fb
      exact ⟨rfl, rfl, d.bootStop_code c, rfl, d.firmwareBoot_ready n fb e, d.firmwareBoot_mem n fb e⟩

end Sys2Proof.Machine
end

section
/-! SUPPORT. Signed records and quotes: their checks, what a write and a quote leave (R515 to R526). -/

namespace Sys2Proof.Machine

/-! ## Ranges of HBM -/

section hbmRange
variable {a n : Nat}

theorem hbmRange_passed (h : a + n ≤ 0x9DC0000000) : hbmRange a n = none := if_pos h

theorem hbmRange_fixed (h : 0x9DC0000000 < a + n) (he : a + n ≤ 0xA000000000) (ha : a < 0xA000000000) : hbmRange a n = some 0x0404 := by
  exact (if_neg (not_le.2 h)).trans ((if_neg (not_le.2 ha)).trans (if_pos he))

theorem hbmRange_beyond (h : 0x9DC0000000 < a + n) (ha : 0xA000000000 ≤ a) : hbmRange a n = some 0x0104 := by
  exact (if_neg (not_le.2 h)).trans (if_pos ha)

end hbmRange

/-! ## The checks of a record write (R520) -/

section recWriteCheck
variable {d : Dev} {n : Nat}

theorem Dev.recWriteCheck_fatal (h : d.fatal = true) : d.recWriteCheck n = 0x0F04 := if_pos h

variable (hf : d.fatal = false)
include hf

theorem Dev.recWriteCheck_updating (hu : d.get R.MGT_FW_STATUS_STATE ≠ 0) : d.recWriteCheck n = 0x0510 := by
  rw [Dev.recWriteCheck, hf]; exact if_pos hu

variable (hu : d.get R.MGT_FW_STATUS_STATE = 0)
include hu

theorem Dev.recWriteCheck_length {st : Status} (h : lenCheck 32 n 0x100000 = some st) : d.recWriteCheck n = st := by
  simp only [Dev.recWriteCheck, hf, Bool.false_eq_true, if_false, hu, ne_eq, not_true_eq_false, h]

/-- A record whose length and source pass is judged by its bytes. -/
def Dev.recJudge (d : Dev) (b : Bytes) : Status :=
  if !recFormed b then St.imageFormat
  else if recType b < 3 then St.accessDenied
  else if !(recDevice b = d.keyId ∨ (recDevice b = 0 ∧ recAnyDevice (recType b) = true)) then St.targetMismatch
  else if !recSignerOk (recType b) (recSigner b) ∨ (recSigner b = 2 ∧ recType b ≠ 4 ∧ d.ownerKey = []) then St.ownerKeyMismatch
  else if !recSignedBy (if recSigner b = 1 then d.sec.rootKey else if recType b = 4 ∧ d.ownerKey = [] then slice (recBody b) 0 32 else d.ownerKey) b then
    St.signatureInvalid
  else if (d.recOf (recType b) ≠ [] ∧ recSeq b ≤ recSeq (d.recOf (recType b))) ∨ (recType b = 5 ∧ (fld (recBody b) 0 8 < d.minVersion ∨
      fwVersion (d.slotOf (d.get R.MGT_FW_STATUS_NEXT_SLOT)).bytes < fld (recBody b) 0 8)) then St.targetMismatch
  else 0

theorem Dev.recWriteCheck_bytes (h0 : 0 < n) (hn : n ≤ 0x100000) (ha : 4096 * d.get R.SEC_REC_SRC_SRC + n ≤ 0x9DC0000000) :
    d.recWriteCheck n = d.recJudge (d.read (4096 * d.get R.SEC_REC_SRC_SRC) n) := by
  have hlen : lenCheck 32 n 0x100000 = none := lenCheck_passed hn (by decide)
  simp only [Dev.recWriteCheck, hf, Bool.false_eq_true, if_false, hu, ne_eq, not_true_eq_false, hlen, Nat.ne_of_gt h0, srcRange_passed ha]
  rfl

end recWriteCheck

section recJudge
variable {d : Dev} {b : Bytes}

theorem Dev.recJudge_misformed (h : recFormed b = false) : d.recJudge b = 0x0110 := by
  rw [Dev.recJudge, h]; rfl

variable (hb : recFormed b = true)
include hb

/-- The records of the factory are not written. -/
theorem Dev.recJudge_factory (ht : recType b < 3) : d.recJudge b = 0x0404 := by
  rw [Dev.recJudge, hb]; exact if_pos ht

variable (ht : 3 ≤ recType b)
include ht

theorem Dev.recJudge_device (hd : recDevice b ≠ d.keyId) (ha : recDevice b ≠ 0 ∨ recAnyDevice (recType b) = false) : d.recJudge b = 0x0117 := by
  have hn : ¬ (recDevice b = d.keyId ∨ (recDevice b = 0 ∧ recAnyDevice (recType b) = true)) := by
    rintro (h | ⟨h0, h1⟩)
    · exact hd h
    · exact ha.elim (· h0) (fun h => by rw [h1] at h; exact absurd h (by decide))
  rw [Dev.recJudge, hb, if_neg (by decide), if_neg (not_lt.2 ht), decide_eq_false hn]; rfl

variable (hd : recDevice b = d.keyId)
include hd

theorem Dev.recJudge_signer (hs : recSignerOk (recType b) (recSigner b) = false ∨ recSigner b = 2 ∧ recType b ≠ 4 ∧ d.ownerKey = []) :
    d.recJudge b = 0x0410 := by
  rw [Dev.recJudge, hb, if_neg (by decide), if_neg (not_lt.2 ht), decide_eq_true (.inl hd), if_neg (by decide)]
  exact if_pos (hs.imp (fun h => by rw [h]; rfl) id)

variable (hs : recSignerOk (recType b) (recSigner b) = true) (h1 : recSigner b = 1)
include hs h1

/-- A record of the Tabnoto root is judged by its signature and its sequence. -/
theorem Dev.recJudge_root : d.recJudge b = if !recSignedBy d.sec.rootKey b then St.signatureInvalid
    else if (d.recOf (recType b) ≠ [] ∧ recSeq b ≤ recSeq (d.recOf (recType b))) ∨ (recType b = 5 ∧ (fld (recBody b) 0 8 < d.minVersion ∨
      fwVersion (d.slotOf (d.get R.MGT_FW_STATUS_NEXT_SLOT)).bytes < fld (recBody b) 0 8)) then St.targetMismatch
    else 0 := by
  have hn : ¬ ((!recSignerOk (recType b) (recSigner b)) = true ∨ (recSigner b = 2 ∧ recType b ≠ 4 ∧ d.ownerKey = [])) := by
    rintro (h | ⟨h2, -⟩)
    · rw [hs] at h; exact absurd h (by decide)
    · rw [h1] at h2; exact absurd h2 (by decide)
  rw [Dev.recJudge, hb, if_neg (by decide), if_neg (not_lt.2 ht), decide_eq_true (.inl hd), if_neg (by decide), if_neg hn, if_pos h1]

theorem Dev.recJudge_unsigned (hk : recSignedBy d.sec.rootKey b = false) : d.recJudge b = 0x0710 := by
  rw [Dev.recJudge_root hb ht hd hs h1, hk]; rfl

variable (hk : recSignedBy d.sec.rootKey b = true)
include hk

theorem Dev.recJudge_stale (hn : d.recOf (recType b) ≠ []) (hq : recSeq b ≤ recSeq (d.recOf (recType b))) : d.recJudge b = 0x0117 := by
  rw [Dev.recJudge_root hb ht hd hs h1, hk, if_neg (by decide)]
  exact if_pos (.inl ⟨hn, hq⟩)

theorem Dev.recJudge_passed (h5 : recType b ≠ 5) (hq : recSeq (d.recOf (recType b)) < recSeq b) : d.recJudge b = 0 := by
  rw [Dev.recJudge_root hb ht hd hs h1, hk, if_neg (by decide)]
  exact if_neg (fun h => h.elim (fun h => absurd h.2 (not_le.2 hq)) (fun h => h5 h.1))

end recJudge

/-! ## Writing a record (R520, R521) -/

section recordWrite
variable {s d : Dev} {n : Nat} (hd : d = s.set R.SEC_REC_CTRL_LEN n)
include hd

theorem Dev.recordWrite_busy (h : d.has R.SEC_REC_STATUS_BUSY = true) : s.recordWrite n = d.set R.SEC_REC_STATUS_GO_REJECTED 1 := by
  subst hd; exact if_pos h

variable (h : d.has R.SEC_REC_STATUS_BUSY = false)
include h

theorem Dev.recordWrite_ends {st : Status} (hc : d.recWriteCheck n = st) (hn : st ≠ 0 ∨ n = 0) : s.recordWrite n = d.recWriteEnd st := by
  subst hc hd
  rw [Dev.recordWrite, h, if_neg (by decide), if_pos hn]

theorem Dev.recordWrite_starts {b : Bytes} (hb : b = d.read (4096 * d.get R.SEC_REC_SRC_SRC) n) (hc : d.recWriteCheck n = 0) (hn : n ≠ 0) :
    s.recordWrite n = (({ d with sec := { d.sec with recOp := some b, records := Map.erase d.sec.records (d.otherCopy (recType b)) } } : Dev).set
      R.SEC_REC_STATUS_BUSY 1).set R.SEC_REC_STATUS_TYPE (recType b) := by
  subst hb hd
  rw [Dev.recordWrite, h, if_neg (by decide), if_neg (by rw [hc]; exact not_or.2 ⟨not_not.2 rfl, hn⟩)]

end recordWrite

section recordWritten
variable {d x : Dev} {r : Bytes} (hr : d.sec.recOp = some r) (hx : x = (({ d with sec := { d.sec with recOp := none } } : Dev).set R.SEC_REC_STATUS_BUSY 0))
include hr hx

theorem Dev.recordWritten_good : d.recordWritten true = (x.recordInForce r).recWriteEnd 0 := by
  subst hx; rw [Dev.recordWritten, hr]; rfl

/-- The status of a write that does not read back is one that the spec does not give (log entry 45). -/
theorem Dev.recordWritten_bad : d.recordWritten false =
    ({ x with free := x.free + 1 } : Dev).recWriteEnd (BitVec.ofNat 16 (1 + (Config.freeWord x.free).toNat % 65535)) := by
  subst hx; rw [Dev.recordWritten, hr]; rfl

end recordWritten

section recordInForce
variable {x y : Dev} {r : Bytes} (hy : y = { x with sec := { x.sec with
  records := Map.insert x.sec.records (x.otherCopy (recType r)) r
  inForce := Map.insert x.sec.inForce (recType r) (x.otherCopy (recType r) % 2) } })
include hy

theorem Dev.recordInForce_owner (h : recType r = 4) :
    x.recordInForce r = (y.setW R.SEC_OWNER_KEY_ID (Sys2Proof.Machine.keyId (slice (recBody r) 0 32))).set R.SEC_STATUS_OWNED 1 := by
  subst hy; unfold Dev.recordInForce; simp only [h]

theorem Dev.recordInForce_minVersion (h : recType r = 5) : x.recordInForce r = y.setW R.SEC_MIN_VERSION (fld (recBody r) 0 8) := by
  subst hy; unfold Dev.recordInForce; simp only [h]

theorem Dev.recordInForce_other (h4 : recType r ≠ 4) (h5 : recType r ≠ 5) : x.recordInForce r = y := by
  subst hy
  unfold Dev.recordInForce
  generalize recType r = t at h4 h5
  dsimp only
  split
  · exact absurd rfl h4
  · exact absurd rfl h5
  · rfl

end recordInForce

/-! ## Quotes (R523, R524) -/

section quote
variable {d : Dev} {n o : Nat} (hn : n = 32 * d.get R.SEC_QUOTE_NONCE_ADDR) (ho : o = 64 * d.get R.SEC_QUOTE_OUT_ADDR)

theorem Dev.quoteRequest_busy (h : d.has R.SEC_QUOTE_CTRL_BUSY = true) : d.quoteRequest = d.set R.SEC_QUOTE_CTRL_GO_REJECTED 1 := if_pos h

variable (h : d.has R.SEC_QUOTE_CTRL_BUSY = false)
include hn ho h

/-- A range that is not HBM refuses the quote: the nonce's first, then the output's. -/
theorem Dev.quoteRequest_range {st : Status} (hr : hbmRange n 32 = some st ∨ hbmRange n 32 = none ∧ hbmRange o 1920 = some st) :
    d.quoteRequest = d.quoteEnd st := by
  subst hn ho
  rcases hr with hr | ⟨hr, hq⟩
  · simp only [Dev.quoteRequest, h, Bool.false_eq_true, if_false, hr]
  · simp only [Dev.quoteRequest, h, Bool.false_eq_true, if_false, hr, hq]

variable (hr : n + 32 ≤ 0x9DC0000000) (hq : o + 1920 ≤ 0x9DC0000000)
include hr hq

theorem Dev.quoteRequest_region (hi : d.inRegion n 32 = true ∨ d.inRegion o 1920 = true) : d.quoteRequest = d.quoteEnd 0x0402 := by
  have hi' : (d.inRegion n 32 || d.inRegion o 1920) = true := Bool.or_eq_true_iff.2 hi
  subst hn ho
  simp only [Dev.quoteRequest, h, Bool.false_eq_true, if_false, hbmRange_passed hr, hbmRange_passed hq, hi', if_true]
  rfl

theorem Dev.quoteRequest_starts (hi : d.inRegion n 32 = false) (hj : d.inRegion o 1920 = false) :
    d.quoteRequest = ({ d with sec := { d.sec with quote := some (o, d.quoteBytes (d.read n 32)) } } : Dev).set R.SEC_QUOTE_CTRL_BUSY 1 := by
  have hi' : (d.inRegion n 32 || d.inRegion o 1920) = false := by rw [hi, hj]; rfl
  subst hn ho
  simp only [Dev.quoteRequest, h, Bool.false_eq_true, if_false, hbmRange_passed hr, hbmRange_passed hq, hi']

end quote

theorem Dev.quoteComplete_none {d : Dev} (h : d.sec.quote = none) : d.quoteComplete = d := by
  rw [Dev.quoteComplete, h]

theorem Dev.quoteComplete_some {d x : Dev} {p : Nat} {q : Bytes} (h : d.sec.quote = some (p, q)) (hx : x = d.addWord R.SEC_SIGNED 1) :
    d.quoteComplete = ((({ x with sec := { x.sec with quote := none } } : Dev).write p (q ++ edSign d.sec.seed q)).set R.SEC_QUOTE_CTRL_BUSY 0).quoteEnd 0 := by
  subst hx; rw [Dev.quoteComplete, h]; rfl

/-! ## The statement -/

/-- Settles O57: the checks of a record write in order, what a write and its end leave, and the same of a quote. -/
theorem recordsAndQuotesAreSigned : Obligations.RecordsAndQuotesAreSigned := by
  refine ⟨?record, ?quote⟩
  case record =>
    intro s lw d a n b hs hd hn ha hb
    have hrun : ∀ y, s.dev.recordWrite lw.toNat = y → Becomes (.recordWrite lw) s (y.reply 0) := fun y hy =>
      becomes_live (f := fun d => (d.recordWrite lw.toNat).reply St.ok) rfl hs (congrArg (fun d : Dev => d.reply St.ok) hy)
    rw [← hn] at hd hrun
    refine ⟨fun h => hrun _ (Dev.recordWrite_busy hd h), fun h => ⟨fun st hst he => hrun _ (Dev.recordWrite_ends hd h hst he),
      fun hc h0 => hrun _ (Dev.recordWrite_starts hd h (ha ▸ hb) hc h0)⟩, ?checks, ?idle, ?written⟩
    case checks =>
      refine ⟨Dev.recWriteCheck_fatal, Dev.recWriteCheck_updating, fun hf hu => ⟨fun h => ?ones, fun h g => ?long, fun h0 h1 hr => ?bytes⟩⟩
      case ones => exact Dev.recWriteCheck_length hf hu (if_pos h)
      case long => exact Dev.recWriteCheck_length hf hu ((if_neg g).trans (if_pos h))
      case bytes =>
        have hj : d.recWriteCheck n = d.recJudge b := by
          rw [ha] at hr hb
          rw [Dev.recWriteCheck_bytes hf hu h0 h1 hr, hb]
        rw [hj]
        exact ⟨Dev.recJudge_misformed, Dev.recJudge_factory, Dev.recJudge_device, fun hb ht hd => ⟨Dev.recJudge_signer hb ht hd, fun hs h1 =>
          ⟨Dev.recJudge_unsigned hb ht hd hs h1, Dev.recJudge_stale hb ht hd hs h1, Dev.recJudge_passed hb ht hd hs h1⟩⟩⟩
    case idle =>
      intro h ok
      exact becomes_live (f := fun d => if d.sec.recOp.isSome then (d.recordWritten ok).fwResume else d) rfl hs (if_neg (by rw [h]; decide))
    case written =>
      intro r x hr hx
      have hend : ∀ ok y, s.dev.recordWritten ok = y → Becomes (.recordWriteComplete ok) s y.fwResume := fun ok y hy =>
        becomes_live (f := fun d => if d.sec.recOp.isSome then (d.recordWritten ok).fwResume else d) rfl hs
          ((if_pos (by rw [hr]; rfl)).trans (congrArg Dev.fwResume hy))
      refine ⟨hend true _ (Dev.recordWritten_good hr hx), hend false _ (Dev.recordWritten_bad hr hx), fun y hy => ?_⟩
      exact ⟨Dev.recordInForce_owner hy, Dev.recordInForce_minVersion hy, Dev.recordInForce_other hy⟩
  case quote =>
    intro s n o hs hn ho
    have hrun : ∀ y, s.dev.quoteRequest = y → Becomes .quoteRequest s (y.reply 0) := fun y hy =>
      becomes_live (f := fun d => d.quoteRequest.reply St.ok) rfl hs (congrArg (fun d : Dev => d.reply St.ok) hy)
    have hend : ∀ y, s.dev.quoteComplete = y → Becomes .quoteComplete s y := fun y hy => becomes_live (f := (·.quoteComplete)) rfl hs hy
    refine ⟨fun h => hrun _ (Dev.quoteRequest_busy h), fun h => ⟨fun st hr => hrun _ (Dev.quoteRequest_range hn ho h hr), fun hr hq =>
      ⟨fun hi => hrun _ (Dev.quoteRequest_region hn ho h hr hq hi), fun hi hj => hrun _ (Dev.quoteRequest_starts hn ho h hr hq hi hj)⟩⟩,
      fun h => hend _ (Dev.quoteComplete_none h), fun p q x h hx => hend _ (Dev.quoteComplete_some h hx),
      fun a b => ⟨hbmRange_passed, hbmRange_fixed, hbmRange_beyond⟩⟩

end Sys2Proof.Machine
end

section
/-! SUPPORT. Firmware operations: their checks, their start and their end, and the end of a handover (R505 to R508, R520). -/

namespace Sys2Proof.Machine

/-! ## A GO of MGT_FW_CTRL -/

section fwGo
variable {s d : Dev} {op len : Nat} {o : FwOp} (hd : d = (s.set R.MGT_FW_CTRL_OP op).set R.MGT_FW_CTRL_LEN len)
  (ho : o = ⟨op, len, 4096 * d.get R.MGT_FW_SRC_SRC, false⟩) (hw : d.mgt.fwWait = false)
include hd ho hw

/-- While a record is being written the operation waits (R520). -/
theorem Dev.fwGo_waits (h : d.has R.SEC_REC_STATUS_BUSY = true) : s.fwGo op len = { d with mgt := { d.mgt with fw := some o, fwWait := true } } := by
  subst ho hd
  exact (if_neg (by rw [hw]; decide)).trans (if_pos h)

theorem Dev.fwGo_runs (h : d.has R.SEC_REC_STATUS_BUSY = false) : s.fwGo op len = d.fwRun o := by
  subst ho hd
  exact (if_neg (by rw [hw]; decide)).trans (if_neg (by rw [h]; decide))

end fwGo

/-! ## What an operation that runs leaves (R506) -/

section fwRun
variable {d : Dev} {o : FwOp}

theorem Dev.fwRun_fatal (hf : d.fatal = true) : d.fwRun o = (d.setSt R.MGT_FW_STATUS_STATUS 0x0F04).set R.MGT_FW_STATUS_DONE 1 := if_pos hf

variable (hf : d.fatal = false)
include hf

theorem Dev.fwRun_busy (hu : d.get R.MGT_FW_STATUS_STATE ≠ 0) : d.fwRun o = (d.setSt R.MGT_FW_STATUS_STATUS 0x0510).set R.MGT_FW_STATUS_DONE 1 :=
  (if_neg (by rw [hf]; decide)).trans (if_pos hu)

variable (hu : d.get R.MGT_FW_STATUS_STATE = 0)
include hu

theorem Dev.fwRun_invalid (h : o.op = 0) : d.fwRun o = d.fwEnd 0x0116 := by
  simp only [Dev.fwRun, hf, Bool.false_eq_true, if_false, hu, ne_eq, not_true_eq_false, h]
  rfl

theorem Dev.fwRun_writeSlot_ends {st : Status} (h : o.op = 1) (hc : d.writeSlotCheck o.len o.src = st) (hn : st ≠ 0 ∨ o.len = 0) :
    d.fwRun o = d.fwEnd st := by
  subst hc
  simp only [Dev.fwRun, hf, Bool.false_eq_true, if_false, hu, ne_eq, not_true_eq_false, h]
  exact if_pos hn

/-- WRITE_SLOT empties the inactive slot and writes it. -/
theorem Dev.fwRun_writeSlot_starts {x : Dev} (h : o.op = 1) (hc : d.writeSlotCheck o.len o.src = 0) (hn : o.len ≠ 0)
    (hx : x = d.setSlot (1 - d.runSlot) ⟨[], false⟩) :
    d.fwRun o = (({ x with mgt := { x.mgt with fw := some o } } : Dev).setW (R.MGT_FW_VERSION 1) 0).set R.MGT_FW_STATUS_STATE 1 := by
  subst hx
  simp only [Dev.fwRun, hf, Bool.false_eq_true, if_false, hu, ne_eq, not_true_eq_false, h]
  exact if_neg (by rw [hc]; exact not_or.2 ⟨not_not.2 rfl, hn⟩)

theorem Dev.fwRun_update_ends {st : Status} (h : o.op = 2) (hc : d.updateCheck = st) (hn : st ≠ 0) : d.fwRun o = d.fwEnd st := by
  subst hc
  simp only [Dev.fwRun, hf, Bool.false_eq_true, if_false, hu, ne_eq, not_true_eq_false, h]
  exact if_pos hn

theorem Dev.fwRun_update_starts (h : o.op = 2) (hc : d.updateCheck = 0) (hp : o.prepared = false) :
    d.fwRun o = ({ d with mgt := { d.mgt with fw := some o } } : Dev).set R.MGT_FW_STATUS_STATE 2 := by
  have ho : (⟨2, o.len, o.src, false⟩ : FwOp) = o := by rw [← h, ← hp]
  simp only [Dev.fwRun, hf, Bool.false_eq_true, if_false, hu, ne_eq, not_true_eq_false, h, hc]
  rw [ho]

theorem Dev.fwRun_select_unverified (h : o.op = 3) (hv : (d.slotOf (1 - d.runSlot)).verified = false) : d.fwRun o = d.fwEnd 0x0710 := by
  simp only [Dev.fwRun, hf, Bool.false_eq_true, if_false, hu, ne_eq, not_true_eq_false, h, hv]
  rfl

theorem Dev.fwRun_select (h : o.op = 3) (hv : (d.slotOf (1 - d.runSlot)).verified = true) : d.fwRun o = (d.nameNext (1 - d.runSlot)).fwEnd 0 := by
  simp only [Dev.fwRun, hf, Bool.false_eq_true, if_false, hu, ne_eq, not_true_eq_false, h, hv, if_true]

end fwRun

/-! ## The checks of WRITE_SLOT -/

section writeSlotCheck
variable {d : Dev} {l a : Nat}

theorem Dev.writeSlotCheck_length {st : Status} (h : lenCheck 32 l 0x1C000000 = some st) : d.writeSlotCheck l a = st := by
  rw [Dev.writeSlotCheck, h]

variable (h0 : 0 < l) (hl : l ≤ 0x1C000000)
include h0 hl

/-- A source beyond HBM and below control space is unmapped. -/
theorem Dev.writeSlotCheck_unmapped (ha : 0xA000000000 ≤ a) (hb : a < 0x800000000000) : d.writeSlotCheck l a = 0x0104 := by
  have hlen : lenCheck 32 l 0x1C000000 = none := lenCheck_passed hl (by decide)
  have hsrc : srcRange a l = some St.addressUnmapped := by
    refine (if_neg (fun h => absurd h.1 (not_le.2 hb))).trans ((if_neg (not_le.2 ?_)).trans (if_pos ha))
    exact Nat.lt_of_lt_of_le (Nat.lt_of_lt_of_le (by decide : fixedBase < 0xA000000000) ha) (Nat.le_add_right a l)
  simp only [Dev.writeSlotCheck, hlen, Nat.ne_of_gt h0, if_false, hsrc]
  rfl

variable (hr : a + l ≤ 0x9DC0000000)
include hr

theorem Dev.writeSlotCheck_unsigned (h : fwSigned d.sec.rootKey (d.read a l) = false) : d.writeSlotCheck l a = 0x0710 := by
  rw [d.writeSlotCheck_of_range h0 hl hr, h]; rfl

variable (h : fwSigned d.sec.rootKey (d.read a l) = true)
include h

theorem Dev.writeSlotCheck_old (hv : fwVersion (d.read a l) < d.minVersion) : d.writeSlotCheck l a = 0x0117 := by
  rw [d.writeSlotCheck_of_range h0 hl hr, h, if_neg (by decide)]; exact if_pos hv

theorem Dev.writeSlotCheck_passed (hv : d.minVersion ≤ fwVersion (d.read a l)) : d.writeSlotCheck l a = 0 := by
  rw [d.writeSlotCheck_of_range h0 hl hr, h, if_neg (by decide)]; exact if_neg (not_lt.2 hv)

end writeSlotCheck

/-! ## The end of an operation (R507) -/

section slotWritten
variable {d : Dev} {ok : Bool}

theorem Dev.slotWritten_idle (h : d.get R.MGT_FW_STATUS_STATE ≠ 1) : d.slotWritten ok = d := by
  unfold Dev.slotWritten
  split
  next he _ => exact absurd he h
  next => rfl

variable {o : FwOp} {b : Bytes} (h : d.get R.MGT_FW_STATUS_STATE = 1) (hf : d.mgt.fw = some o) (hb : b = d.read o.src o.len)
include h hf hb

theorem Dev.slotWritten_good (hok : ok = true) (hv : fwVerified d.sec.rootKey b = true) :
    d.slotWritten ok = ((d.setSlot (1 - d.runSlot) ⟨b, true⟩).setW (R.MGT_FW_VERSION 1) (fwVersion b)).fwEnd 0 := by
  subst hb
  simp only [Dev.slotWritten, h, hf, hok, hv, Bool.and_self, if_true]

theorem Dev.slotWritten_bad (hv : ok = false ∨ fwVerified d.sec.rootKey b = false) : d.slotWritten ok = d.fwEnd 0x0710 := by
  have hn : (ok && fwVerified d.sec.rootKey b) = false := Bool.and_eq_false_iff.2 hv
  subst hb
  simp only [Dev.slotWritten, h, hf, hn, Bool.false_eq_true, if_false]
  rfl

end slotWritten

section prepared
variable {d x : Dev}

theorem Dev.prepared_idle (h : d.get R.MGT_FW_STATUS_STATE ≠ 2) : d.prepared = d := by
  unfold Dev.prepared
  split
  next he _ => exact absurd he h
  next => rfl

/-- A prepared update hands over. -/
theorem Dev.handover_starts {o : FwOp} (h : x.get R.MGT_FW_STATUS_STATE = 2) (hf : x.mgt.fw = some o) (hp : o.prepared = true) :
    x.handover = x.set R.MGT_FW_STATUS_STATE 3 := by
  simp only [Dev.handover, h, hf, hp, if_true]

variable {o : FwOp} (h : d.get R.MGT_FW_STATUS_STATE = 2) (hf : d.mgt.fw = some o)
  (hx : x = { d with mgt := { d.mgt with fw := some { o with prepared := true } } })
include h hf hx

/-- While ticks run, the handover waits for one. -/
theorem Dev.prepared_waits (hr : x.has R.SEQ_TICK_CTRL_RUNNING = true) : d.prepared = x := by
  rw [Dev.prepared, h, hf]
  simp only [← hx, hr, if_true]

theorem Dev.prepared_hands (hr : x.has R.SEQ_TICK_CTRL_RUNNING = false) : d.prepared = x.set R.MGT_FW_STATUS_STATE 3 := by
  have hs : x.get R.MGT_FW_STATUS_STATE = 2 := (Dev.get_congr (by rw [hx]) _).trans h
  have hm : x.mgt.fw = some { o with prepared := true } := by rw [hx]
  rw [Dev.prepared, h, hf]
  simp only [← hx, hr, Bool.false_eq_true, if_false, Dev.handover_starts hs hm rfl]

end prepared

/-! ## The end of a handover (R507, R508) -/

section handoverEnd
variable {s d : Dev} {ok : Bool}

theorem Dev.handoverEnd_idle (h : s.get R.MGT_FW_STATUS_STATE ≠ 3) : s.handoverEnd ok = s := if_pos h

variable (h : s.get R.MGT_FW_STATUS_STATE = 3) (hd : d = { s with mgt := { s.mgt with heldNet := [], heldReqs := [] } })
include h hd

/-- An invalid handover record is a fatal cause. -/
theorem Dev.handoverEnd_bad (hok : ok = false) :
    s.handoverEnd ok = (({ d with mgt := { d.mgt with fw := none } } : Dev).set R.MGT_FW_STATUS_STATE 0).goFatal 0x0F05 := by
  subst hd hok; exact (if_neg (not_not.2 h)).trans (if_pos rfl)

/-- A good one swaps the slots, and takes the requests held. -/
theorem Dev.handoverEnd_good (hok : ok = true) (hn : s.mgt.heldNet = []) :
    s.handoverEnd ok = s.mgt.heldReqs.foldl (fun d e => d.hostTake e.2 e.1) (d.swapSlots.fwEnd 0) := by
  subst hd hok
  refine (if_neg (not_not.2 h)).trans ((if_neg (by decide)).trans ?_)
  rw [hn]; rfl

end handoverEnd

/-- The slots and their versions swap. -/
theorem Dev.swapSlots_eq {d x : Dev} {n : Nat} (hn : n = 1 - d.runSlot) (hx : x = d.set R.MGT_FW_STATUS_RUNNING_SLOT n) :
    d.swapSlots = ((({ x with mgt := { x.mgt with slotSelect := n } } : Dev).set R.MGT_FW_STATUS_NEXT_SLOT n).setWord (R.MGT_FW_VERSION 0)
      (d.word (R.MGT_FW_VERSION 1))).setWord (R.MGT_FW_VERSION 1) (d.word (R.MGT_FW_VERSION 0)) := by
  subst hx hn; rfl

theorem Dev.fwEnd_eq {d x : Dev} (st : Status) (hx : x = { d with mgt := { d.mgt with fw := none } }) :
    d.fwEnd st = ((x.set R.MGT_FW_STATUS_STATE 0).set R.MGT_FW_STATUS_STATUS st.toNat).set R.MGT_FW_STATUS_DONE 1 := by
  subst hx; rfl

/-! ## The statement -/

/-- The commands of a GO, each with its OP. -/
theorem becomes_fwGo {c : Instr} {s : State} {op len : Nat} {lw : BitVec 32} (hs : s.Live)
    (hc : (c, op, len) ∈ [(Instr.writeSlot lw, 1, lw.toNat), (.update, 2, s.dev.get R.MGT_FW_CTRL_LEN), (.select, 3, s.dev.get R.MGT_FW_CTRL_LEN),
      (.fwOpInvalid, 0, s.dev.get R.MGT_FW_CTRL_LEN)]) {y : Dev} (hy : s.dev.fwGo op len = y) : Becomes c s (y.reply 0) := by
  have hr : (s.dev.fwGo op len).reply St.ok = y.reply 0 := congrArg (fun d : Dev => d.reply St.ok) hy
  simp only [List.mem_cons, Prod.mk.injEq, List.not_mem_nil, or_false] at hc
  rcases hc with ⟨rfl, rfl, rfl⟩ | ⟨rfl, rfl, rfl⟩ | ⟨rfl, rfl, rfl⟩ | ⟨rfl, rfl, rfl⟩
  · exact becomes_live (f := fun d => (d.fwGo 1 lw.toNat).reply St.ok) rfl hs hr
  · exact becomes_live (f := fun d => (d.fwGo 2 (d.get R.MGT_FW_CTRL_LEN)).reply St.ok) rfl hs hr
  · exact becomes_live (f := fun d => (d.fwGo 3 (d.get R.MGT_FW_CTRL_LEN)).reply St.ok) rfl hs hr
  · exact becomes_live (f := fun d => (d.fwGo 0 (d.get R.MGT_FW_CTRL_LEN)).reply St.ok) rfl hs hr

/-- Settles O56: a GO waits or runs, and each operation ends as its checks, its image and its handover record say. -/
theorem firmwareIsUpdated : Obligations.FirmwareIsUpdated := by
  refine ⟨?go, ?ends⟩
  case go =>
    intro s c op len lw o d hs hc hd ho hw
    have hrun : ∀ y, s.dev.fwGo op len = y → Becomes c s (y.reply 0) := fun y hy => becomes_fwGo hs hc hy
    have hop : o.op = op := by rw [ho]
    have hlen : o.len = len := by rw [ho]
    have hprep : o.prepared = false := by rw [ho]
    refine ⟨fun h => hrun _ (Dev.fwGo_waits hd ho hw h), fun h => ?runs, fun e l a => ?checks⟩
    case runs =>
      have hfw : ∀ y, d.fwRun o = y → Becomes c s (y.reply 0) := fun y hy => hrun _ ((Dev.fwGo_runs hd ho hw h).trans hy)
      refine ⟨fun hf => hfw _ (Dev.fwRun_fatal hf), fun hf hu => hfw _ (Dev.fwRun_busy hf hu), fun hf hu => ?_⟩
      rw [← hop, ← hlen]
      exact ⟨fun h => hfw _ (Dev.fwRun_invalid hf hu h), fun st h hk hn => hfw _ (Dev.fwRun_writeSlot_ends hf hu h hk hn),
        fun h hn hk x hx => hfw _ (Dev.fwRun_writeSlot_starts hf hu h hk hn hx), fun st h hk hn => hfw _ (Dev.fwRun_update_ends hf hu h hk hn),
        fun h hk => hfw _ (Dev.fwRun_update_starts hf hu h hk hprep), fun h hv => hfw _ (Dev.fwRun_select_unverified hf hu h hv),
        fun h hv => hfw _ (Dev.fwRun_select hf hu h hv)⟩
    case checks =>
      exact ⟨fun h => Dev.writeSlotCheck_length (if_pos h), fun h hn => Dev.writeSlotCheck_length ((if_neg hn).trans (if_pos h)),
        Dev.writeSlotCheck_unmapped, fun h0 hl hr => ⟨Dev.writeSlotCheck_unsigned h0 hl hr, Dev.writeSlotCheck_old h0 hl hr,
          Dev.writeSlotCheck_passed h0 hl hr⟩⟩
  case ends =>
    intro s ok o hs
    have hslot : ∀ y, s.dev.slotWritten ok = y → Becomes (.writeSlotComplete ok) s y := fun y hy => becomes_live (f := (·.slotWritten ok)) rfl hs hy
    have hprep : ∀ y, s.dev.prepared = y → Becomes .updatePreparingEnd s y := fun y hy => becomes_live (f := (·.prepared)) rfl hs hy
    have hhand : ∀ y, s.dev.handoverEnd ok = y → Becomes (.handoverComplete ok) s y.settle := fun y hy =>
      becomes_live (f := fun d => (d.handoverEnd ok).settle) rfl hs (congrArg Dev.settle hy)
    refine ⟨fun h hf b hb => ⟨fun hok hv => hslot _ (Dev.slotWritten_good h hf hb hok hv), fun hv => hslot _ (Dev.slotWritten_bad h hf hb hv)⟩,
      fun h => hslot _ (Dev.slotWritten_idle h),
      fun h hf d hd => ⟨fun hr => hprep _ (Dev.prepared_waits h hf hd hr), fun hr => hprep _ (Dev.prepared_hands h hf hd hr)⟩,
      fun h => hprep _ (Dev.prepared_idle h), fun h => hhand _ (Dev.handoverEnd_idle h), fun h d n hd hn => ?handover, fun d x st hx => Dev.fwEnd_eq st hx⟩
    case handover =>
      refine ⟨fun hok => hhand _ (Dev.handoverEnd_bad h hd hok), fun hok hnet x hx => hhand _ ?_⟩
      rw [Dev.handoverEnd_good h hd hok hnet, Dev.swapSlots_eq hn hx]

end Sys2Proof.Machine
end

section
/-! SUPPORT. The host link, the relay, and the requests that come over them (R46, R47, R499 to R504, R507, R510). -/

namespace Sys2Proof.Machine

/-! ## The host link and the relay -/

section linkUp
variable {d x : Dev} {p : Nat}

theorem Dev.linkUp_up (h : d.mgt.hostUp = true) : d.linkUp p = d := if_pos h

variable (h : d.mgt.hostUp = false) (hx : x = ((((({ d with mgt := { d.mgt with hostUp := true, relayPort := none } } : Dev).set R.MGT_HOST_INDEX (8 * p)).set
  R.MGT_HOST_VALID 1).set R.MGT_HOST_RELAYED 0).set R.MGT_HOST_LINK 1).raise 17 0)
include h hx

/-- A device that had an index of its own opens no relay slots again. -/
theorem Dev.linkUp_had (hv : d.has R.MGT_HOST_VALID = true) (hr : d.has R.MGT_HOST_RELAYED = false) : d.linkUp p = x.hostReturns := by
  rw [Dev.linkUp, h, if_neg Bool.false_ne_true]
  extract_lets had mgt d₁ d₂ d₃ d₄
  have hhad : had = true := by simp only [had, hv, hr, Bool.not_false, Bool.and_self]
  have h3 : d₃ = x := hx.symm
  have h4 : d₄ = x := (if_pos hhad).trans h3
  rw [h4]

theorem Dev.linkUp_first (hv : d.has R.MGT_HOST_VALID = false ∨ d.has R.MGT_HOST_RELAYED = true) : d.linkUp p = x.openRelays.hostReturns := by
  have hn : (d.has R.MGT_HOST_VALID && !d.has R.MGT_HOST_RELAYED) = false := by
    rcases hv with hv | hv <;> simp [hv]
  rw [Dev.linkUp, h, if_neg Bool.false_ne_true]
  extract_lets had mgt d₁ d₂ d₃ d₄
  have hhad : ¬ had = true := by simp only [had, hn, Bool.false_eq_true, not_false_eq_true]
  have h3 : d₃ = x := hx.symm
  have h4 : d₄ = d₃.openRelays := if_neg hhad
  rw [h4, h3]

end linkUp

theorem Dev.linkDown_down {d : Dev} (h : d.mgt.hostUp = false) : d.linkDown = d := if_pos (by rw [h]; rfl)

theorem Dev.linkDown_falls {d : Dev} (h : d.mgt.hostUp = true) :
    d.linkDown = ((({ d with mgt := { d.mgt with hostUp := false, heldReqs := [], completions := [] } } : Dev).set R.MGT_HOST_LINK 0).raise 17 0) :=
  if_neg (by rw [h]; decide)

section relayOpened
variable {d x : Dev} {q : Nat} {t : Txn} {r : List (Nat × Txn)}

theorem Dev.relayOpened_nil (h : d.fab.relayRx = []) : d.relayOpened = d := by rw [Dev.relayOpened, h]

variable (h : d.fab.relayRx = (q, t) :: r)
include h

theorem Dev.relayOpened_other (hk : t.kind ≠ 9) : d.relayOpened = d := by
  rw [Dev.relayOpened, h]; exact if_pos hk

variable (hk : t.kind = 9) (hx : x = { d with fab := { d.fab with relayRx := r } })
include hk hx

/-- Any but the first RELAY_OPEN is counted. -/
theorem Dev.relayOpened_counted (hu : x.mgt.hostUp = true ∨ x.mgt.relayPort ≠ none) : d.relayOpened = x.inc R.MGT_STATUS_RELAY_IGNORED := by
  have hc : (x.mgt.hostUp || x.mgt.relayPort.isSome) = true := by
    rw [Bool.or_eq_true_iff, Option.isSome_iff_ne_none]; exact hu
  subst hx
  rw [Dev.relayOpened, h]
  exact (if_neg (not_not.2 hk)).trans (if_pos hc)

/-- The first one gives the index. -/
theorem Dev.relayOpened_first (hu : x.mgt.hostUp = false) (hp : x.mgt.relayPort = none) :
    d.relayOpened = (((((({ x with mgt := { x.mgt with relayPort := some q } } : Dev).set R.MGT_HOST_INDEX (t.arg.toNat % 64)).set R.MGT_HOST_VALID 1).set
      R.MGT_HOST_RELAYED 1).set R.MGT_HOST_LINK 1)).hostReturns := by
  have hc : (x.mgt.hostUp || x.mgt.relayPort.isSome) = false := by rw [hu, hp]; rfl
  subst hx
  rw [Dev.relayOpened, h]
  exact (if_neg (not_not.2 hk)).trans (if_neg (by rw [hc]; decide))

end relayOpened

/-! ## MGT_RELAY_TABLE (R47, R502) -/

section relayTable
variable {d : Dev} {v : Word} {w : Nat} (hw : w = v.toNat % 2 ^ 63)

/-- Slot `i` is VALID and names no GF port with RELAY. -/
def Dev.badSlot (d : Dev) (w i : Nat) : Bool :=
  w.testBit (56 + i) && !(d.isGf (bits w (8 * i + 7) (8 * i)) && (d.link (bits w (8 * i + 7) (8 * i))).relay)

/-- The slots that become VALID open their paths. -/
def Dev.openSlots (d : Dev) (old w : Nat) : Dev :=
  (List.range 7).foldl (fun d i => if w.testBit (56 + i) && !old.testBit (56 + i) && d.gfUp (bits w (8 * i + 7) (8 * i)) then
    d.relayOpen (bits w (8 * i + 7) (8 * i)) (i + 1) else d) d

theorem Dev.relayTable_eq (d : Dev) (v : Word) : d.relayTable v =
    if (List.range 7).any (d.badSlot (v.toNat % 2 ^ 63)) then d.setSt R.MGT_HOST_STATUS St.addressUnmapped
    else if !(((d.setW R.MGT_RELAY_TABLE (v.toNat % 2 ^ 63)).setSt R.MGT_HOST_STATUS St.ok).has R.MGT_HOST_VALID
      && !((d.setW R.MGT_RELAY_TABLE (v.toNat % 2 ^ 63)).setSt R.MGT_HOST_STATUS St.ok).has R.MGT_HOST_RELAYED) then
      (d.setW R.MGT_RELAY_TABLE (v.toNat % 2 ^ 63)).setSt R.MGT_HOST_STATUS St.ok
    else ((d.setW R.MGT_RELAY_TABLE (v.toNat % 2 ^ 63)).setSt R.MGT_HOST_STATUS St.ok).openSlots (d.word R.MGT_RELAY_TABLE).toNat (v.toNat % 2 ^ 63) := rfl

theorem Dev.openSlots_old {old : Nat} (d : Dev) (h : ∀ i, i < 7 → w.testBit (56 + i) = true → old.testBit (56 + i) = true) : d.openSlots old w = d := by
  have hstep : ∀ l : List Nat, (∀ i ∈ l, i < 7) → l.foldl (fun d i => if w.testBit (56 + i) && !old.testBit (56 + i) && d.gfUp (bits w (8 * i + 7) (8 * i)) then
      d.relayOpen (bits w (8 * i + 7) (8 * i)) (i + 1) else d) d = d := by
    intro l
    induction l with
    | nil => exact fun _ => rfl
    | cons i l ih =>
      intro hl
      have hi : (w.testBit (56 + i) && !old.testBit (56 + i)) = false := by
        cases hb : w.testBit (56 + i) with
        | false => rfl
        | true => rw [h i (hl i List.mem_cons_self) hb]; rfl
      rw [List.foldl_cons, hi, Bool.false_and, if_neg Bool.false_ne_true]
      exact ih (fun j hj => hl j (List.mem_cons_of_mem _ hj))
  exact hstep _ (fun i hi => List.mem_range.1 hi)

include hw

theorem Dev.relayTable_refused (h : ∃ i, i < 7 ∧ w.testBit (56 + i) = true ∧
    (d.isGf (bits w (8 * i + 7) (8 * i)) = false ∨ (d.link (bits w (8 * i + 7) (8 * i))).relay = false)) :
    d.relayTable v = d.setSt R.MGT_HOST_STATUS St.addressUnmapped := by
  obtain ⟨i, hi, hb, hn⟩ := h
  have hbad : d.badSlot w i = true := by
    rw [Dev.badSlot, hb, Bool.true_and, Bool.not_eq_true']; exact Bool.and_eq_false_iff.2 hn
  rw [Dev.relayTable_eq, ← hw, if_pos (List.any_eq_true.2 ⟨i, List.mem_range.2 hi, hbad⟩)]

variable {x : Dev} (h : ∀ i, i < 7 → w.testBit (56 + i) = true →
    d.isGf (bits w (8 * i + 7) (8 * i)) = true ∧ (d.link (bits w (8 * i + 7) (8 * i))).relay = true)
  (hx : x = (d.setW R.MGT_RELAY_TABLE w).set R.MGT_HOST_STATUS 0)
include h hx

theorem Dev.relayTable_taken : d.relayTable v = if !(x.has R.MGT_HOST_VALID && !x.has R.MGT_HOST_RELAYED) then x
    else x.openSlots (d.word R.MGT_RELAY_TABLE).toNat w := by
  have hgood : (List.range 7).any (d.badSlot w) = false := by
    rw [List.any_eq_false]
    intro i hi hbad
    rw [Dev.badSlot, Bool.and_eq_true, Bool.not_eq_true'] at hbad
    obtain ⟨hg, hr⟩ := h i (List.mem_range.1 hi) hbad.1
    rw [hg, hr] at hbad
    exact absurd hbad.2 (by decide)
  rw [Dev.relayTable_eq, ← hw, hgood, if_neg Bool.false_ne_true, hx]; rfl

theorem Dev.relayTable_unrooted (hv : x.has R.MGT_HOST_VALID = false ∨ x.has R.MGT_HOST_RELAYED = true) : d.relayTable v = x := by
  rw [Dev.relayTable_taken hw h hx]
  exact if_pos (by rcases hv with hv | hv <;> simp [hv])

theorem Dev.relayTable_old (hv : x.has R.MGT_HOST_VALID = true) (hr : x.has R.MGT_HOST_RELAYED = false)
    (ho : ∀ i, i < 7 → w.testBit (56 + i) = true → (d.word R.MGT_RELAY_TABLE).toNat.testBit (56 + i) = true) : d.relayTable v = x := by
  rw [Dev.relayTable_taken hw h hx, if_neg (by rw [hv, hr]; decide), Dev.openSlots_old x ho]

end relayTable

/-! ## Completions and addresses -/

/-- With no request under way, a completion goes out at once. -/
theorem Dev.complete_at_once {d : Dev} (t : Txn) (st : Status) (b : Bytes) (hu : d.mgt.hostUp = true) (hc : d.mgt.completions = []) :
    d.complete t st b = d.emit (.host ⟨7, t.index, t.tag, st, false, 0, BitVec.ofNat 32 b.length, 0, b⟩) := by
  have hd : ({ d with mgt := { d.mgt with completions := [] } } : Dev) = d := by rw [← hc]
  have hgo : [completionOf t st b].takeWhile (fun t => t.kind = 7) = [completionOf t st b] := rfl
  simp only [Dev.complete, Dev.flushCompletions, hc, List.nil_append, hgo, List.foldl_cons, List.foldl_nil, List.length_singleton, List.drop_one,
    List.tail_cons, hd]
  rw [Dev.toHost, hu]; rfl

section memStatus
variable {d : Dev} {a n : Nat}

theorem Dev.memStatus_refused {st : Status} (h : hbmRange a n = some st) : d.memStatus a n = st := by rw [Dev.memStatus, h]

theorem Dev.memStatus_region (h : a + n ≤ 0x9DC0000000) (hi : d.inRegion a n = true) : d.memStatus a n = 0x0402 := by
  rw [Dev.memStatus, hbmRange_passed h]; exact if_pos hi

theorem Dev.memStatus_passed (h : a + n ≤ 0x9DC0000000) (hi : d.inRegion a n = false) : d.memStatus a n = 0 := by
  rw [Dev.memStatus, hbmRange_passed h]; exact if_neg (by rw [hi]; decide)

end memStatus

/-! ## One request (R500) -/

theorem Dev.hostRun_invalid {d : Dev} {t : Txn} (src : HostSrc) (h : t.kind.toNat = 0 ∨ 6 < t.kind.toNat ∨ t.rsv = true ∨ 64 ≤ t.index.toNat) :
    d.hostRun t src = d.complete t 0x0116 [] := if_pos h

section hostRun
variable {d : Dev} {t : Txn} {src : HostSrc} {k a n : Nat} (hk : t.kind.toNat = k) (hf : ¬ (k = 0 ∨ 6 < k ∨ t.rsv = true ∨ 64 ≤ t.index.toNat))
  (hn : n = t.len.toNat)
include hk hf hn

/-- A length that is refused for every kind completes with its status. -/
theorem Dev.hostRun_length {st : Status} (hl : lenCheck 32 n 4096 = some st) : d.hostRun t src = d.complete t st [] := by
  subst hk hn
  unfold Dev.hostRun
  simp only [if_neg hf, Dev.txnLength, hl, ite_self]

/-- A request of no bytes completes with OK. -/
theorem Dev.hostRun_empty (h0 : n = 0) : d.hostRun t src = d.complete t 0 [] := by
  have hl : lenCheck 32 0 4096 = none := lenCheck_host_passed (Nat.zero_le _)
  rw [h0] at hn
  subst hk
  unfold Dev.hostRun
  simp only [if_neg hf, ← hn, Dev.txnLength, hl, if_true, ite_self]

variable (h0 : 0 < n) (hb : n ≤ 4096)
include h0 hb

theorem Dev.hostRun_record (h6 : k = 6) : d.hostRun t src = d.txnRecord t src := by
  subst hn h6
  unfold Dev.hostRun
  simp only [hk, if_neg hf, if_true, lenCheck_host_passed hb, Nat.ne_of_gt h0, if_false]

/-- A window request of 8 bytes is carried out. -/
theorem Dev.hostRun_window (h2 : k ≤ 2) (h8 : n = 8) : d.hostRun t src = d.txnRun t k := by
  have h6 : k ≠ 6 := by omega
  have hl : d.txnLength n true = (none, d) := by rw [Dev.txnLength_window d h0 hb, if_pos h8]
  subst hn
  unfold Dev.hostRun
  simp only [hk, if_neg hf, h6, if_false, decide_eq_true h2, hl, Nat.ne_of_gt h0]

/-- A memory or dump request of a multiple of 8 bytes is carried out. -/
theorem Dev.hostRun_memory (h2 : 2 < k) (h6 : k < 6) (h8 : n % 8 = 0) : d.hostRun t src = d.txnRun t k := by
  have hl : d.txnLength n false = (none, d) := by
    rw [Dev.txnLength, lenCheck_host_passed hb]
    simp only [Nat.ne_of_gt h0, if_false, Bool.false_eq_true, h8, if_true]
  subst hn
  unfold Dev.hostRun
  simp only [hk, if_neg hf, Nat.ne_of_lt h6, if_false, decide_eq_false (Nat.not_le.2 h2), hl, Nat.ne_of_gt h0]

end hostRun

section txnRun
variable {d : Dev} {t : Txn} {a n : Nat} (ha : a = t.addr.toNat)

theorem hrwStatus_beyond (h : 0x10000 ≤ a) : hrwStatus a = 0x0104 := if_pos h

theorem hrwStatus_passed (h : a < 0x10000) (h8 : a % 8 = 0) : hrwStatus a = 0 :=
  (if_neg (Nat.not_le.2 h)).trans (if_neg (not_not.2 h8))

include ha

theorem Dev.txnRun_window_status {k : Nat} {st : Status} (hk : k = 1 ∨ k = 2) (hs : hrwStatus a = st) (hn : st ≠ 0) : d.txnRun t k = d.complete t st [] := by
  subst hs ha; exact d.txnRun_window_refused hk hn

section window
variable (hs : hrwStatus a = 0)
include hs

theorem Dev.txnRun_read_none (h : d.hrwTarget a = none) : d.txnRun t 1 = d.complete t 0 [0, 0, 0, 0, 0, 0, 0, 0] := by
  subst ha
  simp only [Dev.txnRun, hs, ne_eq, not_true_eq_false, if_false, h]
  rfl

theorem Dev.txnRun_read_some {o : Nat} (h : d.hrwTarget a = some o) : d.txnRun t 1 = (d.ctlRead o).2.complete t 0 (le 8 (d.ctlRead o).1.toNat) := by
  subst ha
  simp only [Dev.txnRun, hs, ne_eq, not_true_eq_false, if_false, h]

theorem Dev.txnRun_write_none (h : d.hrwTarget a = none) : d.txnRun t 2 = d.complete t 0 [] := by
  subst ha
  simp only [Dev.txnRun, hs, ne_eq, not_true_eq_false, if_false, h]

theorem Dev.txnRun_write_some {o : Nat} (h : d.hrwTarget a = some o) :
    d.txnRun t 2 = (d.ctlWrite o (BitVec.ofNat 64 (fld t.payload 0 8))).complete t 0 [] := by
  subst ha
  simp only [Dev.txnRun, hs, ne_eq, not_true_eq_false, if_false, h]

end window

variable (hn : n = t.len.toNat)
include hn

theorem Dev.txnRun_memory_refused {k : Nat} (hk : k = 3 ∨ k = 4) (h : d.memStatus a n ≠ 0) : d.txnRun t k = d.complete t (d.memStatus a n) [] := by
  subst ha hn
  rcases hk with rfl | rfl
  · simp only [Dev.txnRun, h, if_false]
  · simp only [Dev.txnRun, h, if_false]

theorem Dev.txnRun_memory_read (h : d.memStatus a n = 0) : d.txnRun t 3 = d.complete t 0 (d.read a n) := by
  subst ha hn
  simp only [Dev.txnRun, h, if_true]

theorem Dev.txnRun_memory_write (h : d.memStatus a n = 0) : d.txnRun t 4 = (d.write a (slice t.payload 0 n)).complete t 0 [] := by
  subst ha hn
  simp only [Dev.txnRun, h, if_true]

theorem Dev.txnRun_dump_refused (h : d.get R.LGR_DUMP_LENGTH < a + n) : d.txnRun t 5 = d.complete t 0x0201 [] := by
  subst ha hn; exact if_pos h

theorem Dev.txnRun_dump (h : a + n ≤ d.get R.LGR_DUMP_LENGTH) : d.txnRun t 5 = d.complete t 0 (d.read (0x9FC0000000 + a) n) := by
  subst ha hn; exact if_neg (Nat.not_lt.2 h)

end txnRun

section txnRecord
variable {d : Dev} {t : Txn} {src : HostSrc} {b : Bytes} (hb : b = slice t.payload 0 t.len.toNat)
include hb

theorem Dev.txnRecord_unsigned (h : d.recSigned b = false) : d.txnRecord t src = d.complete t 0x0710 [] := by
  subst hb; exact if_pos (by rw [h]; rfl)

theorem Dev.txnRecord_signed (h : d.recSigned b = true) : d.txnRecord t src =
    ({ d with mgt := { d.mgt with completions := d.mgt.completions ++ [t] } } : Dev).recTake (b.take (b.length - 64)) (.host t src) := by
  subst hb; exact if_neg (by rw [h]; decide)

end txnRecord

/-! ## Where a request goes (R502, R507) -/

section hostIn
variable {d : Dev} {t : Txn} {want : Txn → Bool}

theorem Dev.hostIn_down (h : d.mgt.hostUp = false) : d.hostIn (.link t) want = d := if_pos (by rw [h]; rfl)

/-- A handover holds emulated window accesses and records, and all that follow them. -/
theorem Dev.hostTake_held {src : HostSrc} (hs : d.get R.MGT_FW_STATUS_STATE = 3) (h : d.heldKind t = true ∨ d.mgt.heldReqs ≠ []) :
    d.hostTake t src = { d with mgt := { d.mgt with heldReqs := d.mgt.heldReqs ++ [(src, t)] } } := if_pos ⟨hs, h⟩

section link
variable (hup : d.mgt.hostUp = true) (hw : want t = true) (hi : t.index.toNat < 64)
include hup hw hi

theorem Dev.hostIn_taken (ho : t.index.toNat = d.get R.MGT_HOST_INDEX) : d.hostIn (.link t) want = d.hostTake t (.link t) := by
  have hgo : (!d.mgt.hostUp || !want t) = false := by rw [hup, hw]; rfl
  have hx : t.index.toNat % 64 = d.get R.MGT_HOST_INDEX := (Nat.mod_eq_of_lt hi).trans ho
  simp only [Dev.hostIn, hgo, Bool.false_eq_true, if_false, hx, if_true]

variable (ho : t.index.toNat ≠ d.get R.MGT_HOST_INDEX)
include ho

theorem Dev.hostIn_unmapped (h : d.relayTo t.index.toNat = none) : d.hostIn (.link t) want = d.complete t 0x0104 [] := by
  have hgo : (!d.mgt.hostUp || !want t) = false := by rw [hup, hw]; rfl
  simp only [Dev.hostIn, hgo, Bool.false_eq_true, if_false, Nat.mod_eq_of_lt hi, ho, h]
  rfl

theorem Dev.hostIn_relayed {p : Nat} (h : d.relayTo t.index.toNat = some p) : d.hostIn (.link t) want = d.sendRelay p t := by
  have hgo : (!d.mgt.hostUp || !want t) = false := by rw [hup, hw]; rfl
  simp only [Dev.hostIn, hgo, Bool.false_eq_true, if_false, Nat.mod_eq_of_lt hi, ho, h]

end link

section relay
variable {x : Dev} {p : Nat} {r : List (Nat × Txn)} (h : d.fab.relayRx = (p, t) :: r) (hk : t.kind ≠ 9) (hw : want t = true)
  (hx : x = { d with fab := { d.fab with relayRx := r } })
include h hk hw hx

theorem Dev.hostIn_relay : d.hostIn .relay want = if x.mgt.hostUp = true ∨ x.mgt.relayPort ≠ some p then x else x.hostTake t .relay := by
  have hgo : ¬ (t.kind = 9 ∨ (!want t) = true) := by rw [hw]; exact not_or.2 ⟨hk, by decide⟩
  subst hx
  simp only [Dev.hostIn, h, if_neg hgo]

end relay

end hostIn

/-! ## The six requests as commands -/

/-- The requests and their KINDs. -/
def requests : List ((HostSrc → Instr) × Nat) :=
  [((Instr.regRead : HostSrc → Instr), 1), (.regWrite, 2), (.memRead, 3), (.memWrite, 4), (.dumpRead, 5), (.record, 6)]

theorem becomes_request {s : State} {c : HostSrc → Instr} {k : Nat} (hc : (c, k) ∈ requests) (src : HostSrc) (hs : s.Live) {y : Dev}
    (hy : s.dev.hostIn src (isReq k) = y) : Becomes (c src) s y.settle := by
  have hr := congrArg Dev.settle hy
  simp only [requests, List.mem_cons, Prod.mk.injEq, List.not_mem_nil, or_false] at hc
  rcases hc with ⟨rfl, rfl⟩ | ⟨rfl, rfl⟩ | ⟨rfl, rfl⟩ | ⟨rfl, rfl⟩ | ⟨rfl, rfl⟩ | ⟨rfl, rfl⟩
  · exact becomes_live (f := fun d => (d.hostIn src (isReq 1)).settle) rfl hs hr
  · exact becomes_live (f := fun d => (d.hostIn src (isReq 2)).settle) rfl hs hr
  · exact becomes_live (f := fun d => (d.hostIn src (isReq 3)).settle) rfl hs hr
  · exact becomes_live (f := fun d => (d.hostIn src (isReq 4)).settle) rfl hs hr
  · exact becomes_live (f := fun d => (d.hostIn src (isReq 5)).settle) rfl hs hr
  · exact becomes_live (f := fun d => (d.hostIn src (isReq 6)).settle) rfl hs hr

theorem requests_kind {c : HostSrc → Instr} {k : Nat} (hc : (c, k) ∈ requests) : 1 ≤ k ∧ k ≤ 6 := by
  simp only [requests, List.mem_cons, Prod.mk.injEq, List.not_mem_nil, or_false] at hc
  omega

/-- A request at the link is one of the six. -/
theorem request_of_link {t : Txn} {c : Instr} {k : Nat} (hc : (c, k) ∈ [(Instr.regRead (.link t), 1), (.regWrite (.link t), 2), (.memRead (.link t), 3),
    (.memWrite (.link t), 4), (.dumpRead (.link t), 5), (.record (.link t), 6)]) : ∃ c' : HostSrc → Instr, (c', k) ∈ requests ∧ c = c' (.link t) := by
  have hmap : (c, k) ∈ requests.map (fun e => (e.1 (.link t), e.2)) := hc
  obtain ⟨⟨c', k'⟩, he, heq⟩ := List.mem_map.1 hmap
  cases heq
  exact ⟨c', he, rfl⟩

/-- A request that is none of the six. -/
theorem hostOpInvalid_wants {t : Txn} (h : t.rsv = true ∨ t.kind = 0 ∨ 6 < t.kind.toNat) :
    (!((List.range 7).any (fun k => k != 0 && isReq k t))) = true := by
  rw [Bool.not_eq_true', List.any_eq_false]
  intro k hk hc
  have hk7 := List.mem_range.1 hk
  rw [Bool.and_eq_true, bne_iff_ne] at hc
  obtain ⟨hk0, hq⟩ := hc
  rw [isReq, Bool.and_eq_true, Bool.and_eq_true, beq_iff_eq, Bool.not_eq_true'] at hq
  obtain ⟨⟨hkind, hrsv⟩, -⟩ := hq
  rcases h with h | h | h
  · rw [h] at hrsv; exact absurd hrsv (by decide)
  · rw [h] at hkind; exact hk0 hkind.symm
  · omega

end Sys2Proof.Machine
end

section
/-! SUPPORT. What the host link's requests leave, kind by kind (R499 to R504, R510). -/

namespace Sys2Proof.Machine

/-- The address checks of a memory request, range by range. -/
theorem Dev.memStatus_ranges (d : Dev) (a n : Nat) :
    (0x9DC0000000 < a + n → (a + n ≤ 0xA000000000 → a < 0xA000000000 → d.memStatus a n = 0x0404) ∧ (0xA000000000 ≤ a → d.memStatus a n = 0x0104)) ∧
    (a + n ≤ 0x9DC0000000 → (d.inRegion a n = true → d.memStatus a n = 0x0402) ∧ (d.inRegion a n = false → d.memStatus a n = 0)) :=
  ⟨fun h => ⟨fun he ha => Dev.memStatus_refused (hbmRange_fixed h he ha), fun ha => Dev.memStatus_refused (hbmRange_beyond h ha)⟩,
    fun h => ⟨Dev.memStatus_region h, Dev.memStatus_passed h⟩⟩

/-- Settles O55: the link's states, the relay, each request of this device by its kind, and where the others go. -/
theorem hostRequestsRun : Obligations.HostRequestsRun := by
  refine ⟨?link, ?own, ?routed⟩
  case link =>
    intro s p v hs
    have hup : ∀ y, s.dev.linkUp p.val = y → Becomes (.hostLinkUp p) s y := fun y hy => becomes_live (f := (·.linkUp p.val)) rfl hs hy
    have hdown : ∀ y, s.dev.linkDown = y → Becomes .hostLinkDown s y := fun y hy => becomes_live (f := (·.linkDown)) rfl hs hy
    have hopen : ∀ y, s.dev.relayOpened = y → Becomes .relayOpen s y := fun y hy => becomes_live (f := (·.relayOpened)) rfl hs hy
    have htable : ∀ y, s.dev.relayTable v = y → Becomes (.relayTableWrite v) s (y.reply 0) := fun y hy =>
      becomes_live (f := fun d => (d.relayTable v).reply St.ok) rfl hs (congrArg (fun d : Dev => d.reply St.ok) hy)
    exact ⟨fun h => hup _ (Dev.linkUp_up h),
      fun h x hx => ⟨fun hv hr => hup _ (Dev.linkUp_had h hx hv hr), fun hv => hup _ (Dev.linkUp_first h hx hv)⟩,
      fun h => hdown _ (Dev.linkDown_down h), fun h => hdown _ (Dev.linkDown_falls h),
      fun h => hopen _ (Dev.relayOpened_nil h),
      fun q t r h => ⟨fun hk => hopen _ (Dev.relayOpened_other h hk), fun hk x hx =>
        ⟨fun hu => hopen _ (Dev.relayOpened_counted h hk hx hu), fun hu hp => hopen _ (Dev.relayOpened_first h hk hx hu hp)⟩,
        fun w hw => ⟨fun h => htable _ (Dev.relayTable_refused hw h), fun h x hx =>
          ⟨fun hv => htable _ (Dev.relayTable_unrooted hw h hx hv), fun hv hr ho => htable _ (Dev.relayTable_old hw h hx hv hr ho)⟩⟩⟩⟩
  case own =>
    intro s t a n fin hs hup hown hi hst ha hn hfin
    refine ⟨fun h => ?invalid, fun hr c k hc hk => ?kinds, fun st b h => Dev.complete_at_once t st b hup h, s.dev.memStatus_ranges a n⟩
    case invalid =>
      rw [hfin]
      refine becomes_live (f := fun d => (d.hostIn (.link t) (fun t => !((List.range 7).any (fun k => k != 0 && isReq k t)))).settle) rfl hs
        (congrArg Dev.settle ?_)
      rw [Dev.hostIn_own s.dev hup (hostOpInvalid_wants h) hi hown hst]
      refine Dev.hostRun_invalid (.link t) ?_
      rcases h with h | h | h
      · exact .inr (.inr (.inl h))
      · exact .inl (by rw [h]; rfl)
      · exact .inr (.inl h)
    case kinds =>
      obtain ⟨c', hc', rfl⟩ := request_of_link hc
      obtain ⟨hk1, hk6⟩ := requests_kind hc'
      have hrun : ∀ y, s.dev.hostRun t (.link t) = y → Becomes (c' (.link t)) s y.settle := fun y hy =>
        becomes_request hc' (.link t) hs ((Dev.hostIn_own s.dev hup (isReq_of_kind hk hr hi) hi hown hst).trans hy)
      have hf : ¬ (k = 0 ∨ 6 < k ∨ t.rsv = true ∨ 64 ≤ t.index.toNat) := by
        rw [hr]; simp only [Bool.false_eq_true, false_or]; omega
      have hdone : ∀ {d st b}, s.dev.hostRun t (.link t) = d.complete t st b → Becomes (c' (.link t)) s (fin d st b) := fun {d st b} h => by
        rw [hfin]; exact hrun _ h
      refine ⟨fun h => hdone (Dev.hostRun_length hk hf hn (if_pos h)),
        fun h g => hdone (Dev.hostRun_length hk hf hn ((if_neg (Nat.ne_of_lt g)).trans (if_pos h))),
        fun h => hdone (Dev.hostRun_empty hk hf hn h), fun h2 h0 hb h8 => hdone ?size, fun h2 h8 hbig => hdone ?beyond,
        fun h2 h8 hlow hal => hdone ?misaligned, fun h2 h8 hlow hal => ?window, fun h34 h0 hb h8 => ?memory, fun h5 h0 hb h8 => ?dump,
        fun h6 h0 hb b hb' => ?record⟩
      case size =>
        exact Dev.hostRun_window_misshapen s.dev _ (by omega) hr hi (hn ▸ h0) (hn ▸ hb) (.inl (hn ▸ h8))
      case beyond =>
        rw [Dev.hostRun_window hk hf hn (by omega) (by omega) h2 h8]
        exact Dev.txnRun_window_status ha (by omega) (hrwStatus_beyond hbig) (by decide)
      case misaligned =>
        exact Dev.hostRun_window_misshapen s.dev _ (by omega) hr hi (by omega) (by omega) (.inr ⟨ha ▸ hlow, ha ▸ hal⟩)
      case window =>
        have hw := Dev.hostRun_window (d := s.dev) (src := .link t) hk hf hn (by omega) (by omega) h2 h8
        have hp := hrwStatus_passed hlow hal
        refine ⟨fun h hk' => hdone ?_, fun h hk' => hdone ?_, fun o h hk' => hdone ?_, fun o h hk' => hdone ?_⟩
        · rw [hw, hk', Dev.txnRun_read_none ha hp h]
        · rw [hw, hk', Dev.txnRun_write_none ha hp h]
        · rw [hw, hk', Dev.txnRun_read_some ha hp h]
        · rw [hw, hk', Dev.txnRun_write_some ha hp h]
      case memory =>
        have hm := Dev.hostRun_memory (d := s.dev) (src := .link t) hk hf hn h0 hb (by omega) (by omega) h8
        refine ⟨fun h => hdone ?_, fun h hk' => hdone ?_, fun h hk' => hdone ?_⟩
        · rw [hm, Dev.txnRun_memory_refused ha hn h34 h]
        · rw [hm, hk', Dev.txnRun_memory_read ha hn h]
        · rw [hm, hk', Dev.txnRun_memory_write ha hn h]
      case dump =>
        have hm := Dev.hostRun_memory (d := s.dev) (src := .link t) hk hf hn h0 hb (by omega) (by omega) h8
        refine ⟨fun h => hdone ?_, fun h => hdone ?_⟩
        · rw [hm, h5, Dev.txnRun_dump_refused ha hn h]
        · rw [hm, h5, Dev.txnRun_dump ha hn h]
      case record =>
        have hm := Dev.hostRun_record (d := s.dev) (src := .link t) hk hf hn h0 hb h6
        rw [hn] at hb'
        exact ⟨fun h => hdone (hm.trans (Dev.txnRecord_unsigned hb' h)), fun h => hrun _ (hm.trans (Dev.txnRecord_signed hb' h))⟩
  case routed =>
    intro s t k c hs hr hi hk hc
    have hrun : ∀ src y, s.dev.hostIn src (isReq k) = y → Becomes (c src) s y.settle := fun src y hy => becomes_request hc src hs hy
    have hw := isReq_of_kind hk hr hi
    have h9 : t.kind ≠ 9 := fun h => absurd (requests_kind hc).2 (by rw [← hk, h]; decide)
    refine ⟨fun h => hrun _ _ (Dev.hostIn_down h), fun hup ho => ⟨fun h => hrun _ _ (Dev.hostIn_unmapped hup hw hi ho h),
      fun p h => hrun _ _ (Dev.hostIn_relayed hup hw hi ho h)⟩, fun hup ho hst hh => hrun _ _ ?held, fun p r h d hd => ⟨fun hn => hrun _ _ ?foreign,
      fun hu hp => hrun _ _ ?own⟩⟩
    case held => rw [Dev.hostIn_taken hup hw hi ho, Dev.hostTake_held hst hh]
    case foreign => rw [Dev.hostIn_relay h h9 hw hd, if_pos hn]
    case own => rw [Dev.hostIn_relay h h9 hw hd, if_neg (not_or.2 ⟨by rw [hu]; decide, not_not.2 hp⟩)]

end Sys2Proof.Machine
end
